-- ==== Sys2Proof/Word.lean ====
section
/-! DEFINITION. The words the manual counts in (00_scope.md R7), and the sparse table that holds
every register file and memory of the model as plain data. -/

namespace Sys2Proof

/-- A 32-bit word: a parameter value, a result word, a SEQ, an ESEQ (R7). -/
abbrev Word := BitVec 32

/-- A byte (R7). -/
abbrev Byte := BitVec 8

/-- A half-word (R7). -/
abbrev Half := BitVec 16

/-- A table by number: the listed pairs differ from what an unlisted number reads as. The table's
owner names that default; `Sys2Proof.tget` and `Sys2Proof.tput` of Machine/Tab.lean read and write it. -/
abbrev Tab (α : Type) := List (Nat × α)

end Sys2Proof
end

