-- ==== Sys2Proof/Syntax.lean ====
section
/-! DEFINITION. The commands of the block: one constructor of `Instr` per row of
spec/opcode_table.json. A row that names an opcode takes the packet that carries it; every other
row takes the time in ns since the previous command and the physical facts that it reads. -/

namespace Sys2Proof

/-- The two ports of a command packet (02_command_model.md R48): link is 0, SPI is 1. -/
inductive Port where
  | link
  | spi
  deriving DecidableEq, Repr

/-- The two lanes of the Plokam Link (07_plokam_link.md). -/
inductive Lane where
  | a
  | b
  deriving DecidableEq, Repr

/-- A command packet, less its opcode, its length and its trailer (R37): `params` are the parameter
bytes from offset 16 on, so that PLEN is their number divided by 4. -/
structure Pkt where
  port   : Port
  ring   : Nat
  flags  : Byte
  seq    : Word
  node   : Half
  tag    : Word
  params : List Byte
  deriving DecidableEq, Repr

/-- How reading one line goes (12_memory_integrity.md R273): the check passes; it passes at the
second read; both fail and the source of R274 gives a good line within the requester's limit; or
nothing gives one. -/
inductive LineRead where
  | good
  | retry
  | source
  | lost
  deriving DecidableEq, Repr

/-- The lines whose reads do not simply pass while a command runs, by line address (R273). -/
abbrev Upsets := List (Nat × LineRead)

/-- What one notch row access senses in one tile (10_pixel_diagnostics_safe_state.md R229,
11_calibration.md R260, 13_self_test.md R299): the tile's VLED sense, the check reference, and for
every probed cell the node voltage and the sink ratio: `node` and `rho` for cells that `odd` does
not list, by column + 256 for row b. Voltages in mV. `low` lists the cells whose lit time below the
level of R79 exceeded 2.0 us in the sub-frame, as pixel numbers 2,048 y + x. -/
structure TileProbe where
  vled   : Nat
  refMv  : Nat
  node   : Nat
  rho    : Nat
  odd    : List (Nat × Nat × Nat)
  deriving DecidableEq, Repr

/-- One voltage sample of a string position (09_strings_crest.md R219), in mV, where the period had
an open or closed interval long enough to sample. -/
structure StrSample where
  pos    : Nat
  opened : Option Nat
  closed : Option Nat
  deriving DecidableEq, Repr

/-- What an adaptation window of a lane's forward receiver saw (R176, R177): the means of the four
levels in mV, the direction in which each tap must move, the share of the least frequent symbol
value and the transition share in 1/256. -/
structure AdaptWindow where
  mu     : List Int
  tapDir : List Int
  rich   : Nat
  trans  : Nat
  deriving DecidableEq, Repr

/-- The eyes of a lane as a scan measures them (R178): heights in mV and widths in 1/64 UI. -/
structure EyeScan where
  height : List Nat
  width  : List Nat
  deriving DecidableEq, Repr

/-- What the forward receiver sees while it trains (R169): the least eye height in mV at each of the 16 CTLE codes,
the offset-trim codes that null the slicers, the windows of the adapt phase, and the eyes at its end. -/
structure TrainResult where
  ctleEyes : List Nat
  offsets  : List Nat
  windows  : List AdaptWindow
  eye      : EyeScan
  deriving DecidableEq, Repr

/-- One segment of a BIST slice as the MISR shows it (R290, R291). -/
structure SegResult where
  signature : Word
  expected  : Word
  patterns  : Nat
  complete  : Bool
  deriving DecidableEq, Repr

/-- A stretch of the envelope of a lane whose forward direction sleeps, as its wake detector sees it (R327, R329):
whether it is signal or electrical idle, whether the signal alternates between +3 and -3 at 50 MBd or more, and
its length in ns. -/
structure Envelope where
  on  : Bool
  alt : Bool
  ns  : Nat
  deriving DecidableEq, Repr

/-- What a lane's wake detector sees on it: the stretches of the envelope since it went quiet (R327, R329). -/
structure LaneSignal where
  lane : Lane
  env  : List Envelope
  deriving DecidableEq, Repr

/-- An edge on SYNC_IN: the time since the event before it, and whether it falls (08_frame_timing_scanout.md R186). -/
structure SyncEdge where
  dt      : Nat
  falling : Bool
  deriving DecidableEq, Repr

/-- The rails with a trip monitor (15_power_states.md R324). -/
inductive Rail where
  | vcore
  | vpix
  deriving DecidableEq, Repr

/-- The commands: one constructor per row of spec/opcode_table.json, in the table's order. -/
inductive Instr where
  | blockReceived (dt : Nat) (copyA copyB : Option (List Nat))
  | c0Overload (dt : Nat)
  | contextWrite (dt : Nat)
  | sequencerTake (dt : Nat) (ups : Upsets)
  | multiStepResume (dt : Nat) (ups : Upsets)
  | recordSend (dt : Nat) (lane : Lane)
  | pktWrite (dt : Nat) (sdi : List Byte)
  | ringRead (dt : Nat) (sel : Byte) (clocked : Nat)
  | statusPoll (dt : Nat)
  | ping (p : Pkt)
  | identify (p : Pkt)
  | sequencerRestart (p : Pkt)
  | pipelineSoftReset (p : Pkt)
  | fullReset (p : Pkt)
  | paramGet (p : Pkt)
  | paramSet (p : Pkt)
  | statusGet (p : Pkt)
  | eventAck (p : Pkt)
  | ringConfig (p : Pkt)
  | setTime (p : Pkt)
  | timeStatus (p : Pkt)
  | objUpdate (p : Pkt)
  | objRelease (p : Pkt)
  | objClearAll (p : Pkt)
  | forceLevel (p : Pkt)
  | fallbackEnter (p : Pkt)
  | fallbackExit (p : Pkt)
  | bendSet (p : Pkt)
  | frameCommit (p : Pkt)
  | scanSelect (p : Pkt)
  | timingStatus (p : Pkt)
  | freezeStatus (p : Pkt)
  | videoConfig (p : Pkt)
  | sceneWrite (p : Pkt)
  | sceneStore (p : Pkt)
  | sceneMix (p : Pkt)
  | symbolWrite (p : Pkt)
  | ovlSet (p : Pkt)
  | ovlClear (p : Pkt)
  | lutWrite (p : Pkt)
  | windowSet (p : Pkt)
  | tileRefSet (p : Pkt)
  | driveStatus (p : Pkt)
  | budgetSet (p : Pkt)
  | saddleStatus (p : Pkt)
  | strConfig (p : Pkt)
  | strLevel (p : Pkt)
  | strStatus (p : Pkt)
  | crestLoad (p : Pkt)
  | crestStop (p : Pkt)
  | crestStart (p : Pkt)
  | crestResume (p : Pkt)
  | crestStopAndSet (p : Pkt)
  | diagStatus (p : Pkt)
  | diagMapRead (p : Pkt)
  | pixelMask (p : Pkt)
  | faultClear (p : Pkt)
  | faultConfig (p : Pkt)
  | calSweep (p : Pkt)
  | calCommit (p : Pkt)
  | calStatus (p : Pkt)
  | calAbort (p : Pkt)
  | fluxWrite (p : Pkt)
  | memRead (p : Pkt) (ups : Upsets)
  | memWrite (p : Pkt)
  | cvuConfig (p : Pkt)
  | cvuRun (p : Pkt)
  | cvuDone (dt : Nat) (unit : Fin 4) (ups : Upsets)
  | errlogRead (p : Pkt)
  | scrubStatus (p : Pkt)
  | bistConfig (p : Pkt)
  | bistRun (p : Pkt)
  | bistResult (p : Pkt)
  | spurAssign (p : Pkt)
  | thermStatus (p : Pkt)
  | thermConfig (p : Pkt)
  | pwrState (p : Pkt)
  | pwrStatus (p : Pkt)
  | jrnlRead (p : Pkt)
  | jrnlMark (p : Pkt)
  | stateDigest (p : Pkt)
  | fwStageBegin (p : Pkt)
  | fwStageData (p : Pkt)
  | fwStageFinish (p : Pkt)
  | fwStageQuery (p : Pkt)
  | fwActivate (p : Pkt)
  | fwConfirm (p : Pkt)
  | fwSelfCheckTimeout (dt : Nat)
  | authOpen (p : Pkt)
  | authLoadKey (p : Pkt)
  | authClose (p : Pkt)
  | linkStatus (p : Pkt)
  | linkRetrain (p : Pkt)
  | laneMode (p : Pkt)
  | eyeRead (p : Pkt)
  | nodeSet (p : Pkt)
  | groupSet (p : Pkt)
  | schedule (p : Pkt)
  | cancel (p : Pkt)
  | list (p : Pkt)
  | groupStatus (p : Pkt)
  | timedRelease (dt : Nat)
  | startToken (dt : Nat) (g : Fin 256) (ups : Upsets)
  | passComplete (dt : Nat) (t : Fin 16) (ups : Upsets)
  | loadDeadline (dt : Nat) (g : Fin 256) (parityBad : Bool)
  | slotStart (dt : Nat) (g : Fin 256)
  | notchRowAccess (dt : Nat) (probes : List TileProbe) (low : List Nat)
  | notchEnd (dt : Nat) (measured : List Nat)
  | planInstant (dt : Nat) (dupDiffers : Bool)
  | commitCutoff (dt : Nat)
  | latchInstant (dt : Nat)
  | timeoutScanRound (dt : Nat)
  | hardTrip (dt : Nat) (shuntMa : Nat)
  | hostStale (dt : Nat)
  | fallbackCheck (dt : Nat)
  | limpCodesReady (dt : Nat) (badMram : List Nat) (badStore : List Nat) (badMap : List Nat)
  | syncInEdge (edge : SyncEdge)
  | syncEdgeMissed (dt : Nat)
  | ptbLock (dt : Nat) (gridOffset : Nat)
  | frameReady (dt : Nat)
  | detectPoll (dt : Nat) (lane : Lane) (present : Bool)
  | backoffExpiry (dt : Nat) (lane : Lane)
  | rxReady (dt : Nat) (lane : Lane) (found : TrainResult)
  | trainTimeout (dt : Nat) (lane : Lane)
  | lockTimeout (dt : Nat) (lane : Lane)
  | capsTimeout (dt : Nat) (lane : Lane)
  | lossOfSignal (dt : Nat) (lane : Lane)
  | terminationLost (dt : Nat) (lane : Lane)
  | adaptWindowEnd (dt : Nat) (lane : Lane) (w : AdaptWindow)
  | eyeScanDone (dt : Nat) (lane : Lane) (eye : EyeScan)
  | l2Resume (dt : Nat) (lane : Lane)
  | returnIdleTimeout (dt : Nat) (lane : Lane)
  | returnResume (dt : Nat) (lane : Lane)
  | retReadyTimeout (dt : Nat) (lane : Lane)
  | stringPeriodStart (dt : Nat) (samples : List StrSample)
  | openDetected (dt : Nat) (pos : Fin 64) (mv : Nat)
  | crestTick (dt : Nat)
  | ntcUpdate (dt : Nat) (code1 code2 : Nat)
  | thermalUpdate (dt : Nat) (readings : List Int) (vledMv : List Nat)
  | thermalResume (dt : Nat)
  | thermalRelax (dt : Nat)
  | factoryCorrection (dt : Nat)
  | talusRead (dt : Nat) (mram : Bool) (outcome : LineRead)
  | repaired (dt : Nat) (sourceGood : Bool)
  | mramLineWrite (dt : Nat) (verified : Bool)
  | journalLineWrite (dt : Nat) (verified : Bool)
  | coalesceWindowClose (dt : Nat) (port : Port) (ring : Fin 8)
  | bistSliceStart (dt : Nat)
  | sliceEnd (dt : Nat) (segs : List SegResult)
  | bankMigrated (dt : Nat)
  | supplyTrip (dt : Nat) (rail : Rail)
  | vaonPowerOn (dt : Nat)
  | resetnAssert (dt : Nat)
  | resetnRelease (dt : Nat)
  | powerupStageReady (dt : Nat)
  | powerupStageTimeout (dt : Nat) (detail : Byte)
  | referenceLoss (dt : Nat)
  | clockRestored (dt : Nat) (ticks : Nat)
  | wakeLand (dt : Nat)
  | laneWake (dt : Nat) (heard : LaneSignal)
  | sleepTimerWake (dt : Nat)
  | quiesceTimeout (dt : Nat) (stuck : Bool)
  | sleepEntry (dt : Nat)
  | stressStore (dt : Nat)
  | watchdogExpiry (dt : Nat)
  | lockstepMismatch (dt : Nat)
  | instructionFetchFault (dt : Nat) (line : Nat)
  | restartHoldExpiry (dt : Nat)
  | recoveryPass (dt : Nat)
  | jtagInstructionUpdate (dt : Nat) (code : BitVec 5)
  | testLogicReset (dt : Nat)
  | supplyMonitorRecovery (dt : Nat)
  | setTimeEdgeTimeout (dt : Nat)
  | lutBankCopyDone (dt : Nat)
  | pipelineReinitDone (dt : Nat)
  | fwSelfCheckPassed (dt : Nat)
  | stepTrimsDone (dt : Nat) (dac : List Nat) (cmp : List (List Nat))
  | trainTapMismatch (dt : Nat) (lane : Lane)
  | tExitMeasured (dt : Nat) (period : Nat)
  | tickPeriodMeasured (dt : Nat) (period : Nat)
  deriving DecidableEq, Repr

end Sys2Proof
end

