-- ==== Sys2Proof/Machine/Bits.lean ====
section
/-! DEFINITION. Bit fields, byte order (little-endian, R7) and plain number helpers. -/

namespace Sys2Proof

/-- Bits `[hi:lo]` of a number. -/
def bits (n hi lo : Nat) : Nat := n / 2 ^ lo % 2 ^ (hi + 1 - lo)

/-- Bit `b` of a number. -/
def bitOf (n b : Nat) : Bool := n / 2 ^ b % 2 = 1

/-- A bit as a number. -/
def b2n (b : Bool) : Nat := if b then 1 else 0

/-- A number with bit `b` set. -/
def setBit (n b : Nat) : Nat := if bitOf n b then n else n + 2 ^ b

/-- A number with bit `b` clear. -/
def clrBit (n b : Nat) : Nat := if bitOf n b then n - 2 ^ b else n

/-- The bits set in a number, among the first `w`. -/
def bitList (n w : Nat) : List Nat := (List.range w).filter fun b => bitOf n b

/-- The number whose set bits are listed. -/
def ofBitList (l : List Nat) : Nat := l.foldl setBit 0

/-- A list of flags as a number, bit 0 first. -/
def ofFlags : List Bool → Nat
  | [] => 0
  | b :: r => b2n b + 2 * ofFlags r

/-- `n` little-endian bytes of a number. -/
def leBytes (n v : Nat) : List Byte :=
  (List.range n).map fun i => BitVec.ofNat 8 (v / 256 ^ i)

/-- The number that little-endian bytes spell. -/
def ofLe : List Byte → Nat
  | [] => 0
  | b :: r => b.toNat + 256 * ofLe r

/-- `n` big-endian bytes of a number. -/
def beBytes (n v : Nat) : List Byte := (leBytes n v).reverse

/-- The number that big-endian bytes spell. -/
def ofBe (l : List Byte) : Nat := ofLe l.reverse

/-- The bytes of words, each little-endian. -/
def wordBytes (ws : List Word) : List Byte := ws.flatMap fun w => leBytes 4 w.toNat

/-- Byte `i` of a list of bytes, 0 past its end. -/
def byteAt (l : List Byte) (i : Nat) : Byte := l.getD i 0

/-- The words of a list of bytes, the last padded with zeros. -/
def bytesWords : Nat → List Byte → List Word
  | 0, _ => []
  | _, [] => []
  | n + 1, l => BitVec.ofNat 32 (ofLe (l.take 4)) :: bytesWords n (l.drop 4)

/-- All the words of a list of bytes. -/
def wordsOf (l : List Byte) : List Word := bytesWords ((l.length + 3) / 4) l

/-- A word from a number. -/
def w32 (n : Nat) : Word := BitVec.ofNat 32 n

/-- A word from an integer, in two's complement. -/
def i32 (n : Int) : Word := BitVec.ofInt 32 n

/-- Two half-words as one word, the first in [15:0]. -/
def halves (lo hi : Nat) : Word := w32 (lo % 65536 + 65536 * (hi % 65536))

/-- A 64-bit number as its two words. -/
def words64 (n : Nat) : List Word := [w32 n, w32 (n / 2 ^ 32)]

/-- The signed value of an `w`-bit field. -/
def signed (w n : Nat) : Int :=
  if n % 2 ^ w < 2 ^ (w - 1) then (n % 2 ^ w : Nat) else (n % 2 ^ w : Nat) - (2 ^ w : Nat)

/-- The `w`-bit two's complement of an integer. -/
def twos (w : Nat) (i : Int) : Nat := (i % (2 ^ w : Nat)).toNat

/-- Keep a number within bounds. -/
def clampN (lo hi n : Nat) : Nat := max lo (min hi n)

/-- Keep an integer within bounds. -/
def clampI (lo hi n : Int) : Int := max lo (min hi n)

/-- Quotient rounded up. -/
def ceilDiv (a b : Nat) : Nat := (a + b - 1) / b

/-- Quotient rounded to nearest, halves up. -/
def roundDiv (a b : Nat) : Nat := (2 * a + b) / (2 * b)

/-- Integer square root, rounded down, by bits from the top: `fuel` bits of the root. -/
def isqrtFrom : Nat → Nat → Nat → Nat
  | 0, _, r => r
  | k + 1, n, r =>
    if (r + 2 ^ k) * (r + 2 ^ k) ≤ n then isqrtFrom k n (r + 2 ^ k) else isqrtFrom k n r

/-- The integer square root of a number below 2^128. -/
def isqrt (n : Nat) : Nat := isqrtFrom 64 n 0

/-- The least number of a list, or a default for the empty list. -/
def minOf (d : Nat) : List Nat → Nat
  | [] => d
  | a :: r => r.foldl min a

/-- The greatest number of a list, or 0. -/
def maxOf (l : List Nat) : Nat := l.foldl max 0

/-- The sum of a list. -/
def sumOf (l : List Nat) : Nat := l.foldl (· + ·) 0

/-- Two lists of numbers added place by place, the shorter padded with zeros. -/
def addLists : List Nat → List Nat → List Nat
  | [], l => l
  | l, [] => l
  | a :: r, b :: t => (a + b) :: addLists r t

/-- Saturating addition in a counter of `w` bits. -/
def satAdd (w a b : Nat) : Nat := min (a + b) (2 ^ w - 1)

/-- The place of an element in a list, if it is there. -/
def indexOf? {α : Type} [DecidableEq α] (a : α) (l : List α) : Option Nat :=
  if l.contains a then some (l.idxOf a) else none

/-- Insertion into a rising list of numbers. -/
def sortIns (a : Nat) : List Nat → List Nat
  | [] => [a]
  | b :: r => if a ≤ b then a :: b :: r else b :: sortIns a r

/-- A list of numbers in rising order. -/
def sortNat (l : List Nat) : List Nat := l.foldr sortIns []

end Sys2Proof
end

