-- ==== Sys2Proof/Machine/Crypto.lean ====
section
/-! DEFINITION. The check values and the cryptography that the manual names: CRCs (R40, R161, R285),
AES-128 and CMAC (R360), SHA-256 and ECDSA P-256 (R356), by the public standards (PRESUMED, log 37). -/

namespace Sys2Proof

/-! ### CRC -/

/-- `w` bits of a number in the opposite order. -/
def reflect : Nat → Nat → Nat
  | 0, _ => 0
  | w + 1, n => n % 2 * 2 ^ w + reflect w (n / 2)

/-- One bit of a reflected CRC register with a reflected polynomial. -/
def crcStep (poly c : Nat) : Nat := if c % 2 = 1 then (c / 2) ^^^ poly else c / 2

/-- Eight bits of a reflected CRC register. -/
def crcEight (poly c : Nat) : Nat :=
  crcStep poly (crcStep poly (crcStep poly (crcStep poly
    (crcStep poly (crcStep poly (crcStep poly (crcStep poly c)))))))

/-- A reflected CRC register run over bytes. -/
def crcRun (poly : Nat) : Nat → List Byte → Nat
  | c, [] => c
  | c, b :: r => crcRun poly (crcEight poly (c ^^^ b.toNat)) r

/-- A CRC as R285 sets it: width, polynomial, initial value, input and output reflection, final XOR. The register
runs reflected; input that is not reflected enters with the bits of each byte turned round. -/
def crcOf (w poly init : Nat) (refIn refOut : Bool) (xorOut : Nat) (l : List Byte) : Nat :=
  let l := if refIn then l else l.map fun b => BitVec.ofNat 8 (reflect 8 b.toNat)
  let c := crcRun (reflect w poly) (reflect w init) l
  (if refOut then c else reflect w c) ^^^ xorOut

/-- The CRC-32 of R40, continued from a CRC already run (0 for none). -/
def crc32From (c : Nat) (l : List Byte) : Nat :=
  crcRun 0xEDB88320 (c ^^^ 0xFFFFFFFF) l ^^^ 0xFFFFFFFF

/-- The CRC-32 of R40. -/
def crc32 (l : List Byte) : Nat := crc32From 0 l

/-! ### AES-128 and CMAC -/

/-- The AES S-box, byte i at bits 8 i. -/
def aesBox : Nat :=
  0x16bb54b00f2d99416842e6bf0d89a18cdf2855cee9871e9b948ed9691198f8e19e1dc186b95735610ef6034866b53e708a8bbd4b1f74dde8c6b4a61c2e2578ba08ae7a65eaf4566ca94ed58d6d37c8e779e4959162acd3c25c2406490a3a32e0db0b5ede14b8ee4688902a22dc4f816073195d643d7ea7c41744975fec130ccdd2f3ff1021dab6bcf5389d928f40a351a89f3c507f02f94585334d43fbaaefd0cf584c4a39becb6a5bb1fc20ed00d153842fe329b3d63b52a05a6e1b1a2c830975b227ebe28012079a059618c323c7041531d871f1e5a534ccf73f362693fdb7c072a49cafa2d4adf04759fa7dc982ca76abd7fe2b670130c56f6bf27b777c63

/-- The S-box of a byte. -/
def aesSub (b : Nat) : Nat := aesBox / 256 ^ b % 256

/-- Doubling in the AES field. -/
def aesTwo (b : Nat) : Nat := if b < 128 then 2 * b else (2 * b - 256) ^^^ 0x1b

/-- Bytes XORed place by place. -/
def xorBytes : List Nat → List Nat → List Nat
  | a :: r, b :: t => (a ^^^ b) :: xorBytes r t
  | _, _ => []

/-- The next round key of AES-128, from a round constant. -/
def aesNextKey (rc : Nat) (k : List Nat) : List Nat :=
  let g := fun i => k.getD i 0
  let t := [aesSub (g 13) ^^^ rc, aesSub (g 14), aesSub (g 15), aesSub (g 12)]
  let a := xorBytes (k.take 4) t
  let b := xorBytes a ((k.drop 4).take 4)
  let c := xorBytes b ((k.drop 8).take 4)
  a ++ b ++ c ++ xorBytes c (k.drop 12)

/-- ShiftRows over 16 bytes in column order. -/
def aesShift (s : List Nat) : List Nat :=
  [0, 5, 10, 15, 4, 9, 14, 3, 8, 13, 2, 7, 12, 1, 6, 11].map fun i => s.getD i 0

/-- One column of MixColumns. -/
def aesMix4 (a b c d : Nat) : List Nat :=
  [aesTwo a ^^^ aesTwo b ^^^ b ^^^ c ^^^ d, a ^^^ aesTwo b ^^^ aesTwo c ^^^ c ^^^ d,
   a ^^^ b ^^^ aesTwo c ^^^ aesTwo d ^^^ d, aesTwo a ^^^ a ^^^ b ^^^ c ^^^ aesTwo d]

/-- MixColumns. -/
def aesMix (s : List Nat) : List Nat :=
  [0, 4, 8, 12].flatMap fun i =>
    aesMix4 (s.getD i 0) (s.getD (i + 1) 0) (s.getD (i + 2) 0) (s.getD (i + 3) 0)

/-- The rounds of AES-128 from a state and a round key: one per round constant. -/
def aesRounds : List Nat → List Nat → List Nat → List Nat
  | [], _, s => s
  | [rc], k, s => xorBytes (aesShift (s.map aesSub)) (aesNextKey rc k)
  | rc :: r, k, s =>
    let k := aesNextKey rc k
    aesRounds r k (xorBytes (aesMix (aesShift (s.map aesSub))) k)

/-- The round constants of AES-128. -/
def aesRcons : List Nat := [0x01, 0x02, 0x04, 0x08, 0x10, 0x20, 0x40, 0x80, 0x1b, 0x36]

/-- AES-128 encryption of one block. -/
def aesEnc (key block : List Nat) : List Nat := aesRounds aesRcons key (xorBytes block key)

/-- The round keys of AES-128, the last first. -/
def aesKeys : List Nat → List Nat → List (List Nat) → List (List Nat)
  | [], k, acc => k :: acc
  | rc :: r, k, acc => aesKeys r (aesNextKey rc k) (k :: acc)

/-- The inverse S-box, byte i at bits 8 i. -/
def aesInvBox : Nat :=
  0x7d0c2155631469e126d677ba7e042b17619953833cbbebc8b0f52aae4d3be0a0ef9cc9939f7ae52d0d4ab519a97f51605fec8027591012b131c7078833a8dd1ff45acd78fec0db9a2079d2c64b3e56fc1bbe18aa0e62b76f89c5291d711af1476edf751ce837f9e28535ade72274ac9673e6b4f0cecff297eadc674f4111913a6b8a130103bdafc1020f3fca8f1e2cd00645b3b80558e4f70ad3bc8c00abd890849d8da75746155edab9edfd5048706c92b6655dcc5ca4d41698688664f6f87225d18b6d49a25b76b224d92866a12e084ec3fa420b954cee3d23c2a632947b54cbe9dec444438e3487ff2f9b8239e37cfbd7f3819ea340bf38a53630d56a0952

/-- The inverse S-box of a byte. -/
def aesInvSub (b : Nat) : Nat := aesInvBox / 256 ^ b % 256

/-- The inverse of ShiftRows. -/
def aesInvShift (s : List Nat) : List Nat :=
  [0, 13, 10, 7, 4, 1, 14, 11, 8, 5, 2, 15, 12, 9, 6, 3].map fun i => s.getD i 0

/-- The inverse of MixColumns, which is MixColumns three times over. -/
def aesInvMix (s : List Nat) : List Nat := aesMix (aesMix (aesMix s))

/-- The rounds of AES-128 decryption after the first key. -/
def aesInvRounds : List (List Nat) → List Nat → List Nat
  | [], s => s
  | [k], s => xorBytes ((aesInvShift s).map aesInvSub) k
  | k :: r, s => aesInvRounds r (aesInvMix (xorBytes ((aesInvShift s).map aesInvSub) k))

/-- AES-128 decryption of one block. -/
def aesDec (key block : List Nat) : List Nat :=
  match aesKeys aesRcons key [] with
  | [] => block
  | k :: r => aesInvRounds r (xorBytes block k)

/-- Doubling of a 128-bit value in the CMAC field. -/
def cmacTwo (n : Nat) : Nat := (2 * n % 2 ^ 128) ^^^ (if bitOf n 127 then 0x87 else 0)

/-- A block of 16 bytes from a number, most significant byte first. -/
def blockOf (n : Nat) : List Nat := (beBytes 16 n).map (·.toNat)

/-- The number of a block. -/
def ofBlock (l : List Nat) : Nat := l.foldl (fun a b => 256 * a + b) 0

/-- The CBC chain of CMAC over all the blocks of a message, with the two subkeys. -/
def cmacRun (key : List Nat) (k1 k2 : Nat) : Nat → List Nat → List Nat → List Nat
  | 0, x, _ => x
  | n + 1, x, m =>
    if m.length ≤ 16 then
      let last := if m.length = 16 then xorBytes m (blockOf k1)
        else xorBytes (m ++ [0x80] ++ List.replicate (15 - m.length) 0) (blockOf k2)
      aesEnc key (xorBytes x last)
    else cmacRun key k1 k2 n (aesEnc key (xorBytes x (m.take 16))) (m.drop 16)

/-- AES-128-CMAC (R360) of a message. -/
def cmac (key msg : List Byte) : List Byte :=
  let k := key.map (·.toNat)
  let l := ofBlock (aesEnc k (List.replicate 16 0))
  let k1 := cmacTwo l
  ((cmacRun k k1 (cmacTwo k1) (msg.length / 16 + 1) (List.replicate 16 0) (msg.map (·.toNat))).map
    (BitVec.ofNat 8))

/-- AES-128 decryption of 16 bytes. -/
def aesUnwrap (key block : List Byte) : List Byte :=
  (aesDec (key.map (·.toNat)) (block.map (·.toNat))).map (BitVec.ofNat 8)

/-! ### SHA-256 -/

/-- The greatest number whose power `e` is at most `n`, found from bit `i - 1` of it down. -/
def rootFrom (e n : Nat) : Nat → Nat → Nat
  | 0, r => r
  | i + 1, r => rootFrom e n i (if (r + 2 ^ i) ^ e ≤ n then r + 2 ^ i else r)

/-- The primes below 312, of which there are 64. -/
def smallPrimes : List Nat :=
  (List.range 312).filter fun k =>
    decide (2 ≤ k) && [2, 3, 5, 7, 11, 13, 17].all fun d => decide (k = d) || decide (k % d ≠ 0)

/-- The first 32 bits of the fraction of a root of a number. -/
def rootWord (e n : Nat) : Nat := rootFrom e (n * 2 ^ (32 * e)) 35 0 % 2 ^ 32

/-- The round constants of SHA-256, from the cube roots of the first 64 primes. -/
def shaK : List Nat := smallPrimes.map (rootWord 3)

/-- The initial value of SHA-256, from the square roots of the first 8 primes. -/
def shaH : List Nat := (smallPrimes.take 8).map (rootWord 2)

/-- Rotation right of a 32-bit word. -/
def rotr (n k : Nat) : Nat := n / 2 ^ k + n % 2 ^ k * 2 ^ (32 - k)

/-- The message schedule of a block, the latest word first: `n` words still to form. -/
def shaSched : Nat → List Nat → List Nat
  | 0, w => w
  | n + 1, w =>
    let a := w.getD 14 0
    let b := w.getD 1 0
    let s0 := rotr a 7 ^^^ rotr a 18 ^^^ (a / 8)
    let s1 := rotr b 17 ^^^ rotr b 19 ^^^ (b / 1024)
    shaSched n ((s1 + w.getD 6 0 + s0 + w.getD 15 0) % 2 ^ 32 :: w)

/-- One round of SHA-256. -/
def shaRound (h : List Nat) (kw : Nat) : List Nat :=
  let g := fun i => h.getD i 0
  let e := g 4
  let a := g 0
  let ch := (e &&& g 5) ^^^ ((0xFFFFFFFF - e) &&& g 6)
  let t1 := g 7 + (rotr e 6 ^^^ rotr e 11 ^^^ rotr e 25) + ch + kw
  let maj := (a &&& g 1) ^^^ (a &&& g 2) ^^^ (g 1 &&& g 2)
  let t2 := (rotr a 2 ^^^ rotr a 13 ^^^ rotr a 22) + maj
  [(t1 + t2) % 2 ^ 32, a, g 1, g 2, (g 3 + t1) % 2 ^ 32, e, g 5, g 6]

/-- The compression of one block of 16 words. -/
def shaBlock (h : List Nat) (w : List Nat) : List Nat :=
  let ws := (shaSched 48 w.reverse).reverse
  let r := (List.zipWith (· + ·) ws shaK).foldl shaRound h
  List.zipWith (fun a b => (a + b) % 2 ^ 32) h r

/-- The blocks of a padded message, `n` of them. -/
def shaRun : Nat → List Nat → List Byte → List Nat
  | 0, h, _ => h
  | n + 1, h, m =>
    let w := (List.range 16).map fun i => ofBe ((m.drop (4 * i)).take 4)
    shaRun n (shaBlock h w) (m.drop 64)

/-- SHA-256 of a message (R356). -/
def sha256 (m : List Byte) : List Byte :=
  let pad := (119 - m.length % 64) % 64
  let p := m ++ [0x80] ++ List.replicate pad 0 ++ beBytes 8 (8 * m.length)
  (shaRun (p.length / 64) shaH p).flatMap (beBytes 4)

/-! ### ECDSA over P-256 -/

/-- The prime of P-256. -/
def ecP : Nat := 0xffffffff00000001000000000000000000000000ffffffffffffffffffffffff
/-- The order of P-256. -/
def ecN : Nat := 0xffffffff00000000ffffffffffffffffbce6faada7179e84f3b9cac2fc632551
/-- The coefficient b of P-256. -/
def ecB : Nat := 0x5ac635d8aa3a93e7b3ebbd55769886bc651d06b0cc53b0f63bce3c3e27d2604b
/-- The base point of P-256. -/
def ecG : Nat × Nat :=
  (0x6b17d1f2e12c4247f8bce6e563a440f277037d812deb33a0f4a13945d898c296,
   0x4fe342e2fe1a7f9b8ee7eb4a7c0f9e162bce33576b315ececbb6406837bf51f5)

/-- A power modulo m, by the bits of a 256-bit exponent. -/
def powMod (m : Nat) : Nat → Nat → Nat → Nat
  | 0, _, _ => 1
  | n + 1, b, e =>
    let r := powMod m n (b * b % m) (e / 2)
    if e % 2 = 1 then r * b % m else r

/-- The inverse modulo a prime. -/
def invMod (m a : Nat) : Nat := powMod m 256 (a % m) (m - 2)

/-- The sum of two points, none being the point at infinity. -/
def ecAdd : Option (Nat × Nat) → Option (Nat × Nat) → Option (Nat × Nat)
  | none, q => q
  | p, none => p
  | some (x1, y1), some (x2, y2) =>
    if x1 = x2 ∧ (y1 + y2) % ecP = 0 then none
    else
      let k := if x1 = x2 then (3 * x1 * x1 + (ecP - 3)) * invMod ecP (2 * y1) % ecP
        else (y2 + (ecP - y1)) * invMod ecP (x2 + (ecP - x1)) % ecP
      let x := (k * k + (ecP - x1) + (ecP - x2)) % ecP
      some (x, (k * (x1 + (ecP - x)) + (ecP - y1)) % ecP)

/-- A multiple of a point, by the bits of a 256-bit number. -/
def ecMul : Nat → Nat → Option (Nat × Nat) → Option (Nat × Nat)
  | 0, _, _ => none
  | n + 1, k, p =>
    let r := ecMul n (k / 2) (ecAdd p p)
    if k % 2 = 1 then ecAdd r p else r

/-- ECDSA verification over P-256 of a digest (R356), with the public key's coordinates. -/
def ecdsaOk (qx qy : Nat) (digest : List Byte) (r s : Nat) : Bool :=
  let w := invMod ecN s
  let u1 := ofBe digest * w % ecN
  let u2 := r * w % ecN
  decide (0 < r) && decide (r < ecN) && decide (0 < s) && decide (s < ecN)
    && decide (qx < ecP) && decide (qy < ecP)
    && decide (qy * qy % ecP = (qx * qx * qx + (ecP - 3) * qx + ecB) % ecP)
    && (match ecAdd (ecMul 256 u1 (some ecG)) (ecMul 256 u2 (some (qx, qy))) with
      | none => false
      | some (x, _) => decide (x % ecN = r))

end Sys2Proof
end

