-- ==== Sys2Proof/Machine/Operands.lean ====
section
/-! DEFINITION. The operand forms: the fields of a command packet (R37 to R39) at the offsets that
the manual gives, the packet's bytes, and the statuses of a reply (R59). -/

namespace Sys2Proof

/-- The number of a port: link 0, SPI 1 (R48). -/
def Port.num : Port → Nat
  | .link => 0
  | .spi => 1

/-- The number of a lane: A 0, B 1. -/
def Lane.num : Lane → Nat
  | .a => 0
  | .b => 1

/-- CLASS of a packet (R38). -/
def Pkt.cls (p : Pkt) : Nat := bits p.flags.toNat 1 0
/-- ACKREQ (R38). -/
def Pkt.ackreq (p : Pkt) : Bool := bitOf p.flags.toNat 2
/-- DURABLE (R38). -/
def Pkt.durable (p : Pkt) : Bool := bitOf p.flags.toNat 3
/-- TIMED (R38). -/
def Pkt.timed (p : Pkt) : Bool := bitOf p.flags.toNat 4
/-- FLAGS bits 6 and 5, which must be clear in a command (R38). -/
def Pkt.replyBits (p : Pkt) : Nat := bits p.flags.toNat 6 5
/-- GROUP of NODE (R39). -/
def Pkt.group (p : Pkt) : Bool := bitOf p.node.toNat 15
/-- BCAST of NODE (R39). -/
def Pkt.bcast (p : Pkt) : Bool := bitOf p.node.toNat 14
/-- A unicast packet (R39). -/
def Pkt.unicast (p : Pkt) : Bool := !p.group && !p.bcast

/-- The byte at an offset of the packet, from 16 on. -/
def Pkt.u8 (p : Pkt) (off : Nat) : Nat := (byteAt p.params (off - 16)).toNat
/-- A little-endian half-word at an offset. -/
def Pkt.u16 (p : Pkt) (off : Nat) : Nat := p.u8 off + 256 * p.u8 (off + 1)
/-- A little-endian word at an offset. -/
def Pkt.u32 (p : Pkt) (off : Nat) : Nat := p.u16 off + 65536 * p.u16 (off + 2)
/-- A little-endian u48 at an offset. -/
def Pkt.u48 (p : Pkt) (off : Nat) : Nat := p.u32 off + 2 ^ 32 * p.u16 (off + 4)
/-- A little-endian u64 at an offset. -/
def Pkt.u64 (p : Pkt) (off : Nat) : Nat := p.u32 off + 2 ^ 32 * p.u32 (off + 4)
/-- A signed half-word at an offset. -/
def Pkt.s16 (p : Pkt) (off : Nat) : Int := signed 16 (p.u16 off)
/-- The bytes from an offset on. -/
def Pkt.bytes (p : Pkt) (off n : Nat) : List Byte :=
  let l := (p.params.drop (off - 16)).take n
  l ++ List.replicate (n - l.length) 0
/-- Reserved bytes are 0 (R8). -/
def Pkt.zero (p : Pkt) (off n : Nat) : Bool :=
  (List.range n).all fun i => decide (p.u8 (off + i) = 0)
/-- PLEN of the parameters in hand. -/
def Pkt.plen (p : Pkt) : Nat := p.params.length / 4
/-- The offset at which a packet carries the byte at an offset of its opcode's own layout: TIMED
places two words before it (R38). -/
def Pkt.ownOff (p : Pkt) (off : Nat) : Nat := if p.timed then off + 8 else off
/-- The packet with one parameter byte replaced: a row of the table that stands for one value of a
discriminating byte fixes it (DESIGN CHOICE, log 10). -/
def Pkt.fix (p : Pkt) (off : Nat) (v : Byte) : Pkt :=
  { p with params := p.params.set (p.ownOff off - 16) v }
/-- The packet with bit 0 of a parameter byte set or cleared (DESIGN CHOICE, log 10). -/
def Pkt.fixBit (p : Pkt) (off : Nat) (b : Bool) : Pkt :=
  p.fix off (BitVec.ofNat 8 (if b then setBit (p.u8 (p.ownOff off)) 0 else clrBit (p.u8 (p.ownOff off)) 0))

/-- The 16 header bytes of a packet (R37), PLEN as its parameters give it. -/
def pktHeader (op : Nat) (p : Pkt) : List Byte :=
  leBytes 2 op ++ [p.flags, BitVec.ofNat 8 p.ring] ++ leBytes 4 p.seq.toNat
    ++ leBytes 2 p.node.toNat ++ leBytes 2 p.plen ++ leBytes 4 p.tag.toNat

/-! ### Status codes (R59) -/

/-- OK -/ abbrev stOk : Nat := 0x0000
/-- ACCEPTED -/ abbrev stAccepted : Nat := 0x0001
/-- BAD_OPCODE -/ abbrev stBadOpcode : Nat := 0x0010
/-- BAD_PARAM -/ abbrev stBadParam : Nat := 0x0011
/-- BAD_LENGTH -/ abbrev stBadLength : Nat := 0x0012
/-- BAD_RING -/ abbrev stBadRing : Nat := 0x0013
/-- SEQ_GAP -/ abbrev stSeqGap : Nat := 0x0014
/-- WRONG_STATE -/ abbrev stWrongState : Nat := 0x0020
/-- BUSY -/ abbrev stBusy : Nat := 0x0021
/-- LOCKED -/ abbrev stLocked : Nat := 0x0022
/-- NOT_AUTH -/ abbrev stNotAuth : Nat := 0x0023
/-- MEM_FAULT -/ abbrev stMemFault : Nat := 0x0030
/-- NVM_FAULT -/ abbrev stNvmFault : Nat := 0x0031
/-- CHECK_FAIL -/ abbrev stCheckFail : Nat := 0x0032
/-- ABORT_RESET -/ abbrev stAbortReset : Nat := 0x0040
/-- ABORT_THERMAL -/ abbrev stAbortThermal : Nat := 0x0041
/-- ABORT_HOST -/ abbrev stAbortHost : Nat := 0x0042
/-- ABORT_POWER -/ abbrev stAbortPower : Nat := 0x0043
/-- REFUSED -/ abbrev stRefused : Nat := 0x0050
/-- TIMEOUT -/ abbrev stTimeout : Nat := 0x0051

end Sys2Proof
end

