-- ==== Sys2Proof/Config.lean ====
section
/-! DEFINITION. What is fixed when one engine is made or ordered, and the values the manual leaves
open. Each opaque constant has no body: no proof can see a value of it. -/

namespace Sys2Proof

/-- The ordering variants (00_scope.md R1 to R3). -/
inductive Variant where
  | aq
  | lq
  deriving DecidableEq, Repr

/-- The factory serial number (02_command_model.md IDENTIFY): not in the manual. DESIGN CHOICE, log 3. -/
opaque Config.serial : BitVec 64

/-- The die-stack stepping, from 1 (IDENTIFY): not in the manual. DESIGN CHOICE, log 3. -/
opaque Config.stepping : Byte

/-- The n-th free value: what the manual leaves open on each use (the nonce NE of R360, for one).
DESIGN CHOICE, log 3. -/
opaque Config.freeWord : Nat → Word

/-- The Aedval service key of slot 0 (16_journal_recovery_firmware.md R359), as 16 bytes. DESIGN CHOICE, log 3. -/
opaque Config.serviceKey : Nat → Byte

/-- The Aedval public key held in factory data (R356): the two coordinates. DESIGN CHOICE, log 3. -/
opaque Config.publicKeyX : Nat
/-- See `Config.publicKeyX`. -/
opaque Config.publicKeyY : Nat

/-- A byte of factory data (01_architecture.md R33), by MRAM address. DESIGN CHOICE, log 3. -/
opaque Config.factoryByte : Nat → Byte

/-- An instruction or data byte of the firmware image at delivery, by MRAM address. DESIGN CHOICE, log 3. -/
opaque Config.imageByte : Nat → Byte

/-- Where the PRBS13 of a training sequence begins (07_plokam_link.md R167): not in the manual. DESIGN CHOICE, log 3. -/
opaque Config.prbsStart : BitVec 13

/-- The 21 entries of the factory table of the bandgap correction, in LSB, from -40 degrees C on in steps of 10
(14_thermal.md R316): the table's values are not in the manual. DESIGN CHOICE, log 3. -/
opaque Config.bandgapTable : Nat → Int

/-- The 21 entries of the factory table of the sleep-timer correction, in ppm (R316). DESIGN CHOICE, log 3. -/
opaque Config.sleepTimerTable : Nat → Int

end Sys2Proof
end

