-- ==== Sys2Proof/Machine/State.lean ====
section
/-! DEFINITION. The state of the engine, as plain data: one structure per chapter of the spec, and
`State.reset`, the engine at the release of a VAON power-on reset. INVENTORY.md lists every piece
with its rule. A table lists only what differs from its default (DESIGN CHOICE, log 1). -/

namespace Sys2Proof.Machine

/-- Why the block would stop with a fault. The spec gives this block no fault that stops it: every
failure it names has an effect (a status, an event, a cause, a substitution), so no meaning of this
model raises this one. Safe. -/
inductive Fault where
  | noSuchFault
  deriving DecidableEq, Repr

/-- Why a command is refused. -/
inductive Refusal where
  /-- Raised by an arm of Machine/Dispatch.lean whose command has no meaning yet. Safe. -/
  | notModelled (mnemonic : String)
  deriving DecidableEq, Repr

/-! ### Command packets, rings and classes (02_command_model.md) -/

/-- One ring's configuration (R48, R49). -/
structure RingCfg where
  cls     : Nat := 0
  advance : Bool := false
  depth   : Nat := 0
  deriving DecidableEq, Repr

/-- A packet that holds its submission-ring slots (R52): `gap` is the GAP flag of its reply (R50),
`arrived` its place in the order of arrival of both ports. -/
structure Waiting where
  opcode  : Nat
  pkt     : Pkt
  gap     : Bool := false
  arrived : Nat := 0
  deriving DecidableEq, Repr

/-- A reply or event record in an output ring (R54, R56): its bytes, and the submission ring it
concerns. -/
structure Record where
  bytes : List Byte
  src   : Nat
  deriving DecidableEq, Repr

/-- Replies discarded from a reply ring since its last RING_OVERFLOW (R52). -/
structure Lost where
  count : Nat := 0
  first : Nat := 0
  deriving DecidableEq, Repr

/-- A retained reply (R51). -/
structure Kept where
  seq    : Word
  tag    : Word
  opcode : Nat
  bytes  : List Byte
  deriving DecidableEq, Repr

/-- A class-0 packet that has arrived (R58): when, its length, its ring, and whether it has been counted. -/
structure C0Pkt where
  at_     : Nat
  bytes   : Nat
  ring    : Nat
  counted : Bool := false
  deriving DecidableEq, Repr

/-- The class-0 accounting interval (R58). -/
structure C0Interval where
  count   : Nat
  largest : Nat
  first   : Nat
  deriving DecidableEq, Repr

/-- What a multi-step or accepted command is (R58, R413 code A). -/
inductive JobKind where
  | sceneStore (scene : Nat) (lock : Bool) (expect : Option Word)
  | calSweep (tiles : Half) (resume : Bool) (buildId : Word)
  | calCommit (buildId : Word)
  | cvuRun (unit : Nat)
  | bistRun (type target : Nat) (retest : Bool)
  | fwActivate (permanent : Bool)
  deriving DecidableEq, Repr

/-- A command that replied ACCEPTED and has not ended: `step` steps of `steps` are in force. -/
structure Job where
  kind     : JobKind
  opcode   : Nat
  pkt      : Pkt
  jseq     : Word
  step     : Nat := 0
  steps    : Nat := 1
  runCrc   : Word := 0
  retries  : Nat := 0
  writing  : Bool := false
  deriving DecidableEq, Repr

/-- What a held reply waits for (R413 code D). -/
inductive HoldFor where
  | commitTaken
  | fallbackSeam
  | edge (count : Word) (time : BitVec 64)
  deriving DecidableEq, Repr

/-- A command whose single reply is held until the instant its chapter names (R413). -/
structure Held where
  opcode : Nat
  pkt    : Pkt
  jseq   : Word
  gap    : Bool := false
  kind   : HoldFor
  since  : Nat := 0
  armed  : Bool := false
  deriving DecidableEq, Repr

/-- The rings (R48 to R52) and what serves them. `heads` is the slot at which a ring's head stands, and
`written` the lines of the ring pool, poisoned or with an error in them, that have been written since the
memory's books were last brought up to date. -/
structure Cmd where
  rings      : Tab RingCfg := []
  waiting    : List Waiting := []
  arrivals   : Nat := 0
  out        : Tab (List Record) := []
  reserved   : Tab Nat := []
  heads      : Tab Nat := []
  written    : List Nat := []
  lostReply  : Tab Lost := []
  lostEvent  : Tab Nat := []
  expSeq     : Tab (Option Word) := []
  kept       : Tab (List Kept) := []
  subFull    : Bool := false
  eseq       : Word := 0
  unack      : List Word := []
  lastRing   : Tab Nat := []
  picks      : Nat := 0
  c0Seen     : List C0Pkt := []
  c0Open     : Option C0Interval := none
  jobs       : List Job := []
  held       : List Held := []
  sdo        : Option (List Byte) := none
  serving    : Bool := false
  restarted  : Bool := true
  deriving DecidableEq, Repr

/-! ### Parameter space (R60, R61 and every chapter's table) -/

structure Prm where
  live       : Tab Word := []
  shadow     : Tab Word := []
  commit     : Bool := false
  mixWritten : Bool := false
  deriving DecidableEq, Repr

/-! ### Pixel cells, tiles and PWM drive (03_pixel_drive.md) -/

/-- CODE or PENDING of one pixel cell with its mask bit (R62). -/
structure PixCode where
  code : BitVec 10 := 0
  mask : Bool := true
  deriving DecidableEq, Repr

/-- The codes of one row-group as they stand in the scan engine (R70): the sub-frame they serve, the
freeze tag (R206), whether they come from a fallback pass (R114), for a provisional pass its
generation (R193), and the row-group's committed profile before the running check of these codes (R150). -/
structure Ready where
  sub      : Nat
  codes    : List PixCode
  tag      : Nat := 0
  fallback : Bool := false
  gen      : Option Nat := none
  slot     : Nat := 0
  prior    : List Nat := []
  deriving DecidableEq, Repr

/-- One row-group (R67, R70, R147): `slot` is the slot at which its counter last restarted, `started`
that sub-frame's number and `startClk` the instant; `before` the codes that its cells held until then,
whose counter had restarted at `beforeClk`; `token` the number of the last sub-frame whose start token
has passed, `ready` the codes in the scan engine and the tile's code buffer by rising sub-frame, `skips`
the sub-frames in which no load of composed codes is due. `cells = []` says every cell holds CODE 0 and
MASK 1. -/
structure RowGroup where
  slot        : Option Nat := none
  started     : Nat := 0
  startClk    : Nat := 0
  before      : List PixCode := []
  beforeClk   : Nat := 0
  token       : Nat := 0
  ready       : List Ready := []
  pending     : Option Ready := none
  cells       : List PixCode := []
  parityFails : Nat := 0
  skips       : List Nat := []
  deriving DecidableEq, Repr

/-- A tile's reference DAC (R64, R153, R240): off, at half scale, or at full scale. -/
inductive Dac where
  | off
  | half
  | full
  deriving DecidableEq, Repr

/-- Who loads a tile (DRIVE_STATUS LOADER). -/
inductive Loader where
  | own
  | spur
  | held
  | limp
  deriving DecidableEq, Repr

structure Tile where
  dac         : Dac := .off
  dacTrim     : BitVec 8 := 128
  cmpOff      : List (BitVec 6) := []
  loader      : Loader := .own
  late        : Nat := 0
  compSf      : Nat := 0
  trunc       : Nat := 0
  slackMin    : Nat := 0xFFFF
  slackRaised : Bool := false
  weak        : Nat := 0
  lastConf    : Word := 0xFFFFFFFF
  refBad      : Nat := 0
  deriving DecidableEq, Repr

structure Pix where
  groups    : Tab RowGroup := []
  tiles     : Tab Tile := []
  trim      : Tab (BitVec 6) := []
  cflag     : Tab Bool := []
  notch     : BitVec 7 := 0
  vfb       : BitVec 8 := 0
  quiet     : Nat := 0
  forced    : Nat := 0
  wasForced : Bool := true
  fLast     : Nat := 0
  fNow      : List Nat := []
  compRun   : Nat := 0
  compDone  : Bool := false
  deriving DecidableEq, Repr

/-! ### Glare-free shadowing (05_glare_free_shadowing.md) -/

/-- An object context (R121). T_CAP and T_UPD are in us modulo 2^48. -/
structure ObjCtx where
  active   : Bool := false
  canvas   : Bool := false
  static   : Bool := false
  stale    : Bool := false
  depth    : Half := 0
  x        : Word := 0
  y        : Word := 0
  halfW    : Word := 0
  halfH    : Word := 0
  vx       : Half := 0
  vy       : Half := 0
  ax       : Half := 0
  ay       : Half := 0
  tCap     : BitVec 48 := 0
  margin   : Half := 0
  soft     : Half := 0
  radius   : Half := 0
  ttl      : Half := 0
  grow     : Half := 0
  timeout  : Half := 0
  growMax  : Half := 0
  objTag   : Word := 0
  updCount : Half := 0
  tUpd     : BitVec 48 := 0
  deriving DecidableEq, Repr

/-- The FORCE_LEVEL state (R138): no tile and level 0xFFFF when none applies. -/
structure Force where
  tiles : Half := 0
  level : Half := 0xFFFF
  start : BitVec 48 := 0
  hold  : Half := 0
  deriving DecidableEq, Repr

structure Shd where
  ctx   : Tab ObjCtx := []
  force : Force := {}
  deriving DecidableEq, Repr

/-! ### Beam composition (04_composition.md) -/

/-- An overlay context (R102), as its 16 words. -/
structure Overlay where
  ctrl  : Half := 0
  level : Half := 0
  addr  : Word := 0
  w     : Half := 0
  h     : Half := 0
  pitch : Half := 0
  orgX  : Word := 0
  orgY  : Word := 0
  coef  : List Word := []
  deriving DecidableEq, Repr

/-- A pass in progress, with what it sampled when it started (R13, R20, R24, R95, R105): the
row-group, the sub-frame it serves and its index in its frame, the slot, whether it composes in the
mode of fallback, whether it composes from the seam set to come with that set's generation (R193),
and the same of the second sub-frame of a pair; `serves` says which of the two it still serves. `tS`
is the slot start in DEVTIME ns, `slotClk` on the model's clock; `newFaults` are the pixels whose fault
has been confirmed since it started (R240). -/
structure Pass where
  g         : Nat
  sub       : Nat
  index     : Nat
  slot      : Nat
  paired    : Bool := false
  index2    : Nat := 0
  slot2     : Nat := 0
  serves    : Bool := true
  serves2   : Bool := false
  fallback  : Bool := false
  fallback2 : Bool := false
  prov      : Bool := false
  prov2     : Bool := false
  gen       : Option Nat := none
  gen2      : Option Nat := none
  subs      : Nat := 16
  pwmPs     : Nat := 0
  tS        : Nat := 0
  tS2       : Nat := 0
  slotClk   : Nat := 0
  tag       : Nat := 0
  dx        : Int := 0
  dy        : Int := 0
  ctx       : Tab ObjCtx := []
  force     : Force := {}
  crest     : List Nat := []
  lostOvl   : List Nat := []
  newFaults : List Nat := []
  deriving DecidableEq, Repr

/-- A start token whose pass waits for the tile's previous pass (R20): the row-group, the sub-frame, and
the start of its slot in DEVTIME ns and on the model's clock. -/
structure Token where
  g       : Nat
  sub     : Nat
  tS      : Nat
  slotClk : Nat
  deriving DecidableEq, Repr

/-- A directory entry of a scene slot (R99). -/
structure SceneEntry where
  valid : Bool := false
  crc   : Word := 0
  deriving DecidableEq, Repr

/-- The stages of the limp loader (R117). -/
inductive LimpStage where
  | idle
  | reading
  | ready
  | loading
  | done
  deriving DecidableEq, Repr

/-- The limp loader (R115 to R117): the tiles that it loads (all, or those that are to hold limp codes,
R18), those whose write port failed, what it latched, the codes it formed, the row-groups loaded. -/
structure LimpLoader where
  stage      : LimpStage := .idle
  tiles      : Nat := 65535
  failed     : List Nat := []
  winCtrl    : Word := 0
  level      : Word := 0
  gains      : List Word := []
  codes      : Tab (List PixCode) := []
  loaded     : List Nat := []
  substLines : Nat := 0
  deriving DecidableEq, Repr

/-- The fallback-entry check (R114): sub-frames still to end, row-groups loaded from fallback
passes, tiles that have passed since. -/
structure FbCheck where
  running : Bool := false
  endSub  : Nat := 0
  loaded  : List Nat := []
  passed  : Bool := false
  deep    : Bool := false
  deriving DecidableEq, Repr

structure Comp where
  passes     : Tab Pass := []
  tokens     : List Token := []
  lutLive    : Tab Half := []
  lutShadow  : Tab Half := []
  lutNext    : Tab Half := []
  lutCopying : Bool := false
  lutWaiting : List Waiting := []
  mixK       : Nat := 0
  weight     : Nat := 0
  fadeOpen   : Bool := false
  bendX      : Int := 0
  bendY      : Int := 0
  shiftX     : Int := 0
  shiftY     : Int := 0
  ovlStaged  : Tab Overlay := []
  ovlLive    : Tab Overlay := []
  ovlLost    : List Nat := []
  limp       : LimpLoader := {}
  fbCheck    : FbCheck := {}
  substSeen  : List Nat := []
  compPix    : Nat := 0
  compPixNow : Nat := 0
  deriving DecidableEq, Repr

/-! ### Saddle (06_saddle_current_budget.md) -/

/-- What Saddle knows of a row-group (R141, R150): the demand profile and the class sums of its most
recent pass, its total, and its committed profile. Every value is a sum over pixels of 224 + TRIM;
the tile's REF + 1 and the model gain multiply it where it is used (DEDUCED, log 20). -/
structure Profile where
  demand    : List Nat := []
  sumB      : Nat := 0
  sumO      : Nat := 0
  sumP      : Nat := 0
  total     : Nat := 0
  committed : List Nat := []
  deriving DecidableEq, Repr

/-- A plan (R145 to R150): the sub-frame that it is made for, the slots (4,096 where none is
planned), the levels, K and the trip's halving as latched, the committed window sums of the device
and of each tile, each row-group's contribution to them, and the bounds of the running check. -/
structure Plan where
  sub       : Nat := 0
  slots     : List Nat := []
  zD        : Nat := 12288
  zT        : List Nat := []
  k         : Nat := 4096
  contrib   : List (List Nat) := []
  bound     : Nat := 0
  tileBound : List Nat := []
  deriving DecidableEq, Repr

structure Sad where
  profiles    : Tab Profile := []
  cur         : Plan := {}
  next        : Option Plan := none
  k           : Nat := 4096
  kRun        : Nat := 0
  kRaised     : Bool := false
  kSkip       : Bool := false
  homePlan    : Bool := true
  inHome      : Bool := true
  peakUnsc    : Nat := 0
  peakPred    : Nat := 0
  tilePeak    : List Nat := []
  tfLat       : Nat := 4096
  bEff        : Nat := 8000
  target      : Int := 7600
  zMin        : Nat := 12288
  headMin     : Int := 32767
  clamps      : Nat := 0
  slews       : Nat := 0
  clampFrame  : Nat := 0
  limitRaised : Bool := false
  limiting    : Bool := false
  prioScaled  : Bool := false
  winLast     : List Nat := []
  tileLast    : List Nat := []
  measMean    : Nat := 0
  measPeak    : Nat := 0
  tripHeld    : Bool := false
  tripRelease : Bool := false
  tripClear   : Option Nat := none
  oldBudget   : Option Nat := none
  oldEnd      : Option Nat := none
  replayGov   : Bool := false
  deriving DecidableEq, Repr

/-! ### The Plokam Link (07_plokam_link.md) -/

inductive Stage where
  | detect
  | train
  | lock
  | caps
  | active
  deriving DecidableEq, Repr

inductive SleepL where
  | l0
  | l1
  | l2
  deriving DecidableEq, Repr

/-- A stretch of a return line (R160, R162, R167, R180): `n` blocks of one type and payload, the first with its
SOP, BSEQ, state of the scrambler and use of the precoder; `n` training units with the TRAIN payload and the BSEQ of
the first; or so many symbols of PRBS13. -/
inductive Burst where
  | blocks (n typ : Nat) (sop : Bool) (payload : List Byte) (bseq : Nat) (lfsr : BitVec 31) (pre : Bool)
  | units (n : Nat) (payload : List Byte) (bseq : Nat)
  | prbs (symbols : Nat)
  deriving DecidableEq, Repr

/-- A lane. `fresh`: the next forward block seeds the scrambler (R161). `retNext`: the ps from which the return line
is free. `retAsked`: the return trains because a retrain was asked for, not out of L2. `sent`: what the return
has put on the line up to the last link command, and since the one before it. -/
structure LaneSt where
  stage       : Stage := .detect
  fwd         : SleepL := .l0
  ret         : SleepL := .l0
  phyOn       : Bool := true
  term        : Bool := false
  backoff     : Nat := 0
  backoffRun  : Bool := false
  tries       : Nat := 0
  trainStart  : Nat := 0
  activeSince : Option Nat := none
  everActive  : Bool := false
  everTrained : Bool := false
  rxReady     : Bool := false
  hostReady   : Nat := 0
  retReady    : Bool := false
  retTrain    : Bool := false
  retAsked    : Bool := false
  retNext     : Nat := 0
  preFwd      : Bool := false
  preRet      : Bool := false
  capsRx      : Bool := false
  capsTx      : Bool := false
  hostFlags   : Byte := 0
  validRun    : Nat := 0
  badWindow   : List Bool := []
  bseq        : Option Nat := none
  lfsr        : BitVec 31 := 0x7FFFFFFF
  fresh       : Bool := true
  retBseq     : Nat := 0
  retLfsr     : BitVec 31 := 0x7FFFFFFF
  lagRun      : Nat := 0
  ctle        : Nat := 8
  offsets     : List Nat := [32, 32, 32]
  thr         : List Int := [0, 0, 0]
  taps        : List Int := [0, 0, 0]
  rotation    : Nat := 0
  frozenLast  : Bool := false
  frozen      : Nat := 0
  rich        : Nat := 0
  trans       : Nat := 0
  eyeH        : List Nat := [0, 0, 0]
  eyeW        : List Nat := [0, 0, 0]
  eyeAt       : Option Nat := none
  lowScans    : List Nat := [0, 0, 0]
  inService   : Bool := false
  reseatReq   : Bool := false
  reseatLeft  : Nat := 0
  reseatTries : Nat := 0
  retrainReq  : Bool := false
  retrainAt   : Nat := 0
  noAsk       : Bool := false
  eyeLowAt    : Option Nat := none
  retrains    : Nat := 0
  cause       : Nat := 0
  retIdleAt   : Nat := 0
  sent        : List Burst := []
  deriving DecidableEq, Repr

/-- A copy in the deskew buffer of mirror mode (R174): its BSEQ and bytes, the lane it came on, the
block times since it came, and whether it has been selected. -/
structure Copy where
  lane  : Lane
  bseq  : Nat
  bytes : List Byte
  age   : Nat := 0
  used  : Bool := false
  deriving DecidableEq, Repr

/-- The link: its lanes, the bytes of the packet and of the video line being rebuilt (R166), and the
deskew buffer. -/
structure Link where
  laneA    : LaneSt := {}
  laneB    : LaneSt := {}
  cmd      : Option (List Byte) := none
  line     : Option (List Byte) := none
  recent   : List Copy := []
  lastBseq : Option Nat := none
  deriving DecidableEq, Repr

/-! ### Frames, SYNC_IN and the frame seam (08_frame_timing_scanout.md) -/

inductive SyncState where
  | free
  | acquiring
  | locked
  | holdover
  | switching
  deriving DecidableEq, Repr

/-- A timing (R185): the fields of FRAME_TIMING, SYNC_NOM and SYNC_PHASE in force, and the sync
period in ps that the frame grid follows. -/
structure Timing where
  nCode   : Nat := 2
  mulCode : Nat := 0
  nom     : Nat := 120000
  phase   : Half := 0
  syncPs  : Nat := 8333333333
  deriving DecidableEq, Repr

/-- A timing change in progress (R195, R196): the timing to come, and once fixed the seam S is the
next latch instant, with the frame's old sub-frames, and the bridge sub-frame's length. -/
structure Change where
  next     : Timing
  bridge   : Bool := false
  fixed    : Bool := false
  sAt      : Nat := 0
  lNew     : Nat := 0
  oldSubs  : Nat := 0
  bridgePs : Nat := 0
  inBridge : Bool := false
  deriving DecidableEq, Repr

/-- The seam set formed at a commit cutoff (R191). -/
structure SeamSet where
  formed     : Nat := 0
  commit     : Bool := false
  prm        : Tab Word := []
  ovl        : Tab Overlay := []
  lut        : Tab Half := []
  mixRestart : Bool := false
  swap       : Bool := false
  ret        : Bool := false
  deriving DecidableEq, Repr

/-- Where a scheduled return leads (R140, R241). -/
inductive Return where
  | toNormal
  | limpToFallback
  | darkExit
  deriving DecidableEq, Repr

/-- A frame in assembly (R200, R201). -/
structure Assembling where
  frame  : Word
  lines  : List Nat := []
  expect : Option Word := none
  deriving DecidableEq, Repr

/-- A tile's freeze history (R206, R207). -/
structure Freeze where
  sig     : Word := 0
  equal   : Nat := 0
  tag     : Nat := 0
  loaded  : List Nat := []
  loads   : List (Nat × Ready) := []
  frozen  : Bool := false
  known   : Bool := false
  deriving DecidableEq, Repr

/-- A recorded SYNC_IN edge (15_power_states.md R336). -/
structure Edge where
  count : Word
  time  : BitVec 64
  deriving DecidableEq, Repr

structure Frm where
  running     : Bool := false
  state       : SyncState := .acquiring
  acquired    : Bool := false
  timing      : Timing := {}
  change      : Option Change := none
  frame       : Word := 0
  firstSeam   : Bool := false
  index       : Nat := 0
  sub         : Nat := 0
  subStart    : Nat := 0
  litEnd      : Nat := 0
  seamsSince  : Nat := 0
  latchTime   : BitVec 64 := 0
  prevLatch   : BitVec 64 := 0
  latchClk    : Nat := 0
  commitFrame : Word := 0xFFFFFFFF
  lastEdge    : Option Nat := none
  edgeRun     : Nat := 0
  missed      : Nat := 0
  windowHit   : Bool := false
  tSyncNs     : Nat := 0
  phaseErr    : Int := 0
  holdStart   : Option Nat := none
  pullIn      : Int := 0
  syncOut     : Option Nat := none
  seam        : Option SeamSet := none
  gen         : Nat := 0
  ret         : Option Return := none
  retAt       : Nat := 0
  retArmed    : Bool := false
  seamRepeats : Nat := 0
  asm         : Option Assembling := none
  lastFrame   : Option Word := none
  ready       : Option (Nat × Word) := none
  copying     : Option (Nat × Word × Nat) := none
  front       : Nat := 0
  lastSwap    : Option Nat := none
  staleStart  : Option Nat := none
  dropRaised  : Bool := false
  inCrc       : Word := 0
  inExpect    : Word := 0
  inFrame     : Word := 0
  inResult    : Nat := 0
  freeze      : Tab Freeze := []
  sigFrame    : Word := 0
  armDelay    : Nat := 2
  deriving DecidableEq, Repr

/-! ### String channels and Crest (09_strings_crest.md) -/

/-- A position's level field and source (STR_LEVEL ENTRY). -/
structure StrEntry where
  level : Nat := 0
  src   : Nat := 0
  deriving DecidableEq, Repr

/-- A position of a string channel. `lit` and `before`: the steps at which its switch opens and closes again, of the
interval that its start step begins in this string period and of the one before; the same step twice where it stays
open. -/
structure Position where
  entry    : StrEntry := {}
  applied  : Nat := 0
  residue  : Int := 0
  opened   : Bool := false
  shorted  : Bool := false
  switch   : Bool := false
  lowRun   : Nat := 0
  highRun  : Nat := 0
  vOpen    : Nat := 0xFFFF
  sinceOpen   : Nat := 0
  sinceClosed : Nat := 0
  lit      : Option (Nat × Nat) := none
  before   : Option (Nat × Nat) := none
  raised   : List Nat := []
  deriving DecidableEq, Repr

structure Channel where
  enable   : Bool := false
  hold     : Bool := false
  shortByp : Bool := false
  count    : Nat := 1
  ntc      : Nat := 0
  iSet     : Nat := 0
  fsMa     : Nat := 100
  failLvl  : Nat := 0
  drStart  : Nat := 85
  drSlope  : Nat := 164
  drFloor  : Nat := 1024
  en       : Bool := false
  fbCode   : Nat := 0
  d        : Nat := 0
  allOpen  : Bool := false
  failed   : Bool := false
  failUsed : Bool := false
  pos      : Tab Position := []
  nextCfg  : Option (List Nat) := none
  nextLvl  : Tab StrEntry := []
  seamLvl  : Tab StrEntry := []
  allOpenRaised : Bool := false
  deriving DecidableEq, Repr

/-- A Crest step (R225). -/
structure Step where
  op    : Nat := 0
  flags : Nat := 0
  a     : Nat := 0
  b     : Nat := 0
  deriving DecidableEq, Repr

inductive CrestState where
  | stopped
  | running
  | paused
  | ended
  deriving DecidableEq, Repr

structure Crest where
  prog   : Tab Step := []
  state  : CrestState := .stopped
  step   : Nat := 0
  c      : Nat := 0
  m      : Half := 0
  c0     : Nat := 0
  t      : Nat := 0
  timing : Bool := false
  seams  : Nat := 0
  loops  : Tab (Option Nat) := []
  ticks  : Nat := 0
  tickAt : Nat := 0
  left   : Nat := 0
  deriving DecidableEq, Repr

/-- A CREST_CONTROL waiting for the next latch instant (SEAM). -/
structure CrestAct where
  engines : Byte
  action  : Nat
  init    : Bool
  level   : Nat
  mask    : Half
  deriving DecidableEq, Repr

structure Str where
  chan      : Tab Channel := []
  crest     : Tab Crest := []
  seamActs  : List CrestAct := []
  shut      : Bool := false
  startClk  : Nat := 0
  deriving DecidableEq, Repr

/-! ### Diagnostics and safe states (10_pixel_diagnostics_safe_state.md) -/

structure Diag where
  causes     : Half := 0x4000
  latch      : Half := 0
  safe       : Nat := 4
  inReset    : Bool := true
  safeTwo    : Option Nat := none
  degradedHold : Bool := false
  rowBad     : Tab Bool := []
  litSeen    : Tab Bool := []
  pfTimes    : List Nat := []
  clWin      : Tab (Option Nat) := []
  clTile     : Tab (Option Nat) := []
  clockAt    : Nat := 0
  heldCauses : Half := 0
  deriving DecidableEq, Repr

/-! ### Calibration (11_calibration.md) -/

structure Sweep where
  readings : List Nat := []
  open_    : Bool := false
  spoiled  : Bool := false
  median   : Option Nat := none
  resMax   : Nat := 0xFFFF
  resRms   : Nat := 0xFFFF
  valid    : Nat := 0
  lostUp   : Bool := false
  deriving DecidableEq, Repr

/-- Where step 2 of a CAL_SWEEP stands (R265): it waits for the next sweep, measures over it, or has
its figures. -/
inductive Measure where
  | off
  | armed
  | running
  | done
  deriving DecidableEq, Repr

structure Cal where
  copy     : Option Nat := none
  gen      : Word := 0
  buildId  : Option Word := none
  built    : Bool := false
  sweeps   : Tab Sweep := []
  phase    : Measure := .off
  measure  : Tab Sweep := []
  seedA    : Option (List Nat) := none
  seedB    : Option (List Nat) := none
  deriving DecidableEq, Repr

/-! ### Memory integrity (12_memory_integrity.md) -/

/-- An error-table entry (R280): addresses, codes and the order of first finding. -/
structure ErrEntry where
  addr   : Nat
  region : Nat
  kind   : Nat
  req    : Nat
  source : Nat
  count  : Nat
  time   : Nat
  deriving DecidableEq, Repr

/-- A CVU run (R286). -/
structure CvuRun where
  mode   : Nat
  elem   : Nat
  addr   : Nat
  stride : Nat
  count  : Nat
  expect : Word
  dest   : Nat
  deriving DecidableEq, Repr

structure Cvu where
  width  : Nat := 32
  poly   : Word := 0x04C11DB7
  init   : Word := 0xFFFFFFFF
  refIn  : Bool := true
  refOut : Bool := true
  xorOut : Word := 0xFFFFFFFF
  run    : Option CvuRun := none
  deriving DecidableEq, Repr

/-- An MRAM line write in progress (R284): the line, and the writes that have failed to verify. -/
structure LineWrite where
  addr  : Nat
  bytes : List Byte
  fails : Nat := 0
  deriving DecidableEq, Repr

structure Mem where
  sram      : List Host.Cell := []
  mram      : List Host.Cell := []
  poison    : List Nat := []
  errs      : Upsets := []
  table     : List ErrEntry := []
  repairQ   : List Nat := []
  sramPos   : Nat := 0
  mramPos   : Nat := 0
  sramStart : Nat := 0
  mramStart : Nat := 0
  sramLap   : Nat := 0
  mramLap   : Nat := 0
  refreshed : List Nat := []
  toRefresh : List Nat := []
  cvu       : Tab Cvu := []
  writes    : List LineWrite := []
  deriving DecidableEq, Repr

/-! ### Self-test (13_self_test.md) -/

structure TestRes where
  state    : Nat := 0
  complete : Bool := false
  sig      : Word := 0
  expected : Word := 0
  patterns : Nat := 0
  seg      : Nat := 0
  aborts   : Nat := 0
  fails    : Nat := 0
  lastPass : Word := 0
  starved  : Bool := false
  deriving DecidableEq, Repr

inductive SpurState where
  | idle
  | underTest
  | testing (tile : Nat)
  | serving (tile : Nat)
  | unusable
  deriving DecidableEq, Repr

/-- A handover of Spur waiting for a seam (R297, SPUR_ASSIGN). -/
inductive SpurMove where
  | take (tile : Nat) (why : Nat)
  | giveBack (why : Nat)
  deriving DecidableEq, Repr

structure Bist where
  results   : Tab TestRes := []
  turn      : Nat := 0
  slice     : Option (Nat × Nat) := none
  lastEnd   : Option Nat := none
  cycleAt   : Nat := 0
  cycleMs   : Nat := 0
  migrating : Option Nat := none
  marched   : Option Nat := none
  spur      : SpurState := .idle
  move      : Option SpurMove := none
  movedIn   : Bool := false
  deriving DecidableEq, Repr

/-! ### Temperature (14_thermal.md); temperatures in 0.1 degrees C -/

structure Sensor where
  reading  : Int := 0
  value    : Int := 0
  failed   : Bool := false
  check    : Nat := 0
  hist     : List (Nat × Int) := []
  devSince : Option Nat := none
  okSince  : Option Nat := none
  failAt   : Nat := 0
  vLast    : Int := 0
  wasHot   : Bool := false
  fresh    : Bool := true
  deriving DecidableEq, Repr

structure Thm where
  sensors   : Tab Sensor := []
  ledEst    : Tab Int := []
  tTh       : Int := 0
  hot       : Nat := 0
  tHist     : List (Nat × Int) := []
  rate      : Int := 0
  tPred     : Int := 0
  pre       : Bool := false
  warned    : Bool := false
  tf        : Nat := 4096
  tfTarget  : Nat := 4096
  level     : Nat := 0
  peak      : Int := -32768
  inhibit   : Bool := false
  jInhibit  : Bool := false
  ntcTab    : Option (List Int) := none
  ntcCode   : Tab Nat := []
  bandgap   : Int := 0
  sleepPpm  : Int := 0
  started   : Bool := false
  startedAt : Nat := 0
  coolSince : Option Nat := none
  multiSev3 : Bool := false
  factoryBad : Bool := false
  deriving DecidableEq, Repr

/-! ### Power states and time (15_power_states.md) -/

inductive Power where
  | active
  | idle
  | standby
  | dormant
  deriving DecidableEq, Repr

inductive TimeState where
  | unset
  | set
  | estimated
  | invalid
  deriving DecidableEq, Repr

/-- Where the engine stands between reset and service (R325, R31). -/
inductive Boot where
  | held
  | regulator
  | oscillator
  | memory
  | logic
  | trims
  | firstSeam
  | up
  deriving DecidableEq, Repr

/-- A sleep negotiation (R330 to R332): `block` is the block at hand, 9 once all have quiesced and the
reply is formed; `done` the blocks quiesced, `since` when the block at hand was reached, `before` the
state that it began in. -/
structure Nego where
  target  : Nat
  force   : Bool
  wakeAct : Bool
  wakeEn  : Nat
  burst   : Bool
  timerMs : Word
  block   : Nat := 1
  done    : List Nat := []
  since   : Nat := 0
  opcode  : Nat
  pkt     : Pkt
  jseq    : Word
  gap     : Bool
  before  : Nat := 0
  deriving DecidableEq, Repr

/-- How the SRAM is supplied (R322): from VCORE, from the retention regulator at 0.55 V, or not at all. -/
inductive SramSupply where
  | core
  | retained
  | off
  deriving DecidableEq, Repr

/-- The body bias of the logic wells (R322): 0 V, 0.3 V in reverse, or its generators off. -/
inductive Bias where
  | zero
  | reversed
  | off
  deriving DecidableEq, Repr

/-- The internal generators (R322): the PHY LDO's output in mV, the SRAM's supply, the body bias, and whether
the memory-assist generator runs. -/
structure Gens where
  phyMv  : Nat := 0
  sram   : SramSupply := .off
  bias   : Bias := .off
  assist : Bool := false
  deriving DecidableEq, Repr

structure Pwr where
  gens      : Gens := {}
  state     : Power := .active
  boot      : Boot := .regulator
  wake      : Nat := 0
  retries   : Tab Nat := []
  stageTry  : Nat := 0
  supply    : Option (Rail × Nat) := none
  supplyMs  : Option Nat := none
  resetLow  : Bool := false
  dormExit  : Bool := false
  devtime   : BitVec 64 := 0
  time      : TimeState := .unset
  boundUs   : Nat := 0
  lastSet   : BitVec 64 := 0
  lastStep  : Int := 0
  edges     : List Edge := []
  syncCount : Word := 0
  tickNs    : Nat := 1000000
  tEntry    : Nat := 1000000
  ppmEntry  : Int := 0
  ticks     : Option Nat := none
  dormMs    : Nat := 0
  oscLost   : Option Nat := none
  armed     : Nat := 0
  burst     : Bool := false
  timerMs   : Word := 0
  wakeAct   : Bool := false
  wakeAt    : Option Nat := none
  entered   : Nat := 0
  sleepMs   : Nat := 0
  lastSleep : Nat := 0xFF
  refusals  : Nat := 0
  lastBlock : Nat := 0
  activeNs  : Nat := 0
  nego      : Option Nego := none
  linkOff   : Bool := false
  pixOff    : Bool := false
  trimming  : Bool := false
  trimsAt   : Option Nat := none
  fault     : Word := 0
  failedUps : Bool := false
  lit       : Tab Nat := []
  charge    : Tab Nat := []
  stressAt  : Nat := 0
  deriving DecidableEq, Repr

/-! ### Cairn, recovery, firmware, sessions (16_journal_recovery_firmware.md) -/

/-- A journal entry (R344), less its CHECK. -/
structure JEntry where
  jseq    : Word
  opcode  : Half := 0
  ring    : Byte := 0xFF
  kind    : Byte := 0
  seq     : Word := 0
  tag     : Word := 0
  state   : Nat := 0
  status  : Half := 0
  step    : Half := 0
  steps   : Half := 0
  time    : BitVec 48 := 0
  count   : Half := 0
  digest  : Word := 0
  result  : Word := 0
  tAccept : BitVec 48 := 0
  frame   : Word := 0
  note    : BitVec 64 := 0
  deriving DecidableEq, Repr

/-- A journal line waiting for MRAM (R348). -/
structure JLine where
  jseq    : Word
  durable : Bool
  since   : Nat
  fails   : Nat := 0
  deriving DecidableEq, Repr

/-- An open class-0 window (R347). -/
structure Window where
  port   : Port
  ring   : Nat
  jseq   : Word
  crc    : Word
  opened : Nat
  lenMs  : Nat
  deriving DecidableEq, Repr

structure Jrn where
  newest   : Option Word := none
  cache    : List JEntry := []
  lines    : List JLine := []
  windows  : List Window := []
  slow     : Bool := false
  restarts : List (Nat × Nat) := []
  lastRestart : Option Nat := none
  holdTill : Option Nat := none
  restartCause : Nat := 6
  resetLevel : Nat := 2
  resetTime : BitVec 64 := 0
  recover  : Bool := false
  abortPower : Bool := false
  pipeBusy : Bool := false
  deriving DecidableEq, Repr

inductive SlotState where
  | empty
  | staging
  | staged
  | active
  | trial
  deriving DecidableEq, Repr

/-- A session (R360). -/
structure Session where
  key   : Nat
  rings : BitVec 64
  ks    : List Byte
  ctr   : Option Word := none
  fails : Nat := 0
  deriving DecidableEq, Repr

structure Fw where
  selfCheck : Bool := false
  noImage   : Bool := false
  starting  : Bool := false
  previous  : Nat := 0
  permanent : Bool := false
  sessions  : Tab (Option Session) := []
  deriving DecidableEq, Repr

/-! ### Groups (17_group_operation.md) -/

/-- An entry of the timed queue (R368). -/
structure Timed where
  id       : Nat
  strict   : Bool
  time     : BitVec 64
  opcode   : Nat
  pkt      : Pkt
  jseq     : Word
  released : Bool := false
  atClk    : Nat := 0
  late     : Bool := false
  deriving DecidableEq, Repr

structure Grp where
  node   : BitVec 14 := 16383
  groups : BitVec 64 := 0
  queue  : List Timed := []
  deriving DecidableEq, Repr

/-- What the configuration region still holds of the marks, the bank roles and the slot states while the writes
of newer ones are held (R314). -/
structure Stored where
  unusable : List Nat
  bankBad  : List Nat
  spare    : Option Nat
  slotA    : SlotState
  slotB    : SlotState
  deriving DecidableEq, Repr

/-! ### What survives a full reset (MRAM records and the always-on register), and the ordering variant
(R1; DESIGN CHOICE, log 4: the engine of `State.reset` is an AQ) -/

structure Nvm where
  variant   : Variant := .aq
  scenes    : Tab SceneEntry := []
  sceneQ    : SceneEntry := {}
  slotQ     : Bool := false
  locked    : Bool := false
  remap     : Tab (Option Nat) := []
  remapTwin : Tab (Option Nat) := []
  spares    : Tab Nat := []
  bankMap   : Tab Nat := []
  bankTwin  : Tab Nat := []
  held      : Option Stored := none
  spare     : Option Nat := some 23
  bankBad   : List Nat := []
  unusable  : List Nat := []
  thermal   : Option (List Word) := none
  ntc       : Option (List Int) := none
  journal   : Tab JEntry := []
  slotA     : SlotState := .active
  slotB     : SlotState := .empty
  slotTwin  : SlotState × SlotState := (.active, .empty)
  stageHdr  : Option (List Byte) := none
  stageNext : Nat := 0
  running   : Nat := 0
  floor     : Word := 0
  require   : Word := 0
  keys      : Tab (Option (List Byte)) := []
  node      : Option (BitVec 14) := none
  groups    : BitVec 64 := 0
  lit       : Tab Nat := []
  charge    : Tab Nat := []
  stbyCount : Nat := 0
  dormCount : Nat := 0
  deriving DecidableEq, Repr

/-- The engine. `clk` and `free` are the model's own (DESIGN CHOICE, logs 2 and 3). -/
structure State where
  pending : List Instr := []
  clk     : Nat := 0
  free    : Nat := 0
  jtag    : BitVec 5 := 2
  boundary : BitVec 66 := 0
  tapHold : Bool := false
  cmd     : Cmd := {}
  prm     : Prm := {}
  pix     : Pix := {}
  comp    : Comp := {}
  shd     : Shd := {}
  sad     : Sad := {}
  link    : Link := {}
  frm     : Frm := {}
  str     : Str := {}
  diag    : Diag := {}
  cal     : Cal := {}
  mem     : Mem := {}
  bist    : Bist := {}
  thm     : Thm := {}
  pwr     : Pwr := {}
  jrn     : Jrn := {}
  fw      : Fw := {}
  grp     : Grp := {}
  nvm     : Nvm := {}
  deriving DecidableEq, Repr

/-- The engine at the release of a VAON power-on reset: every table at its default, every field at
the value INVENTORY.md lists for it, the queue empty. -/
def State.reset : State := {}

end Sys2Proof.Machine
end

