-- ==== Sys2Proof/Machine/Tab.lean ====
section
/-! DEFINITION. Sparse tables in canonical form: the numbers rise strictly and no entry equals what
an unlisted number reads as, so that equal tables are equal data (DESIGN CHOICE, log 1). -/

namespace Sys2Proof

/-- The value of a table at `k`: the listed one, else the default. -/
def tget {α : Type} (d : Nat → α) : Tab α → Nat → α
  | [], k => d k
  | (i, v) :: r, k => if i = k then v else tget d r k

/-- Write a value that differs from the default, keeping the numbers rising. -/
def tins {α : Type} : Tab α → Nat → α → Tab α
  | [], k, v => [(k, v)]
  | (i, w) :: r, k, v =>
    if k < i then (k, v) :: (i, w) :: r
    else if k = i then (k, v) :: r
    else (i, w) :: tins r k v

/-- Drop the entry of a number. -/
def tdel {α : Type} : Tab α → Nat → Tab α
  | [], _ => []
  | (i, w) :: r, k => if i = k then tdel r k else (i, w) :: tdel r k

/-- Write a value: an entry that would equal the default is dropped. -/
def tput {α : Type} [DecidableEq α] (d : Nat → α) (t : Tab α) (k : Nat) (v : α) : Tab α :=
  if v = d k then tdel t k else tins t k v

/-- Change the value at a number. -/
def tmod {α : Type} [DecidableEq α] (d : Nat → α) (t : Tab α) (k : Nat) (f : α → α) : Tab α :=
  tput d t k (f (tget d t k))

/-- Write a run of values from a number on. -/
def tputs {α : Type} [DecidableEq α] (d : Nat → α) : Tab α → Nat → List α → Tab α
  | t, _, [] => t
  | t, k, v :: vs => tputs d (tput d t k v) (k + 1) vs

/-- The values of `n` numbers from `k` on. -/
def tgets {α : Type} (d : Nat → α) (t : Tab α) (k n : Nat) : List α :=
  (List.range n).map fun i => tget d t (k + i)

/-- Keep only the entries whose number passes a test. -/
def tkeep {α : Type} (t : Tab α) (p : Nat → Bool) : Tab α := t.filter fun e => p e.1

/-- The canonical form: every number above `lo`, rising, and no value equal to the default. -/
def twfFrom {α : Type} [DecidableEq α] (d : Nat → α) : Option Nat → Tab α → Bool
  | _, [] => true
  | lo, (i, v) :: r =>
    (match lo with | none => true | some l => decide (l < i)) && decide (v ≠ d i)
      && twfFrom d (some i) r

/-- A table is in canonical form. -/
def twf {α : Type} [DecidableEq α] (d : Nat → α) (t : Tab α) : Bool := twfFrom d none t

end Sys2Proof
end

