-- ==== Sys2Proof/Machine/Params.lean ====
section
/-! DEFINITION. The parameter space (R60): every parameter's ID, access, S mark, reset value and
range, the live and shadow copies, and the counters. -/

namespace Sys2Proof.Machine

/-! ### The names of the parameters -/

/-- DEVICE_ID -/ abbrev pDeviceId : Nat := 0x0001
/-- ALERT_MASK -/ abbrev pAlertMask : Nat := 0x0002
/-- CRC_DROPS_LINK -/ abbrev pCrcDropsLink : Nat := 0x0003
/-- CRC_DROPS_SPI -/ abbrev pCrcDropsSpi : Nat := 0x0004
/-- ADDR_DROPS -/ abbrev pAddrDrops : Nat := 0x0005
/-- C0_OVER -/ abbrev pC0Over : Nat := 0x0006
/-- EVENTS_LOST -/ abbrev pEventsLost : Nat := 0x0007
/-- REPLIES_LOST -/ abbrev pRepliesLost : Nat := 0x0008
/-- EVENT_PORTS -/ abbrev pEventPorts : Nat := 0x0009
/-- SHD_CTRL -/ abbrev pShdCtrl : Nat := 0x0101
/-- EMIT_ADJ -/ abbrev pEmitAdj : Nat := 0x0102
/-- CTX_ACTIVE_0 -/ abbrev pCtxActive : Nat := 0x0103
/-- STALE_COUNT -/ abbrev pStaleCount : Nat := 0x0107
/-- FORCE_STATE -/ abbrev pForceState : Nat := 0x0108
/-- FORCE_LEFT -/ abbrev pForceLeft : Nat := 0x0109
/-- CTX_TIMEOUTS -/ abbrev pCtxTimeouts : Nat := 0x010A
/-- FRAME_CTRL -/ abbrev pFrameCtrl : Nat := 0x0201
/-- SCAN_BASE -/ abbrev pScanBase : Nat := 0x0202
/-- SCAN_MODE -/ abbrev pScanMode : Nat := 0x0203
/-- FRAME_TIMING -/ abbrev pFrameTiming : Nat := 0x0204
/-- SYNC_NOM -/ abbrev pSyncNom : Nat := 0x0205
/-- SYNC_PHASE -/ abbrev pSyncPhase : Nat := 0x0206
/-- SYNC_CTRL -/ abbrev pSyncCtrl : Nat := 0x0207
/-- VIDEO_CTRL -/ abbrev pVideoCtrl : Nat := 0x0208
/-- HOST_STALE -/ abbrev pHostStale : Nat := 0x0209
/-- FRAME_NUM -/ abbrev pFrameNum : Nat := 0x020A
/-- COMMIT_STATUS -/ abbrev pCommitStatus : Nat := 0x020B
/-- FRAMES_SHOWN -/ abbrev pFramesShown : Nat := 0x0210
/-- FRAMES_DROPPED -/ abbrev pFramesDropped : Nat := 0x0211
/-- LINES_SUBST -/ abbrev pLinesSubst : Nat := 0x0212
/-- LINES_BAD -/ abbrev pLinesBad : Nat := 0x0213
/-- LINES_DISCARD -/ abbrev pLinesDiscard : Nat := 0x0214
/-- SEAM_REPEAT -/ abbrev pSeamRepeat : Nat := 0x0215
/-- SYNC_GLITCH -/ abbrev pSyncGlitch : Nat := 0x0216
/-- FREEZE_COUNT -/ abbrev pFreezeCount : Nat := 0x0217
/-- COMP_CTRL -/ abbrev pCompCtrl : Nat := 0x0301
/-- WIN_X -/ abbrev pWinX : Nat := 0x0302
/-- WIN_Y -/ abbrev pWinY : Nat := 0x0303
/-- WIN_CTRL -/ abbrev pWinCtrl : Nat := 0x0304
/-- MIX_CFG -/ abbrev pMixCfg : Nat := 0x0305
/-- MIX_TIME -/ abbrev pMixTime : Nat := 0x0306
/-- BASE_LEVEL -/ abbrev pBaseLevel : Nat := 0x0307
/-- MIX_STATE -/ abbrev pMixState : Nat := 0x0308
/-- COMP_STEP -/ abbrev pCompStep : Nat := 0x0309
/-- COMP_MAX -/ abbrev pCompMax : Nat := 0x030A
/-- BEND_STEP -/ abbrev pBendStep : Nat := 0x030B
/-- BEND_NOW -/ abbrev pBendNow : Nat := 0x030C
/-- FALLBACK_LEVEL -/ abbrev pFallbackLevel : Nat := 0x030D
/-- LIMP_LEVEL -/ abbrev pLimpLevel : Nat := 0x030E
/-- SCENE_STATE -/ abbrev pSceneState : Nat := 0x030F
/-- LIMP_GAINS_0 -/ abbrev pLimpGains : Nat := 0x0310
/-- COMP_PIX -/ abbrev pCompPix : Nat := 0x0314
/-- SUBST_COUNT -/ abbrev pSubstCount : Nat := 0x0315
/-- DRIVE_CTRL -/ abbrev pDriveCtrl : Nat := 0x0401
/-- VFB_CTRL -/ abbrev pVfbCtrl : Nat := 0x0402
/-- VFB_LIMITS -/ abbrev pVfbLimits : Nat := 0x0403
/-- VFB_CODE -/ abbrev pVfbCode : Nat := 0x0404
/-- LATE_RG -/ abbrev pLateRg : Nat := 0x0405
/-- TRUNC_LOST -/ abbrev pTruncLost : Nat := 0x0406
/-- COMP_RG -/ abbrev pCompRg : Nat := 0x0407
/-- TILE_REF_0 -/ abbrev pTileRef : Nat := 0x0410
/-- BUDGET -/ abbrev pBudget : Nat := 0x0420
/-- TILE_CAP -/ abbrev pTileCap : Nat := 0x0421
/-- GUARD -/ abbrev pGuard : Nat := 0x0422
/-- SLEW_MAX -/ abbrev pSlewMax : Nat := 0x0423
/-- SADDLE_CTRL -/ abbrev pSaddleCtrl : Nat := 0x0424
/-- RSENSE -/ abbrev pRsense : Nat := 0x0425
/-- MODEL_K -/ abbrev pModelK : Nat := 0x0426
/-- TRIP_WINDOW -/ abbrev pTripWindow : Nat := 0x0427
/-- PRERAISE -/ abbrev pPreraise : Nat := 0x0428
/-- THERMAL_TF -/ abbrev pThermalTf : Nat := 0x0429
/-- TRIP_COUNT -/ abbrev pTripCount : Nat := 0x042A
/-- CLAMP_COUNT -/ abbrev pClampCount : Nat := 0x042B
/-- SLEW_OVER -/ abbrev pSlewOver : Nat := 0x042C
/-- STR_CTRL -/ abbrev pStrCtrl : Nat := 0x0501
/-- STR_THRESH -/ abbrev pStrThresh : Nat := 0x0502
/-- STR_FAULTS_0 -/ abbrev pStrFaults : Nat := 0x0510
/-- STR_DRIVE_0 -/ abbrev pStrDrive : Nat := 0x0518
/-- EDGE_MOVES -/ abbrev pEdgeMoves : Nat := 0x0520
/-- STR_FAULT_COUNT -/ abbrev pStrFaultCount : Nat := 0x0521
/-- CREST_OUT_0 -/ abbrev pCrestOut : Nat := 0x0530
/-- DIAG_CTRL -/ abbrev pDiagCtrl : Nat := 0x0601
/-- PROBE_TH -/ abbrev pProbeTh : Nat := 0x0602
/-- CLUSTER_TH -/ abbrev pClusterTh : Nat := 0x0603
/-- FAULTN_EN -/ abbrev pFaultnEn : Nat := 0x0604
/-- FAULT_LATCH -/ abbrev pFaultLatch : Nat := 0x0605
/-- SAFE_CAUSES -/ abbrev pSafeCauses : Nat := 0x0606
/-- PIX_FAULTS -/ abbrev pPixFaults : Nat := 0x0607
/-- PIX_HMASK -/ abbrev pPixHmask : Nat := 0x0608
/-- PIX_PENDING -/ abbrev pPixPending : Nat := 0x0609
/-- ROW_DISCARDS -/ abbrev pRowDiscards : Nat := 0x060A
/-- PFE_SUPPRESSED -/ abbrev pPfeSuppressed : Nat := 0x060B
/-- CAL_CTRL -/ abbrev pCalCtrl : Nat := 0x0701
/-- QUAL_TH -/ abbrev pQualTh : Nat := 0x0702
/-- MED_MIN -/ abbrev pMedMin : Nat := 0x0703
/-- CAL_GEN -/ abbrev pCalGen : Nat := 0x0704
/-- CAL_COPY -/ abbrev pCalCopy : Nat := 0x0705
/-- TRIM_MOVES -/ abbrev pTrimMoves : Nat := 0x0706
/-- MEAS_INVALID -/ abbrev pMeasInvalid : Nat := 0x0707
/-- SCRUB_CTRL -/ abbrev pScrubCtrl : Nat := 0x0801
/-- LAP_WARN -/ abbrev pLapWarn : Nat := 0x0802
/-- CORR_COUNT -/ abbrev pCorrCount : Nat := 0x0803
/-- UNC_COUNT -/ abbrev pUncCount : Nat := 0x0804
/-- REPAIR_COUNT -/ abbrev pRepairCount : Nat := 0x0805
/-- REPAIR_FAIL -/ abbrev pRepairFail : Nat := 0x0806
/-- LOG_LOST -/ abbrev pLogLost : Nat := 0x0807
/-- MRAM_REFRESH -/ abbrev pMramRefresh : Nat := 0x0808
/-- POISONED -/ abbrev pPoisoned : Nat := 0x0809
/-- SPARE_FREE -/ abbrev pSpareFree : Nat := 0x080A
/-- RING_MEM_DROPS -/ abbrev pRingMemDrops : Nat := 0x080B
/-- BIST_CTRL -/ abbrev pBistCtrl : Nat := 0x0901
/-- BIST_TIMING -/ abbrev pBistTiming : Nat := 0x0902
/-- SLICES_RUN -/ abbrev pSlicesRun : Nat := 0x0903
/-- BIST_ABORTS -/ abbrev pBistAborts : Nat := 0x0904
/-- BIST_FAILS -/ abbrev pBistFails : Nat := 0x0905
/-- GOV_MISMATCH -/ abbrev pGovMismatch : Nat := 0x0906
/-- CYCLE_MS -/ abbrev pCycleMs : Nat := 0x0907
/-- THERM_CTRL -/ abbrev pThermCtrl : Nat := 0x0A01
/-- THERM_LEVELS -/ abbrev pThermLevels : Nat := 0x0A02
/-- THERM_SLOPE -/ abbrev pThermSlope : Nat := 0x0A03
/-- THERM_RISE -/ abbrev pThermRise : Nat := 0x0A04
/-- THERM_RTH -/ abbrev pThermRth : Nat := 0x0A05
/-- THERM_PLAUS -/ abbrev pThermPlaus : Nat := 0x0A06
/-- THERM_NOW -/ abbrev pThermNow : Nat := 0x0A07
/-- THERM_FAILED -/ abbrev pThermFailed : Nat := 0x0A08
/-- SHUTDOWNS -/ abbrev pShutdowns : Nat := 0x0A09
/-- JRNL_LOST_THERM -/ abbrev pJrnlLostTherm : Nat := 0x0A0A
/-- PWR_MODE -/ abbrev pPwrMode : Nat := 0x0B01
/-- PWR_FAULT -/ abbrev pPwrFault : Nat := 0x0B02
/-- QUIESCE_MS -/ abbrev pQuiesceMs : Nat := 0x0B03
/-- SPI_GRACE_MS -/ abbrev pSpiGraceMs : Nat := 0x0B04
/-- PWR_DROPS -/ abbrev pPwrDrops : Nat := 0x0B05
/-- JRNL_NEWEST -/ abbrev pJrnlNewest : Nat := 0x0C01
/-- JRNL_CTRL -/ abbrev pJrnlCtrl : Nat := 0x0C02
/-- JRNL_LAG -/ abbrev pJrnlLag : Nat := 0x0C03
/-- JRNL_LOST -/ abbrev pJrnlLost : Nat := 0x0C04
/-- RESTARTS -/ abbrev pRestarts : Nat := 0x0C05
/-- FW_FLOOR -/ abbrev pFwFloor : Nat := 0x0C06
/-- FW_SLOTS -/ abbrev pFwSlots : Nat := 0x0C07
/-- AUTH_REQUIRE -/ abbrev pAuthRequire : Nat := 0x0C08
/-- LINK_CTRL -/ abbrev pLinkCtrl : Nat := 0x0D01
/-- RET_SLEEP -/ abbrev pRetSleep : Nat := 0x0D02
/-- EYE_GUARD -/ abbrev pEyeGuard : Nat := 0x0D03
/-- RICH_MIN -/ abbrev pRichMin : Nat := 0x0D04
/-- HDR_BAD_A -/ abbrev pHdrBadA : Nat := 0x0D10
/-- HDR_BAD_B -/ abbrev pHdrBadB : Nat := 0x0D11
/-- BLK_CRC_A -/ abbrev pBlkCrcA : Nat := 0x0D12
/-- BLK_CRC_B -/ abbrev pBlkCrcB : Nat := 0x0D13
/-- MIRROR_DIFF -/ abbrev pMirrorDiff : Nat := 0x0D14
/-- ADAPT_FROZEN -/ abbrev pAdaptFrozen : Nat := 0x0D15
/-- RETRAINS -/ abbrev pRetrains : Nat := 0x0D16
/-- BLK_ORPHAN -/ abbrev pBlkOrphan : Nat := 0x0D17
/-- NODE_ADDR -/ abbrev pNodeAddr : Nat := 0x0E01
/-- GROUPS_LO -/ abbrev pGroupsLo : Nat := 0x0E02
/-- GROUPS_HI -/ abbrev pGroupsHi : Nat := 0x0E03
/-- TQ_COUNT -/ abbrev pTqCount : Nat := 0x0E04
/-- LATE_COUNT -/ abbrev pLateCount : Nat := 0x0E05

/-! ### The tables of the chapters -/

/-- The parameters of opcode group 0 (R60). -/
def prmRows00 : List (Nat × Nat × Nat × Nat × Nat) :=
  [(0x0001, 0, 0, 0x1048, 0),
   (0x0002, 2, 0, 0xf000, 0xffff),
   (0x0003, 1, 0, 0, 0xffffffff),
   (0x0004, 1, 0, 0, 0xffffffff),
   (0x0005, 1, 0, 0, 0xffffffff),
   (0x0006, 1, 0, 0, 0xffffffff),
   (0x0007, 1, 0, 0, 0xffffffff),
   (0x0008, 1, 0, 0, 0xffffffff),
   (0x0009, 2, 0, 3, 3)]

/-- The parameters of opcode group 1 (R60). -/
def prmRows01 : List (Nat × Nat × Nat × Nat × Nat) :=
  [(0x0101, 2, 1, 3, 3),
   (0x0102, 2, 1, 0, 0xffffffff),
   (0x0103, 0, 0, 0, 0),
   (0x0104, 0, 0, 0, 0),
   (0x0105, 0, 0, 0, 0),
   (0x0106, 0, 0, 0, 0),
   (0x0107, 0, 0, 0, 0),
   (0x0108, 0, 0, 0xffff0000, 0),
   (0x0109, 0, 0, 0, 0),
   (0x010A, 1, 0, 0, 0xffffffff)]

/-- The parameters of opcode group 2 (R60). -/
def prmRows02 : List (Nat × Nat × Nat × Nat × Nat) :=
  [(0x0201, 2, 0, 0, 1),
   (0x0202, 2, 1, 0, 0x7fffff),
   (0x0203, 2, 1, 0, 1),
   (0x0204, 2, 0, 2, 0x33),
   (0x0205, 2, 0, 0x1d4c0, 0xffffffff),
   (0x0206, 2, 0, 0, 0xffff),
   (0x0207, 2, 0, 3, 7),
   (0x0208, 2, 0, 0x20807, 0x30f07),
   (0x0209, 2, 0, 0xc8, 0xffff),
   (0x020A, 0, 0, 0, 0),
   (0x020B, 0, 0, 0xffffffff, 0),
   (0x0210, 1, 0, 0, 0xffffffff),
   (0x0211, 1, 0, 0, 0xffffffff),
   (0x0212, 1, 0, 0, 0xffffffff),
   (0x0213, 1, 0, 0, 0xffffffff),
   (0x0214, 1, 0, 0, 0xffffffff),
   (0x0215, 1, 0, 0, 0xffffffff),
   (0x0216, 1, 0, 0, 0xffffffff),
   (0x0217, 1, 0, 0, 0xffffffff)]

/-- The parameters of opcode group 3 (R60). -/
def prmRows03 : List (Nat × Nat × Nat × Nat × Nat) :=
  [(0x0301, 2, 1, 0x1C, 0x1f),
   (0x0302, 2, 1, 0, 0xffffffff),
   (0x0303, 2, 1, 0, 0xffffffff),
   (0x0304, 2, 1, 0, 3),
   (0x0305, 2, 1, 0, 0x3ffffff),
   (0x0306, 2, 1, 0, 0xffff),
   (0x0307, 2, 1, 0x1000, 0x1fff),
   (0x0308, 0, 0, 0, 0),
   (0x0309, 2, 1, 0x200, 0x7ff),
   (0x030A, 2, 1, 0x400, 0x7ff),
   (0x030B, 2, 0, 4, 0x3ff),
   (0x030C, 0, 0, 0, 0),
   (0x030D, 2, 1, 0x1000, 0x1fff),
   (0x030E, 2, 0, 0x800, 0x1fff),
   (0x030F, 0, 0, 0, 0),
   (0x0310, 2, 0, 0xffffffff, 0xffffffff),
   (0x0311, 2, 0, 0xffffffff, 0xffffffff),
   (0x0312, 2, 0, 0xffffffff, 0xffffffff),
   (0x0313, 2, 0, 0xffffffff, 0xffffffff),
   (0x0314, 0, 0, 0, 0),
   (0x0315, 1, 0, 0, 0xffffffff)]

/-- The parameters of opcode group 4 (R60). -/
def prmRows04 : List (Nat × Nat × Nat × Nat × Nat) :=
  [(0x0401, 2, 1, 0x1f, 0x1f),
   (0x0402, 2, 0, 0x41000, 0xff0fff01),
   (0x0403, 2, 0, 0xff00, 0xffffff),
   (0x0404, 0, 0, 0, 0),
   (0x0405, 1, 0, 0, 0xffffffff),
   (0x0406, 1, 0, 0, 0xffffffff),
   (0x0407, 1, 0, 0, 0xffffffff),
   (0x0410, 2, 1, 0x2ff, 0x3ff),
   (0x0411, 2, 1, 0x2ff, 0x3ff),
   (0x0412, 2, 1, 0x2ff, 0x3ff),
   (0x0413, 2, 1, 0x2ff, 0x3ff),
   (0x0414, 2, 1, 0x2ff, 0x3ff),
   (0x0415, 2, 1, 0x2ff, 0x3ff),
   (0x0416, 2, 1, 0x2ff, 0x3ff),
   (0x0417, 2, 1, 0x2ff, 0x3ff),
   (0x0418, 2, 1, 0x2ff, 0x3ff),
   (0x0419, 2, 1, 0x2ff, 0x3ff),
   (0x041A, 2, 1, 0x2ff, 0x3ff),
   (0x041B, 2, 1, 0x2ff, 0x3ff),
   (0x041C, 2, 1, 0x2ff, 0x3ff),
   (0x041D, 2, 1, 0x2ff, 0x3ff),
   (0x041E, 2, 1, 0x2ff, 0x3ff),
   (0x041F, 2, 1, 0x2ff, 0x3ff),
   (0x0420, 2, 0, 0x1f40, 0x3fff),
   (0x0421, 2, 0, 0x4b0, 0x7ff),
   (0x0422, 2, 0, 0x190, 0x7ff),
   (0x0423, 2, 0, 0x7d0, 0x7ff),
   (0x0424, 2, 0, 0x707, 0xf07),
   (0x0425, 2, 0, 0x2710, 0xffff),
   (0x0426, 2, 0, 0x1000, 0x1fff),
   (0x0427, 2, 0, 0xa, 0xfff),
   (0x0428, 2, 0, 0x3e8, 0x3fff),
   (0x0429, 0, 0, 0x1000, 0),
   (0x042A, 1, 0, 0, 0xffffffff),
   (0x042B, 1, 0, 0, 0xffffffff),
   (0x042C, 1, 0, 0, 0xffffffff)]

/-- The parameters of opcode group 5 (R60). -/
def prmRows05 : List (Nat × Nat × Nat × Nat × Nat) :=
  [(0x0501, 2, 0, 1, 1),
   (0x0502, 2, 0, 0xc0f46, 0xffffff),
   (0x0510, 0, 0, 0, 0),
   (0x0511, 0, 0, 0, 0),
   (0x0512, 0, 0, 0, 0),
   (0x0513, 0, 0, 0, 0),
   (0x0518, 0, 0, 0, 0),
   (0x0519, 0, 0, 0, 0),
   (0x051A, 0, 0, 0, 0),
   (0x051B, 0, 0, 0, 0),
   (0x0520, 1, 0, 0, 0xffffffff),
   (0x0521, 1, 0, 0, 0xffffffff),
   (0x0530, 0, 0, 0, 0),
   (0x0531, 0, 0, 0, 0),
   (0x0532, 0, 0, 0, 0),
   (0x0533, 0, 0, 0, 0),
   (0x0534, 0, 0, 0, 0),
   (0x0535, 0, 0, 0, 0),
   (0x0536, 0, 0, 0, 0),
   (0x0537, 0, 0, 0, 0)]

/-- The parameters of opcode group 6 (R60). -/
def prmRows06 : List (Nat × Nat × Nat × Nat × Nat) :=
  [(0x0601, 2, 0, 1, 1),
   (0x0602, 2, 0, 0x6400096, 0xfff0fff),
   (0x0603, 2, 0, 0x40004009, 0xffffffff),
   (0x0604, 2, 0, 0xffa, 0x7fff),
   (0x0605, 0, 0, 0, 0),
   (0x0606, 0, 0, 0x4000, 0),
   (0x0607, 0, 0, 0, 0),
   (0x0608, 0, 0, 0, 0),
   (0x0609, 0, 0, 0, 0),
   (0x060A, 1, 0, 0, 0xffffffff),
   (0x060B, 1, 0, 0, 0xffffffff)]

/-- The parameters of opcode group 7 (R60). -/
def prmRows07 : List (Nat × Nat × Nat × Nat × Nat) :=
  [(0x0701, 2, 0, 0xa03, 0xff03),
   (0x0702, 2, 0, 0x50014, 0xffffffff),
   (0x0703, 2, 0, 0x8000, 0x1ffff),
   (0x0704, 0, 0, 0, 0),
   (0x0705, 0, 0, 0, 0),
   (0x0706, 1, 0, 0, 0xffffffff),
   (0x0707, 1, 0, 0, 0xffffffff)]

/-- The parameters of opcode group 8 (R60). -/
def prmRows08 : List (Nat × Nat × Nat × Nat × Nat) :=
  [(0x0801, 2, 0, 7, 7),
   (0x0802, 2, 0, 0xc80190, 0xffffffff),
   (0x0803, 1, 0, 0, 0xffffffff),
   (0x0804, 1, 0, 0, 0xffffffff),
   (0x0805, 1, 0, 0, 0xffffffff),
   (0x0806, 1, 0, 0, 0xffffffff),
   (0x0807, 1, 0, 0, 0xffffffff),
   (0x0808, 1, 0, 0, 0xffffffff),
   (0x0809, 0, 0, 0, 0),
   (0x080A, 0, 0, 0, 0),
   (0x080B, 1, 0, 0, 0xffffffff)]

/-- The parameters of opcode group 9 (R60). -/
def prmRows09 : List (Nat × Nat × Nat × Nat × Nat) :=
  [(0x0901, 2, 0, 0x1ff, 0x1ff),
   (0x0902, 2, 0, 0x500c8, 0xffffffff),
   (0x0903, 1, 0, 0, 0xffffffff),
   (0x0904, 1, 0, 0, 0xffffffff),
   (0x0905, 1, 0, 0, 0xffffffff),
   (0x0906, 1, 0, 0, 0xffffffff),
   (0x0907, 0, 0, 0, 0)]

/-- The parameters of opcode group 10 (R60). -/
def prmRows0A : List (Nat × Nat × Nat × Nat × Nat) :=
  [(0x0A01, 2, 0, 0xf, 0xf),
   (0x0A02, 2, 0, 0xa096736e, 0xffffffff),
   (0x0A03, 2, 0, 0x33300cd, 0x1fff0fff),
   (0x0A04, 2, 0, 0x291428, 0xffffff),
   (0x0A05, 2, 0, 0x190096, 0xffffff),
   (0x0A06, 2, 0, 0x1914, 0xffff),
   (0x0A07, 0, 0, 0x1000, 0),
   (0x0A08, 0, 0, 0, 0),
   (0x0A09, 1, 0, 0, 0xffffffff),
   (0x0A0A, 1, 0, 0, 0xffffffff)]

/-- The parameters of opcode group 11 (R60). -/
def prmRows0B : List (Nat × Nat × Nat × Nat × Nat) :=
  [(0x0B01, 0, 0, 0, 0),
   (0x0B02, 0, 0, 0, 0),
   (0x0B03, 2, 0, 0xa, 0xff),
   (0x0B04, 2, 0, 0xa, 0x3ff),
   (0x0B05, 1, 0, 0, 0xffffffff)]

/-- The parameters of opcode group 12 (R60). -/
def prmRows0C : List (Nat × Nat × Nat × Nat × Nat) :=
  [(0x0C01, 0, 0, 0, 0),
   (0x0C02, 2, 0, 0xa, 0xff),
   (0x0C03, 0, 0, 0, 0),
   (0x0C04, 1, 0, 0, 0xffffffff),
   (0x0C05, 1, 0, 0, 0xffffffff),
   (0x0C06, 2, 0, 0, 0xffffffff),
   (0x0C07, 0, 0, 0, 0),
   (0x0C08, 2, 0, 0, 0x7fff)]

/-- The parameters of opcode group 13 (R60). -/
def prmRows0D : List (Nat × Nat × Nat × Nat × Nat) :=
  [(0x0D01, 2, 0, 0x3c, 0x3f),
   (0x0D02, 2, 0, 0x00640000, 0xffff0003),
   (0x0D03, 2, 0, 0x101e, 0xffff),
   (0x0D04, 2, 0, 0x6010, 0xffff),
   (0x0D10, 1, 0, 0, 0xffffffff),
   (0x0D11, 1, 0, 0, 0xffffffff),
   (0x0D12, 1, 0, 0, 0xffffffff),
   (0x0D13, 1, 0, 0, 0xffffffff),
   (0x0D14, 1, 0, 0, 0xffffffff),
   (0x0D15, 1, 0, 0, 0xffffffff),
   (0x0D16, 1, 0, 0, 0xffffffff),
   (0x0D17, 1, 0, 0, 0xffffffff)]

/-- The parameters of opcode group 14 (R60). -/
def prmRows0E : List (Nat × Nat × Nat × Nat × Nat) :=
  [(0x0E01, 0, 0, 0x3fff, 0),
   (0x0E02, 0, 0, 0, 0),
   (0x0E03, 0, 0, 0, 0),
   (0x0E04, 0, 0, 0, 0),
   (0x0E05, 1, 0, 0, 0xffffffff)]

/-- Every parameter, in ascending ID: (ID, access, S, reset, writable bits), access 0 RO, 1 counter, 2 RW. -/
def prmRows : List (Nat × Nat × Nat × Nat × Nat) :=
  prmRows00 ++ prmRows01 ++ prmRows02 ++ prmRows03 ++ prmRows04 ++ prmRows05 ++ prmRows06 ++ prmRows07 ++ prmRows08 ++ prmRows09 ++ prmRows0A ++ prmRows0B ++ prmRows0C ++ prmRows0D ++ prmRows0E

/-- The row of a parameter. -/
def prmRow (id : Nat) : Option (Nat × Nat × Nat × Nat × Nat) := prmRows.find? fun r => r.1 = id

/-- The reset value of a parameter (each table's Reset column; of the AQ variant where they differ). -/
def prmReset (id : Nat) : Word :=
  match prmRow id with
  | none => 0
  | some r => w32 r.2.2.2.1

/-- A parameter marked S (R60). -/
def prmShadowed (id : Nat) : Bool :=
  match prmRow id with
  | none => false
  | some r => r.2.2.1 = 1

/-- A counter parameter: writing 0 clears it, any other value is rejected (R61). -/
def prmCounter (id : Nat) : Bool :=
  match prmRow id with
  | none => false
  | some r => r.2.1 = 1

/-- The IDs of the S parameters, ascending. -/
def prmSIds : List Nat := (prmRows.filter fun r => r.2.2.1 = 1).map (·.1)

/-- The IDs of the RW parameters, ascending (R354's PARAMS digest). -/
def prmRwIds : List Nat := (prmRows.filter fun r => r.2.1 ≠ 0).map (·.1)

/-! ### Reading and writing the stored copies -/

/-- The live copy of a parameter, as a number. -/
def State.live (s : State) (id : Nat) : Nat := (tget prmReset s.prm.live id).toNat

/-- The shadow copy of an S parameter, as a number. -/
def State.shadow (s : State) (id : Nat) : Nat := (tget prmReset s.prm.shadow id).toNat

/-- A field of a live parameter. -/
def State.fld (s : State) (id hi lo : Nat) : Nat := bits (s.live id) hi lo

/-- A bit of a live parameter. -/
def State.flag (s : State) (id b : Nat) : Bool := bitOf (s.live id) b

/-- Write the live copy. -/
def State.setLive (s : State) (id v : Nat) : State :=
  { s with prm := { s.prm with live := tput prmReset s.prm.live id (w32 v) } }

/-- Write the shadow copy. -/
def State.setShadow (s : State) (id v : Nat) : State :=
  { s with prm := { s.prm with shadow := tput prmReset s.prm.shadow id (w32 v) } }

/-- Add to a counter, which saturates at 0xFFFF_FFFF (R61). -/
def State.bump (s : State) (id n : Nat) : State := s.setLive id (satAdd 32 (s.live id) n)

/-! ### Ranges (each table's Meaning column) -/

/-- A field of a value lies in a range. -/
def fldIn (v hi lo a b : Nat) : Bool := decide (a ≤ bits v hi lo) && decide (bits v hi lo ≤ b)

/-- The ranges of the parameters, beyond reserved bits. -/
def prmRange (id v : Nat) : Bool :=
  if id = pVfbCtrl then fldIn v 15 8 1 255 && fldIn v 19 16 1 15
  else if id = pVfbLimits then decide (bits v 7 0 ≤ bits v 15 8)
  else if 0x0410 ≤ id ∧ id ≤ 0x041F then fldIn v 9 0 127 1023
  else if id = pMixCfg then fldIn v 16 8 0 256 && fldIn v 25 17 0 256
  else if id = pBaseLevel ∨ id = pFallbackLevel ∨ id = pLimpLevel then decide (v ≤ 4096)
  else if id = pCompStep ∨ id = pCompMax then decide (v ≤ 1024)
  else if id = pEmitAdj then decide (-2000 ≤ signed 32 v) && decide (signed 32 v ≤ 2000)
  else if id = pBudget then decide (1000 ≤ v) && decide (v ≤ 9600)
  else if id = pTileCap then decide (100 ≤ v) && decide (v ≤ 1200)
  else if id = pGuard then decide (v ≤ 2000)
  else if id = pSlewMax then decide (500 ≤ v) && decide (v ≤ 2000)
  else if id = pRsense then decide (2000 ≤ v) && decide (v ≤ 50000)
  else if id = pModelK then decide (3277 ≤ v) && decide (v ≤ 4915)
  else if id = pTripWindow then decide (v ≤ 3600)
  else if id = pPreraise then decide (100 ≤ v) && decide (v ≤ 9600)
  else if id = pLinkCtrl then decide (bits v 1 0 ≠ 3)
  else if id = pRetSleep then decide (bits v 1 0 ≠ 3) && decide (1 ≤ bits v 31 16)
  else if id = pEyeGuard then fldIn v 7 0 10 200 && fldIn v 15 8 4 48
  else if id = pRichMin then fldIn v 7 0 1 60 && fldIn v 15 8 1 180
  else if id = pScanBase then decide (v % 65536 = 0) && decide (v ≤ 0x400000)
  else if id = pSyncNom then decide (24000 ≤ v) && decide (v ≤ 240000)
  else if id = pVideoCtrl then decide (bits v 2 0 ≠ 0) && decide (bits v 11 8 ≤ 8)
  else if id = pHostStale then decide (v = 0) || (decide (20 ≤ v) && decide (v ≤ 10000))
  else if id = pStrThresh then fldIn v 7 0 40 120 && fldIn v 15 8 5 30 && fldIn v 23 16 5 30
  else if id = pProbeTh then fldIn v 11 0 50 500 && fldIn v 27 16 800 2400
  else if id = pClusterTh then fldIn v 7 0 2 64 && fldIn v 23 8 1 65535 && fldIn v 31 24 16 255
  else if id = pFaultnEn then bitOf v 3 && bitOf v 7 && bitOf v 10 && bitOf v 11
  else if id = pCalCtrl then fldIn v 15 8 4 32
  else if id = pQualTh then fldIn v 15 0 1 250 && fldIn v 31 16 1 250
  else if id = pMedMin then decide (1024 ≤ v) && decide (v ≤ 65536)
  else if id = pLapWarn then fldIn v 15 0 10 65535 && fldIn v 31 16 1 65535
  else if id = pBistCtrl then bitOf v 3 && bitOf v 6
  else if id = pBistTiming then fldIn v 15 0 150 1000 && fldIn v 31 16 1 10000
  else if id = pThermLevels then
    fldIn v 7 0 60 150 && fldIn v 15 8 60 140 && fldIn v 23 16 100 150 && fldIn v 31 24 160 160
      && decide (bits v 7 0 ≤ bits v 15 8) && decide (bits v 15 8 + 10 ≤ bits v 23 16)
  else if id = pThermSlope then fldIn v 11 0 41 4095 && fldIn v 28 16 205 4096
  else if id = pThermRise then fldIn v 7 0 10 255 && fldIn v 15 8 5 100 && fldIn v 23 16 1 255
  else if id = pThermRth then fldIn v 15 0 0 1000 && fldIn v 23 16 5 50
  else if id = pThermPlaus then fldIn v 7 0 5 100 && fldIn v 15 8 10 60
  else if id = pQuiesceMs then decide (1 ≤ v) && decide (v ≤ 100)
  else if id = pSpiGraceMs then decide (v ≤ 1000)
  else if id = pJrnlCtrl then decide (1 ≤ v) && decide (v ≤ 100)
  else if id = pAuthRequire then !bitOf v 1
  else true

/-- A value that a parameter admits by itself: it is writable, no reserved bit is set (R8), a
counter takes only 0, and every field is in range. -/
def prmValueOk (id v : Nat) : Bool :=
  match prmRow id with
  | none => false
  | some r =>
    if r.2.1 = 0 then false
    else if r.2.1 = 1 then decide (v = 0)
    else decide (v &&& r.2.2.2.2 = v) && prmRange id v

end Sys2Proof.Machine
end

