-- ==== Sys2Proof/Machine/Ops.lean ====
section
/-! DEFINITION. The named operations over the state: time, memory, lines and their checks, output
rings, replies, events and journal entries. -/

namespace Sys2Proof.Machine

/-! ### Time (15_power_states.md R335) -/

/-- Time passes: the model's clock runs on, and DEVTIME while the reference oscillator drives it
(R335: held in INVALID, stopped in DORMANT and in reset, and until
OSC_OK of an exit from DORMANT, R326). -/
def State.elapse (s : State) (dt : Nat) : State :=
  { s with
    clk := s.clk + dt
    pwr := { s.pwr with
      devtime := if s.pwr.state = .dormant ∨ s.pwr.time = .invalid ∨ s.pwr.boot = .held
          ∨ (s.pwr.dormExit ∧ (s.pwr.boot = .regulator ∨ s.pwr.boot = .oscillator))
        then s.pwr.devtime else s.pwr.devtime + BitVec.ofNat 64 dt
      activeNs := if s.pwr.state = .active ∧ s.pwr.boot = .up then s.pwr.activeNs + dt
        else s.pwr.activeNs } }

/-- DEVTIME in us, 48 bits: the TIME of events and entries (R56, R344). -/
def State.us (s : State) : Nat := s.pwr.devtime.toNat / 1000 % 2 ^ 48

/-- ns since a reading of the model's clock. -/
def State.since (s : State) (t : Nat) : Nat := s.clk - t

/-! ### Memory bytes (01_architecture.md R33) -/

/-- What an unlisted SRAM byte reads as: zero (R287); with no calibration copy, gains 255 and trims
32 (R258). -/
def sramDef (a : Nat) : Byte :=
  if 0x600000 ≤ a ∧ a < 0x700000 then 255
  else if 0x700000 ≤ a ∧ a < 0x800000 then 32 else 0

/-- What an unlisted MRAM byte reads as: the delivered image, the factory data, else 0 (DESIGN CHOICE, log 8). -/
def mramDef (a : Nat) : Byte :=
  if 0x10500000 ≤ a ∧ a < 0x10580000 then Config.imageByte a
  else if 0x10740000 ≤ a ∧ a < 0x10780000 then Config.factoryByte a else 0

/-- A byte of SRAM. -/
def State.sram (s : State) (a : Nat) : Byte := tget sramDef s.mem.sram a
/-- A byte of MRAM. -/
def State.mram (s : State) (a : Nat) : Byte := tget mramDef s.mem.mram a

/-- Write bytes of SRAM. -/
def State.setSram (s : State) (a : Nat) (l : List Byte) : State :=
  { s with mem := { s.mem with sram := tputs sramDef s.mem.sram a l } }
/-- Write bytes of MRAM. -/
def State.setMram (s : State) (a : Nat) (l : List Byte) : State :=
  { s with mem := { s.mem with mram := tputs mramDef s.mem.mram a l } }

/-- `n` bytes of SRAM. -/
def State.sramBytes (s : State) (a n : Nat) : List Byte := tgets sramDef s.mem.sram a n
/-- `n` bytes of MRAM. -/
def State.mramBytes (s : State) (a n : Nat) : List Byte := tgets mramDef s.mem.mram a n

/-- The 64 bytes of an object context (05_glare_free_shadowing.md R121). -/
def ctxBytes (n : Nat) (c : ObjCtx) : List Byte :=
  leBytes 1 n ++ leBytes 1 (ofFlags [c.active, c.canvas, c.static, c.stale])
    ++ leBytes 2 c.depth.toNat ++ leBytes 4 c.x.toNat ++ leBytes 4 c.y.toNat
    ++ leBytes 4 c.halfW.toNat ++ leBytes 4 c.halfH.toNat ++ leBytes 2 c.vx.toNat
    ++ leBytes 2 c.vy.toNat ++ leBytes 2 c.ax.toNat ++ leBytes 2 c.ay.toNat
    ++ leBytes 6 c.tCap.toNat ++ leBytes 2 c.margin.toNat ++ leBytes 2 c.soft.toNat
    ++ leBytes 2 c.radius.toNat ++ leBytes 2 c.ttl.toNat ++ leBytes 2 c.grow.toNat
    ++ leBytes 2 c.timeout.toNat ++ leBytes 2 c.growMax.toNat ++ leBytes 4 c.objTag.toNat
    ++ leBytes 4 0 ++ leBytes 2 c.updCount.toNat ++ leBytes 6 c.tUpd.toNat

/-- The 64 bytes of an overlay context (04_composition.md R102). -/
def ovlBytes (o : Overlay) : List Byte :=
  leBytes 2 o.ctrl.toNat ++ leBytes 2 o.level.toNat ++ leBytes 4 o.addr.toNat
    ++ leBytes 2 o.w.toNat ++ leBytes 2 o.h.toNat ++ leBytes 2 o.pitch.toNat ++ leBytes 2 0
    ++ leBytes 4 o.orgX.toNat ++ leBytes 4 o.orgY.toNat
    ++ (List.range 9).flatMap (fun i => leBytes 4 (o.coef.getD i 0).toNat) ++ leBytes 4 0

/-- An object context, inactive and zero where never written (R123). -/
def State.ctx (s : State) (n : Nat) : ObjCtx := tget (fun _ => {}) s.shd.ctx n
/-- Write an object context. -/
def State.setCtx (s : State) (n : Nat) (c : ObjCtx) : State :=
  { s with shd := { s.shd with ctx := tput (fun _ => {}) s.shd.ctx n c } }
/-- A live overlay context. -/
def State.ovl (s : State) (m : Nat) : Overlay := tget (fun _ => {}) s.comp.ovlLive m

/-- The marker of a journal line that holds no valid entry: 0xFFFF_FFFF is never a JSEQ (R344). -/
def jNone : JEntry := { jseq := 0xFFFFFFFF }

/-- The state codes of a journal entry (R344) are stored as numbers; bytes 0 to 59 of an entry. -/
def jBody (e : JEntry) : List Byte :=
  leBytes 4 e.jseq.toNat ++ leBytes 2 e.opcode.toNat ++ [e.ring, e.kind] ++ leBytes 4 e.seq.toNat
    ++ leBytes 4 e.tag.toNat ++ leBytes 1 e.state ++ leBytes 1 0 ++ leBytes 2 e.status.toNat
    ++ leBytes 2 e.step.toNat ++ leBytes 2 e.steps.toNat ++ leBytes 6 e.time.toNat
    ++ leBytes 2 e.count.toNat ++ leBytes 4 e.digest.toNat ++ leBytes 4 e.result.toNat
    ++ leBytes 6 e.tAccept.toNat ++ leBytes 2 0 ++ leBytes 4 e.frame.toNat ++ leBytes 8 e.note.toNat

/-- The 64 bytes of a journal entry (R344). -/
def jBytes (e : JEntry) : List Byte := jBody e ++ leBytes 4 (crc32 (jBody e))

/-- A line of the journal region as bytes: zeros where no entry was ever written. -/
def State.jLine (s : State) (i : Nat) : List Byte :=
  let e := tget (fun _ => jNone) s.nvm.journal i
  if e = jNone then List.replicate 64 0 else jBytes e

/-- A byte of the host's address map (R33), as MEM_READ returns it. -/
def State.byte (s : State) (a : Nat) : Byte :=
  if a < 0x10000000 then s.sram a
  else if 0x10600000 ≤ a ∧ a < 0x10700000 then
    byteAt (s.jLine ((a - 0x10600000) / 64)) (a % 64)
  else if a < 0x20000000 then s.mram a
  else if a < 0x20002000 then byteAt (ctxBytes ((a - 0x20000000) / 64) (s.ctx ((a - 0x20000000) / 64))) (a % 64)
  else byteAt (ovlBytes (s.ovl ((a - 0x20002000) / 64))) (a % 64)

/-- `n` bytes of the map, line by line. -/
def State.bytesAt (s : State) (a n : Nat) : List Byte := (List.range n).map fun i => s.byte (a + i)

/-- The ranges of R33: first address, last address, MEM_READ permitted, MEM_WRITE permitted. -/
def memRanges : List (Nat × Nat × Bool × Bool) :=
  [(0x00000000, 0x001FFFFF, true, true), (0x00200000, 0x003FFFFF, true, true),
   (0x00400000, 0x005FFFFF, true, true), (0x00600000, 0x006FFFFF, true, false),
   (0x00700000, 0x007FFFFF, true, false), (0x00800000, 0x008FFFFF, true, false),
   (0x00900000, 0x0097FFFF, true, false), (0x00980000, 0x009FFFFF, false, false),
   (0x00A00000, 0x00A7FFFF, false, false), (0x00A80000, 0x00AFFFFF, false, false),
   (0x00B00000, 0x00B7FFFF, true, true), (0x10000000, 0x101FFFFF, true, false),
   (0x10200000, 0x103FFFFF, true, false), (0x10400000, 0x104FFFFF, true, false),
   (0x10500000, 0x1057FFFF, true, false), (0x10580000, 0x105FFFFF, true, false),
   (0x10600000, 0x106FFFFF, true, false), (0x10700000, 0x1073FFFF, false, false),
   (0x10740000, 0x1077FFFF, true, false), (0x10780000, 0x107FFFFF, false, false),
   (0x20000000, 0x20001FFF, true, false), (0x20002000, 0x200027FF, true, false)]

/-- The range that holds a whole access, if one does (R34). -/
def memRange (a n : Nat) : Option (Nat × Nat × Bool × Bool) :=
  memRanges.find? fun r => decide (r.1 ≤ a) && decide (a + n ≤ r.2.1 + 1) && decide (0 < n)

/-! ### Lines (12_memory_integrity.md R272 to R280) -/

/-- The line address of a byte. -/
def lineOf (a : Nat) : Nat := a - a % 64

/-- The lines of a span of bytes, ascending. -/
def linesOf (a n : Nat) : List Nat :=
  if n = 0 then [] else (List.range ((lineOf (a + n - 1) - lineOf a) / 64 + 1)).map fun i => lineOf a + 64 * i

/-- The region code of an address (R274). The spare sectors have no code in R274: 24 (DESIGN CHOICE, log 11). -/
def regionOf (a : Nat) : Nat :=
  if a < 0x200000 then 0 else if a < 0x400000 then 1 else if a < 0x600000 then 2
  else if a < 0x700000 then 3 else if a < 0x800000 then 4 else if a < 0x900000 then 5
  else if a < 0x980000 then 6 else if a < 0xA00000 then 7 else if a < 0xA80000 then 8
  else if a < 0xB00000 then 9 else if a < 0x10000000 then 10
  else if a < 0x10200000 then 16 else if a < 0x10400000 then 17 else if a < 0x10500000 then 18
  else if a < 0x10580000 then 19 else if a < 0x10600000 then 20 else if a < 0x10700000 then 21
  else if a < 0x10740000 then 22 else if a < 0x10780000 then 23 else if a < 0x20000000 then 24
  else if a < 0x20002000 then 32 else 33

/-- The MRAM address of a firmware slot: A or B (R33). -/
def slotBase (k : Nat) : Nat := if k = 0 then 0x10500000 else 0x10580000

/-- LENGTH of the image in a slot (R356). -/
def State.slotLength (s : State) (k : Nat) : Nat := ofLe (s.mramBytes (slotBase k + 8) 4)

/-- A line of the sequencer region holds instructions: the image stands there from its first address on, as
in its slot, and the lines behind it hold data (DESIGN CHOICE: the manual does not give the layout; log 40). -/
def State.codeLine (s : State) (a : Nat) : Bool := decide (a < 0xA00000 + 256 + s.slotLength s.nvm.running)

/-- The SOURCE code of a line's source (R274, ERRLOG_READ): 2 SRAM, 3 MRAM, 4 rebuild, 0 none. -/
def State.sourceOf (s : State) (a : Nat) : Nat :=
  match regionOf a with
  | 0 => 2 | 1 => 2 | 3 => 4 | 4 => 4 | 5 => 3 | 6 => 4 | 9 => 2 | 18 => 2 | 21 => 2
  | 8 => if s.codeLine a then 3 else 0
  | 22 => if a < 0x10710000 then 2 else 0
  | _ => 0

/-- Whether a requester may use a region's source at the read (R274, R275). -/
def State.sourceUsed (s : State) (req a : Nat) : Bool :=
  if req = 1 ∨ req = 2 ∨ req = 8 ∨ req = 9 then [0, 1, 3, 4, 5].contains (regionOf a)
  else decide (s.sourceOf a ≠ 0)

/-- A finding takes its entry of the error table (R280). -/
def State.errLog (s : State) (addr kind req source : Nat) : State :=
  let now := s.pwr.devtime.toNat / 1000000 % 2 ^ 32
  let old := s.mem.table.find? fun e => e.addr = addr
  let n := satAdd 16 (match old with | none => 0 | some o => o.count) 1
  let e : ErrEntry :=
    { addr := addr, region := regionOf addr, kind := kind, req := req, source := source, count := n, time := now }
  match old with
  | some _ =>
    { s with mem := { s.mem with table := s.mem.table.map fun o => if o.addr = addr then e else o } }
  | none =>
    if s.mem.table.length < 32 then { s with mem := { s.mem with table := s.mem.table ++ [e] } }
    else
      let victim := match s.mem.table.find? (fun o => o.kind = 1) with
        | some o => some o
        | none => s.mem.table.find? fun o => o.kind = 4
      match victim with
      | some v =>
        { s with mem := { s.mem with table := (s.mem.table.filter fun o => o.addr ≠ v.addr) ++ [e] } }
      | none => s.bump pLogLost 1

/-- Set a FAULT_LATCH class (R245). -/
def State.latchFault (s : State) (cls : Nat) : State :=
  { s with diag := { s.diag with latch := s.diag.latch ||| BitVec.ofNat 16 (2 ^ cls) } }

/-- A line is corrected (R273). -/
def State.lineCorrected (s : State) (addr req source : Nat) : State :=
  (s.errLog addr 1 req source).bump pCorrCount 1

/-- The lines that a test names are written whole: an error that stands in one is overwritten, and one that
is poisoned loses its poison, a repair in the queue dropped with source WRITE (R277, R279). -/
def State.wholeWritten (s : State) (f : Nat → Bool) : State :=
  let poison := s.mem.poison
  { s with mem := { s.mem with
    errs := s.mem.errs.filter fun e => !f e.1
    poison := poison.filter fun a => !f a
    repairQ := s.mem.repairQ.filter fun a => !f a
    table := s.mem.table.map fun e =>
      if f e.addr && poison.contains e.addr then { e with kind := 4, source := 5 } else e } }

/-- One line is written whole. -/
def State.lineWhole (s : State) (addr : Nat) : State := s.wholeWritten fun a => decide (a = addr)

/-- The lines wholly inside a span. -/
def wholeLines (a n : Nat) : List Nat :=
  (linesOf a n).filter fun l => decide (a ≤ l) && decide (l + 64 ≤ a + n)

/-- The lines partly inside a span. -/
def partLines (a n : Nat) : List Nat :=
  (linesOf a n).filter fun l => !(decide (a ≤ l) && decide (l + 64 ≤ a + n))

/-- A target line of a partial write that is poisoned refuses the write (R277). -/
def State.partPoisoned (s : State) (a n : Nat) : Bool :=
  (partLines a n).any fun l => s.mem.poison.contains l

/-- A write of SRAM bytes by the host, video or the sequencer: whole lines lose their poison. -/
def State.writeSram (s : State) (a : Nat) (l : List Byte) : State :=
  (s.setSram a l).wholeWritten fun x => (wholeLines a l.length).contains x

/-- A write of MRAM bytes that verifies (R284). -/
def State.writeMram (s : State) (a : Nat) (l : List Byte) : State :=
  (s.setMram a l).wholeWritten fun x => (wholeLines a l.length).contains x

/-! ### Rings and records (02_command_model.md R48 to R54) -/

/-- The default configuration of a ring (R48). -/
def ringDefault (r : Nat) : RingCfg :=
  if r < 8 then { cls := 0, advance := true, depth := 32 }
  else if r < 16 then { cls := 1, advance := true, depth := 128 }
  else if r < 32 then { cls := 2, advance := false, depth := 64 }
  else if r < 48 then { cls := 3, advance := false, depth := 128 }
  else if r < 64 then { cls := 0, advance := false, depth := 240 }
  else {}

/-- A ring's configuration. -/
def State.ring (s : State) (r : Nat) : RingCfg := tget ringDefault s.cmd.rings r

/-- The slots of 64 bytes that a record or packet takes (R48). -/
def slotsOf (n : Nat) : Nat := ceilDiv n 64

/-- The bytes of a packet with so many parameter words (R37). -/
def packetLength (plen : Nat) : Nat := 20 + 4 * plen

/-- The slots that a packet takes in its submission ring (R48). -/
def pktSlots (p : Pkt) : Nat := slotsOf (packetLength p.plen)

/-- The records of an output ring. -/
def State.outRing (s : State) (r : Nat) : List Record := tget (fun _ => []) s.cmd.out r

/-- The slots that the records of an output ring hold. -/
def State.outUsed (s : State) (r : Nat) : Nat := sumOf ((s.outRing r).map fun x => slotsOf x.bytes.length)

/-- The slots that an output ring has free, reserved slots taken off (R52). -/
def State.outFree (s : State) (r : Nat) : Nat :=
  (s.ring r).depth - (s.outUsed r + tget (fun _ => 0) s.cmd.reserved r)

/-- The first line of a ring: the rings stand in the ring pool by number, each with its depth (DESIGN CHOICE:
the manual gives the pool and no places in it; log 40). -/
def State.ringBase (s : State) (r : Nat) : Nat :=
  0x980000 + 64 * sumOf ((List.range r).map fun q => (s.ring q).depth)

/-- The lines of `n` slots of a ring from slot `k` on; a ring's slots are used in turn. -/
def State.ringLines (s : State) (r k n : Nat) : List Nat :=
  (List.range n).map fun i => s.ringBase r + 64 * ((k + i) % (s.ring r).depth)

/-- A line is poisoned, or an error stands in it. -/
def State.marred (s : State) (a : Nat) : Bool := s.mem.poison.contains a || (s.mem.errs.lookup a).isSome

/-- The slot at which a ring's head stands. -/
def State.headSlot (s : State) (r : Nat) : Nat := tget (fun _ => 0) s.cmd.heads r

/-- The head of a ring, of `n` slots, leaves it. -/
def State.headOn (s : State) (r n : Nat) : State :=
  { s with cmd := { s.cmd with heads := tput (fun _ => 0) s.cmd.heads r ((s.headSlot r + n) % (s.ring r).depth) } }

/-- Append a record to an output ring. -/
def State.pushOut (s : State) (r : Nat) (x : Record) : State :=
  { s with cmd := { s.cmd with
    out := tput (fun _ => []) s.cmd.out r (s.outRing r ++ [x])
    written := (s.ringLines r (s.headSlot r + s.outUsed r) (slotsOf x.bytes.length)).filter s.marred
      ++ s.cmd.written } }

/-- One copy of an event is posted to its ring, or discarded and counted (R52). -/
def State.postEvent (s : State) (r src : Nat) (bytes : List Byte) : State :=
  if 1 ≤ s.outFree r then s.pushOut r { bytes := bytes, src := src }
  else { (s.bump pEventsLost 1) with cmd := { s.cmd with
    lostEvent := tmod (fun _ => 0) s.cmd.lostEvent r (· + 1) } }

/-- Bytes followed by their CRC trailer (R40). -/
def withCrc (l : List Byte) : List Byte := l ++ leBytes 4 (crc32 l)

/-- The 32 bytes of an event record (R56). -/
def eventBytes (s : State) (code sev src a0 a1 a2 a3 : Nat) : List Byte :=
  withCrc (leBytes 2 code ++ leBytes 1 sev ++ leBytes 1 src ++ leBytes 4 s.cmd.eseq.toNat
    ++ leBytes 2 s.grp.node.toNat ++ leBytes 2 a0 ++ leBytes 6 s.us ++ leBytes 2 a1
    ++ leBytes 4 a2 ++ leBytes 4 a3)

/-- The engine raises an event: one copy for each port enabled in EVENT_PORTS, with the same ESEQ
(R56); a severity-3 event stays unacknowledged (R57). -/
def State.evt (s : State) (code sev src a0 a1 a2 a3 : Nat) : State :=
  let b := eventBytes s code sev src a0 a1 a2 a3
  let s1 := { s with cmd := { s.cmd with
    eseq := s.cmd.eseq + 1
    unack := if sev = 3 then s.cmd.unack ++ [s.cmd.eseq] else s.cmd.unack } }
  let s2 := if s.flag pEventPorts 0 then s1.postEvent (56 + sev) src b else s1
  if s.flag pEventPorts 1 then s2.postEvent (60 + sev) src b else s2

/-! ### Uncorrectable lines (12_memory_integrity.md R273 to R283) -/

/-- The severity of MEM_UNCORR (R283): 3 for the active calibration copy, the active firmware slot,
the configuration and keys, and factory data. -/
def State.memSev (s : State) (addr : Nat) : Nat :=
  match regionOf addr with
  | 16 => if s.cal.copy = some 0 then 3 else 2
  | 17 => if s.cal.copy = some 1 then 3 else 2
  | 19 => if s.nvm.slotA = .active then 3 else 2
  | 20 => if s.nvm.slotB = .active then 3 else 2
  | 22 => 3
  | 23 => 3
  | _ => 2

/-- Lines poisoned in a region. -/
def State.poisonedIn (s : State) (r : Nat) : Nat := (s.mem.poison.filter fun a => regionOf a = r).length

/-- A line that cannot be repaired asks for a new upload (R283): symbol store, user region, ring pool,
and in fixed scan mode a frame buffer. -/
def State.wantsUpload (s : State) (addr : Nat) : Bool :=
  match regionOf addr with
  | 2 => true
  | 7 => true
  | 10 => true
  | 0 => s.flag pScanMode 0
  | 1 => s.flag pScanMode 0
  | _ => false

/-- MEM_UNCORR, and with no source REUPLOAD_REQ (R283): `how` is 0 repair queued, 1 no source, 2
queue full. -/
def State.reportLost (s : State) (addr req how : Nat) : State :=
  let s := s.evt 0x0801 (s.memSev addr) 0xFF (regionOf addr) req addr how
  if how = 1 ∧ s.wantsUpload addr then
    s.evt 0x0802 2 0xFF (regionOf addr) 0 addr (s.poisonedIn (regionOf addr))
  else s

/-- A poisoned line enters the repair queue (R278), with how it went. A line whose region has no
source adds 1 to REPAIR_FAIL instead, when it is first found. -/
def State.queueRepair (s : State) (addr : Nat) (known : Bool) : State × Nat :=
  if s.sourceOf addr = 0 then (if known then s else s.bump pRepairFail 1, 1)
  else if s.mem.repairQ.contains addr then (s, 0)
  else if 64 ≤ s.mem.repairQ.length then (s, 2)
  else ({ s with mem := { s.mem with repairQ := s.mem.repairQ ++ [addr] } }, 0)

/-- A line is uncorrectable (R273 step 4, R276, R278, R283): poisoned, logged, queued, MEM latched,
and reported where Talus finds it or where no source exists. A line of the context register file is
rewritten whole by its next write, and is not poisoned (DEDUCED, log 24). -/
def State.lineLost (s : State) (addr req : Nat) : State :=
  let s := (s.errLog addr (if addr < 0x20000000 then 3 else 2) req 0).bump pUncCount 1
  let s := s.latchFault 14
  if 0x20000000 ≤ addr then s
  else
    let known := s.mem.poison.contains addr
    let s := { s with mem := { s.mem with
      poison := if known then s.mem.poison else sortIns addr s.mem.poison } }
    let q := s.queueRepair addr known
    if req = 0 ∨ (q.2 = 1 ∧ !known) then q.1.reportLost addr req q.2 else q.1

/-- Space has freed in an output ring: a RING_OVERFLOW or EVENT_LOST of that ring is posted (R52). -/
def State.spaceFreed (s : State) (r : Nat) : State :=
  if s.outFree r = 0 then s
  else if r < 56 then
    let l := tget (fun _ => {}) s.cmd.lostReply r
    if l.count = 0 then s
    else ({ s with cmd := { s.cmd with lostReply := tdel s.cmd.lostReply r } }).evt
      0x0002 1 l.first r 0 l.count 0
  else
    let n := tget (fun _ => 0) s.cmd.lostEvent r
    if n = 0 then s
    else ({ s with cmd := { s.cmd with lostEvent := tdel s.cmd.lostEvent r } }).evt
      0x0003 1 0xFF r 0 n 0

/-- The reply ring of a packet: that of its port and its own CLASS (R48). -/
def replyRing (p : Pkt) : Nat := 48 + 4 * p.port.num + p.cls

/-- The bytes of a reply (R54). -/
def replyBytes (s : State) (op : Nat) (p : Pkt) (status step steps : Nat) (jseq : Word)
    (results : List Word) (gap dup : Bool) : List Byte :=
  withCrc (leBytes 2 op
    ++ leBytes 1 (p.cls + 8 * b2n p.durable + 16 * b2n p.timed + 32 * b2n gap + 64 * b2n dup + 128)
    ++ leBytes 1 (replyRing p) ++ leBytes 4 p.seq.toNat ++ leBytes 2 s.grp.node.toNat
    ++ leBytes 2 results.length ++ leBytes 4 p.tag.toNat ++ leBytes 2 status ++ leBytes 2 step
    ++ leBytes 2 steps ++ leBytes 2 0 ++ leBytes 4 jseq.toNat ++ wordBytes results)

/-- The (port, ring) pair of a packet as a table number (R49). -/
def pairOf (p : Pkt) : Nat := 64 * p.port.num + p.ring

/-- Post reply bytes to the packet's reply ring, or discard and count them (R52). -/
def State.postReply (s : State) (p : Pkt) (b : List Byte) : State :=
  let r := replyRing p
  if slotsOf b.length ≤ s.outFree r then s.pushOut r { bytes := b, src := p.ring }
  else
    let l := tget (fun _ => {}) s.cmd.lostReply r
    { (s.bump pRepliesLost 1) with cmd := { s.cmd with
      lostReply := tput (fun _ => {}) s.cmd.lostReply r
        { count := l.count + 1, first := if l.count = 0 then p.ring else l.first } } }

/-- Whether a reply is sent (R53), duplicates apart. -/
def replySent (p : Pkt) (status : Nat) : Bool :=
  p.ackreq || !(status = stOk || status = stAccepted)

/-- The engine replies: when R53 says so, and a unicast packet's reply is retained (R51). -/
def State.reply (s : State) (op : Nat) (p : Pkt) (status step steps : Nat) (jseq : Word)
    (results : List Word) (gap : Bool) (keep : Bool) : State :=
  if replySent p status then
    let b := replyBytes s op p status step steps jseq results gap false
    let s := s.postReply p b
    if keep && p.unicast then
      { s with cmd := { s.cmd with kept := tmod (fun _ => []) s.cmd.kept (pairOf p) fun l =>
        ({ seq := p.seq, tag := p.tag, opcode := op, bytes := b } :: l).take 4 } }
    else s
  else s

/-- CMD_DONE (R56): with ACKREQ clear it is posted only if the final status is not OK (R53). -/
def State.cmdDone (s : State) (op : Nat) (p : Pkt) (status : Nat) : State :=
  if p.ackreq || !(status = stOk) then
    s.evt 0x0001 (if status = stOk then 0 else 1) p.ring op status p.seq.toNat p.tag.toNat
  else s

/-! ### The journal (16_journal_recovery_firmware.md R344 to R351) -/

/-- The JSEQ that the next entry takes: one more, 0xFFFF_FFFF skipped (R344, R350). -/
def State.jNext (s : State) : Word :=
  match s.jrn.newest with
  | none => 0
  | some n => if n + 1 = 0xFFFFFFFF then 0 else n + 1

/-- Insert a waiting line in JSEQ order. -/
def jInsert (l : JLine) : List JLine → List JLine
  | [] => [l]
  | a :: r => if l.jseq.toNat < a.jseq.toNat then l :: a :: r else a :: jInsert l r

/-- A state change of an entry waits for MRAM: it replaces one that still waits (R348). Over 64 waiting lines make
the class-0 windows that open long ones, until fewer than 16 wait (R347). -/
def State.jWait (s : State) (j : Word) (durable : Bool) : State :=
  match s.jrn.lines.find? fun l => l.jseq = j with
  | some _ => { s with jrn := { s.jrn with lines := s.jrn.lines.map fun l =>
      if l.jseq = j then { l with durable := l.durable || durable } else l } }
  | none => { s with jrn := { s.jrn with
      slow := s.jrn.slow || decide (64 ≤ s.jrn.lines.length)
      lines := jInsert { jseq := j, durable := durable, since := s.clk } s.jrn.lines } }

/-- The entry of a JSEQ: from the cache, else from MRAM (R349). -/
def State.jEntry (s : State) (j : Word) : Option JEntry :=
  match s.jrn.cache.find? fun e => e.jseq = j with
  | some e => some e
  | none =>
    let e := tget (fun _ => jNone) s.nvm.journal (j.toNat % 16384)
    if e.jseq = j ∧ e ≠ jNone then some e else none

/-- The MRAM address of an entry (R344). -/
def jAddr (j : Word) : Nat := 0x10600000 + 64 * (j.toNat % 16384)

/-- A waiting line goes from the queue. -/
def State.dropLine (s : State) (j : Word) : State :=
  let l := s.jrn.lines.filter fun l => l.jseq ≠ j
  { s with jrn := { s.jrn with
    slow := s.jrn.slow && decide (16 ≤ l.length)
    lines := l } }

/-- The line of an entry is in MRAM (R348, R344). -/
def State.jStore (s : State) (j : Word) : State :=
  match s.jEntry j with
  | none => s.dropLine j
  | some e =>
    let t := s.dropLine j
    { t with nvm := { t.nvm with
      journal := tput (fun _ => jNone) s.nvm.journal (j.toNat % 16384) e } }.lineWhole (jAddr j)

/-- A new entry takes its JSEQ, with its times and FRAME (R344). -/
def State.jAdd (s : State) (e : JEntry) (durable : Bool) : State × Word :=
  let j := s.jNext
  let t := BitVec.ofNat 48 s.us
  let e := { e with jseq := j, time := t, tAccept := t, frame := s.frm.frame }
  let s := { s with jrn := { s.jrn with newest := some j, cache := (e :: s.jrn.cache).take 2048 } }
  (s.jWait j durable, j)

/-- Change fields of an entry, wherever it stands (R349). -/
def State.jPut (s : State) (j : Word) (durable : Bool) (g : JEntry → JEntry) : State :=
  match s.jrn.cache.find? fun e => e.jseq = j with
  | some _ =>
    ({ s with jrn := { s.jrn with cache := s.jrn.cache.map fun (e : JEntry) => if e.jseq = j then g e else e } }).jWait j durable
  | none => { s with nvm := { s.nvm with journal :=
      let e := tget (fun _ => jNone) s.nvm.journal (j.toNat % 16384)
      if e.jseq = j ∧ e ≠ jNone then tput (fun _ => jNone) s.nvm.journal (j.toNat % 16384) (g e)
      else s.nvm.journal } }

/-- Change an entry's state, or the steps in force: its TIME and FRAME are those of the change (R344, R345). -/
def State.jSet (s : State) (j : Word) (durable : Bool) (f : JEntry → JEntry) : State :=
  s.jPut j durable fun e => { f e with time := BitVec.ofNat 48 s.us, frame := s.frm.frame }

/-- A kind-0 entry for a command (R344, R345), in a state. -/
def kind0 (op : Nat) (p : Pkt) (durable timed : Bool) (params : List Byte) (state steps : Nat) : JEntry :=
  let k := BitVec.ofNat 8 (4 * p.port.num + 16 * b2n durable + 32 * b2n timed)
  { jseq := 0
    opcode := BitVec.ofNat 16 op
    ring := BitVec.ofNat 8 p.ring
    kind := k
    seq := p.seq
    tag := p.tag
    state := state
    steps := BitVec.ofNat 16 steps
    digest := w32 (crc32 params) }

/-- An engine record (R346): kind 3, DONE. -/
def State.jRecord (s : State) (code arg : Nat) (note : Nat) : State × Word :=
  s.jAdd
    { jseq := 0
      ring := 0xFF
      kind := 0x0B
      seq := w32 code
      tag := w32 arg
      state := 4
      step := 1
      steps := 1
      note := BitVec.ofNat 64 note } false

/-- The class-0 record that covers an accepted packet (R347): opened, or continued, which is no change of state. -/
def State.coalesce (s : State) (op : Nat) (p : Pkt) : State × Word :=
  let bit : Word := w32 (2 ^ (op - 0x0101))
  match s.jrn.windows.find? fun w => w.port = p.port ∧ w.ring = p.ring with
  | some w =>
    let crc := w32 (crc32From w.crc.toNat p.params)
    let s := s.jPut w.jseq false fun e => { e with tag := p.seq, count := BitVec.ofNat 16 (satAdd 16 e.count.toNat 1), digest := crc, result := e.result ||| bit }
    ({ s with jrn := { s.jrn with windows := s.jrn.windows.map fun x => if x.jseq = w.jseq then { x with crc := crc } else x } }, w.jseq)
  | none =>
    let len := if s.jrn.slow then 100 else s.fld pJrnlCtrl 7 0
    let crc := w32 (crc32 p.params)
    let x := s.jAdd
      { jseq := 0
        opcode := BitVec.ofNat 16 op
        ring := BitVec.ofNat 8 p.ring
        kind := BitVec.ofNat 8 (1 + 4 * p.port.num)
        seq := p.seq
        tag := p.seq
        state := 2
        steps := 1
        count := 1
        digest := crc
        result := bit } false
    ({ x.1 with jrn := { x.1.jrn with windows := x.1.jrn.windows ++
      [{ port := p.port, ring := p.ring, jseq := x.2, crc := crc, opened := s.clk, lenMs := len }] } }, x.2)

/-! ### Free values (DESIGN CHOICE, log 3) -/

/-- The next free value: nothing constrains it. -/
def State.freeW (s : State) : State × Word := ({ s with free := s.free + 1 }, Config.freeWord s.free)

end Sys2Proof.Machine
end

