-- ==== Sys2Proof/Machine/Flags.lean ====
section
/-! DEFINITION. Every flag, status word and output pin that the manual computes from the state: the
status map's counts, SAFE and its causes, FAULTn, ALERTn, the poll word, the timebase's figures and
the values of the RO parameters. -/

namespace Sys2Proof.Machine

/-! ### The pixel array (R10) -/

/-- The tile of a device pixel (R10, R11). -/
def tileOf (x y : Nat) : Nat := x / 256 + 8 * (y / 256)
/-- The row-group of a tile's i-th band of 16 rows: number 16 t + i (R10). -/
def rgTile (g : Nat) : Nat := g / 16
/-- The tile index of a row-group (R24). -/
def rgIdx (g : Nat) : Nat := g % 16
/-- The device coordinates of the n-th cell of a row-group, in order of y and then x (R206). -/
def rgPixel (g n : Nat) : Nat × Nat :=
  (256 * (rgTile g % 8) + n % 256, 256 * (rgTile g / 8) + 16 * rgIdx g + n / 256)

/-! ### The status map (10_pixel_diagnostics_safe_state.md R232) -/

/-- The 4-bit entry of a pixel. -/
def State.mapAt (s : State) (x y : Nat) : Nat :=
  let b := (s.sram (0x900000 + (2048 * y + x) / 2)).toNat
  if x % 2 = 0 then b % 16 else b / 16

/-- Write the entry of a pixel. -/
def State.setMapAt (s : State) (x y e : Nat) : State :=
  let a := 0x900000 + (2048 * y + x) / 2
  let b := (s.sram a).toNat
  s.setSram a [BitVec.ofNat 8 (if x % 2 = 0 then b / 16 * 16 + e % 16 else b % 16 + 16 * (e % 16))]

/-- HMASK of an entry. -/
def mapHmask (e : Nat) : Bool := bitOf e 3
/-- An entry records a confirmed pixel fault (R232). -/
def mapConf (e : Nat) : Bool := bitOf e 2 && decide (e % 4 ≠ 0)
/-- An entry is pending (R232). -/
def mapPend (e : Nat) : Bool := !bitOf e 2 && decide (e % 4 ≠ 0)
/-- An entry marks its pixel masked (R232). -/
def mapMasked (e : Nat) : Bool := mapConf e || mapHmask e

/-- The entries of the status map that are not 0: (x, y, entry), in ascending pixel index. -/
def State.mapList (s : State) : List (Nat × Nat × Nat) :=
  (s.mem.sram.filter fun c => decide (0x900000 ≤ c.1) && decide (c.1 < 0x980000)).flatMap fun c =>
    let i := 2 * (c.1 - 0x900000)
    let lo := c.2.toNat % 16
    let hi := c.2.toNat / 16
    (if lo = 0 then [] else [(i % 2048, i / 2048, lo)])
      ++ (if hi = 0 then [] else [((i + 1) % 2048, (i + 1) / 2048, hi)])

/-- How many entries pass a test. -/
def State.mapCount (s : State) (f : Nat → Bool) : Nat := (s.mapList.filter fun e => f e.2.2).length
/-- How many entries of a tile pass a test. -/
def State.tileCount (s : State) (t : Nat) (f : Nat → Bool) : Nat :=
  (s.mapList.filter fun e => decide (tileOf e.1 e.2.1 = t) && f e.2.2).length
/-- Confirmed faults in the 8 x 8 window with a top-left pixel (R237). -/
def State.winCount (s : State) (x0 y0 : Nat) : Nat :=
  (s.mapList.filter fun e => mapConf e.2.2 && decide (x0 ≤ e.1) && decide (e.1 < x0 + 8)
    && decide (y0 ≤ e.2.1) && decide (e.2.1 < y0 + 8)).length

/-! ### Safe states and pins (R238, R245, R57) -/

/-- The target state of a cause (R239): 2 fallback, 3 limp, 4 dark. -/
def causeTarget (b : Nat) : Nat :=
  match b with
  | 0 => 2 | 1 => 3 | 2 => 4 | 3 => 2 | 4 => 2 | 5 => 3 | 6 => 2 | 7 => 2 | 8 => 4 | 9 => 2
  | 10 => 3 | 11 => 4 | 12 => 3 | 13 => 2 | 14 => 2 | _ => 0

/-- The causes present. -/
def State.causeList (s : State) : List Nat := bitList s.diag.causes.toNat 15

/-- A cause is present. -/
def State.hasCause (s : State) (b : Nat) : Bool := bitOf s.diag.causes.toNat b

/-- The FAULT_LATCH class that a cause's fault sets (R244), if the cause keeps it set. -/
def causeClass (b : Nat) : Option Nat :=
  match b with
  | 0 => some 13 | 1 => some 13 | 2 => some 13 | 3 => some 6 | 4 => some 4 | 5 => some 4
  | 6 => some 5 | 7 => some 7 | 8 => some 7 | 9 => some 9 | 10 => some 10 | 11 => some 8
  | 13 => some 3 | _ => none

/-- A block is marked unusable (13_self_test.md R302): by its bit of UNUSABLE, or 32 + t for the
probe converters of tile t (DEDUCED, log 21). -/
def State.marked (s : State) (b : Nat) : Bool := s.nvm.unusable.contains b

/-- Spur serves a tile whose own scan engine is marked unusable (R238, R298). -/
def State.spurServes (s : State) : Bool :=
  match s.bist.spur with
  | .serving _ => true
  | _ => false

/-- The state that no cause leaves: degraded or normal (R238). -/
def State.causeless (s : State) : Nat :=
  if 0 < s.mapCount mapConf ∨ s.spurServes then 1 else 0

/-- The deepest target among the causes present (R238). -/
def State.target (s : State) : Nat := maxOf (s.causeList.map causeTarget)

/-- EXIT_PENDING (R241): a return at a seam is scheduled. -/
def State.exitPending (s : State) : Bool := s.frm.ret.isSome

/-- FAULTn is asserted (R243, R245): from the start of reset until SAFE first reads 2, and while an
enabled class is latched; in DORMANT it is not driven. -/
def State.faultn (s : State) : Bool :=
  !decide (s.pwr.state = .dormant)
    && (s.diag.inReset || decide (s.diag.latch.toNat &&& s.live pFaultnEn ≠ 0))

/-- Output ring 48 + n holds a record (R47). -/
def State.nonEmpty (s : State) (n : Nat) : Bool := !(s.outRing (48 + n)).isEmpty

/-- NONEMPTY (R47). -/
def State.nonEmptyWord (s : State) : Nat := ofFlags ((List.range 16).map s.nonEmpty)

/-- ALERTn is asserted (R57). -/
def State.alertn (s : State) : Bool :=
  (List.range 16).any (fun n => s.flag pAlertMask n && s.nonEmpty n) || !s.cmd.unack.isEmpty

/-- The 8-byte poll word (R47). -/
def State.pollWord (s : State) : Nat :=
  s.nonEmptyWord + 2 ^ 17 * b2n s.alertn + 2 ^ 18 * b2n s.faultn + 2 ^ 19 * b2n s.cmd.subFull
    + 2 ^ 20 * b2n (!s.cmd.unack.isEmpty) + 2 ^ 24 * s.diag.safe + 2 ^ 32 * s.live pCrcDropsSpi

/-! ### The timebase (03_pixel_drive.md R66, 08_frame_timing_scanout.md R185) -/

/-- N of a timing: 4, 8, 16 or 32. -/
def timingN (t : Timing) : Nat := 2 ^ (t.nCode + 2)
/-- MUL of a timing: 1, 2, 4 or 8. -/
def timingMul (t : Timing) : Nat := 2 ^ t.mulCode
/-- T_frame in ps. -/
def timingFramePs (t : Timing) : Nat := t.syncPs / timingMul t
/-- T_pwm in ps. -/
def timingPwmPs (t : Timing) : Nat := t.syncPs / (timingMul t * timingN t)
/-- The PWM rate in mHz at the nominal rate. -/
def timingRate (t : Timing) : Nat := timingMul t * t.nom * timingN t
/-- Paired cadence (R24): the PWM rate is above 2,400 Hz. -/
def timingPaired (t : Timing) : Bool := decide (2400000 < timingRate t)

/-- The length of the sub-frame in progress, in ps (R66, R196). -/
def State.pwmPs (s : State) : Nat :=
  match s.frm.change with
  | some c => if c.inBridge ∧ c.oldSubs ≤ s.frm.index then c.bridgePs else timingPwmPs s.frm.timing
  | none => timingPwmPs s.frm.timing
/-- t_step in ps (R66), rounded down to a whole ps, as DRIVE_STATUS reports it (DESIGN CHOICE: R66 gives no
rounding; log 39). -/
def stepPs (pwm : Nat) : Nat := (pwm - 4000000) / 1024
/-- The start of slot n within a sub-frame, in ps. -/
def slotPs (pwm n : Nat) : Nat := n * pwm / 64
/-- Paired cadence in force. -/
def State.paired (s : State) : Bool := timingPaired s.frm.timing
/-- T_frame in ns. -/
def State.frameNs (s : State) : Nat := timingFramePs s.frm.timing / 1000

/-- The sync state's code (R187, R210). -/
def syncCode : SyncState → Nat
  | .free => 0 | .acquiring => 1 | .locked => 2 | .holdover => 3 | .switching => 4

/-- The lane stage's code (STATUS_GET). -/
def stageCode : Stage → Nat
  | .detect => 0 | .train => 1 | .lock => 2 | .caps => 3 | .active => 4

/-- A lane's state. -/
def State.lane (s : State) : Lane → LaneSt
  | .a => s.link.laneA
  | .b => s.link.laneB

/-- Write a lane's state. -/
def State.setLane (s : State) (l : Lane) (v : LaneSt) : State :=
  match l with
  | .a => { s with link := { s.link with laneA := v } }
  | .b => { s with link := { s.link with laneB := v } }

/-- The power state's code (R339). -/
def powerCode : Power → Nat
  | .active => 0 | .idle => 1 | .standby => 2 | .dormant => 3

/-- The time state's code (R335). -/
def timeCode : TimeState → Nat
  | .unset => 0 | .set => 1 | .estimated => 2 | .invalid => 3

/-- The slot state's code (R362). -/
def slotCode : SlotState → Nat
  | .empty => 0 | .staging => 1 | .staged => 2 | .active => 3 | .trial => 4

/-- The tile's registers. -/
def State.tile (s : State) (t : Nat) : Tile := tget (fun _ => {}) s.pix.tiles t
/-- Change a tile's registers. -/
def State.modTile (s : State) (t : Nat) (f : Tile → Tile) : State :=
  { s with pix := { s.pix with tiles := tmod (fun _ => {}) s.pix.tiles t f } }
/-- A row-group's state. -/
def State.rg (s : State) (g : Nat) : RowGroup := tget (fun _ => {}) s.pix.groups g
/-- Change a row-group's state. -/
def State.modRg (s : State) (g : Nat) (f : RowGroup → RowGroup) : State :=
  { s with pix := { s.pix with groups := tmod (fun _ => {}) s.pix.groups g f } }
/-- A string channel. -/
def State.chan (s : State) (n : Nat) : Channel := tget (fun _ => {}) s.str.chan n
/-- Change a string channel. -/
def State.modChan (s : State) (n : Nat) (f : Channel → Channel) : State :=
  { s with str := { s.str with chan := tmod (fun _ => {}) s.str.chan n f } }
/-- A Crest engine. -/
def State.crest (s : State) (k : Nat) : Crest := tget (fun _ => {}) s.str.crest k
/-- Change a Crest engine. -/
def State.modCrest (s : State) (k : Nat) (f : Crest → Crest) : State :=
  { s with str := { s.str with crest := tmod (fun _ => {}) s.str.crest k f } }
/-- A sensor. -/
def State.sensor (s : State) (n : Nat) : Sensor := tget (fun _ => {}) s.thm.sensors n

/-! ### Power (15_power_states.md R330) -/

/-- A block of R330 has quiesced in the sleep negotiation under way. -/
def State.quiesced (s : State) (b : Nat) : Bool :=
  match s.pwr.nego with
  | some n => n.done.contains b
  | none => false

/-- A sleep negotiation toward STANDBY or DORMANT is under way. -/
def State.sleeping (s : State) : Bool :=
  match s.pwr.nego with
  | some n => decide (2 ≤ n.target)
  | none => false

/-- The pixel array takes no composed codes: dark, or its block has quiesced (R240, R330). -/
def State.pixDark (s : State) : Bool := decide (s.diag.safe = 4) || s.pwr.pixOff

/-! ### Contexts and scenes -/

/-- The active object contexts, ascending (R123). -/
def State.activeCtx (s : State) : List (Nat × ObjCtx) := s.shd.ctx.filter fun e => e.2.active

/-- ms until the FORCE_LEVEL hold ends (R136), a part of a ms counted as one (DESIGN CHOICE: R136 gives no
rounding; log 39). -/
def State.forceLeft (s : State) : Nat :=
  if s.shd.force.hold = 0 then 0
  else
    let age := (s.us + 2 ^ 48 - s.shd.force.start.toNat) % 2 ^ 48
    ceilDiv (1000 * s.shd.force.hold.toNat - age) 1000

/-- A scene's directory entry in force: scene 0's current slot, or the scene's slot (R99). -/
def State.sceneValid (s : State) (n : Nat) : Bool :=
  if n = 0 then (if s.nvm.slotQ then s.nvm.sceneQ.valid else (tget (fun _ => {}) s.nvm.scenes 0 : SceneEntry).valid)
  else (tget (fun _ => {}) s.nvm.scenes n : SceneEntry).valid

/-- The crossfade weight of the k-th seam since the commit (R96). -/
def mixWeight (cfg time k : Nat) : Nat :=
  let a := bits cfg 16 8
  let b := bits cfg 25 17
  let d := bits time 15 0
  if k < d then ((a : Int) + ((b : Int) - a) * k / d).toNat else b

/-- The first k at which `mixWeight` is W_END: a falling fade reaches it early, by its floor (R96). -/
def mixEnd (cfg time : Nat) : Nat :=
  let a := bits cfg 16 8
  let b := bits cfg 25 17
  let d := bits time 15 0
  if a = b ∨ d = 0 then 0 else if a < b then d else (a - b - 1) * d / (a - b) + 1

/-- Frames until w = W_END, saturating at 0xFFFF (R118). -/
def State.mixLeft (s : State) : Nat :=
  min (mixEnd (s.live pMixCfg) (s.live pMixTime) - s.comp.mixK) 0xFFFF

/-- SCENE_STATE (R118). -/
def State.sceneState (s : State) : Nat :=
  ofFlags ((List.range 16).map s.sceneValid) + 2 ^ 16 * b2n s.nvm.locked + 2 ^ 17 * b2n s.nvm.slotQ

/-- Lines poisoned in SRAM and in MRAM (R288). -/
def State.poisonedWord (s : State) : Nat :=
  let a := (s.mem.poison.filter fun x => decide (x < 0x10000000) && !s.cmd.written.contains x).length
  let b := (s.mem.poison.filter fun x => decide (0x10000000 ≤ x) && decide (x < 0x20000000)).length
  min a 65535 + 65536 * min b 65535

/-- Free spare sectors (R288): state 0 of `nvm.spares`. -/
def State.spareFree (s : State) : Nat :=
  ((List.range 8).filter fun i => tget (fun _ => 0) s.nvm.spares i = 0).length

/-- JRNL_LAG: ms that the oldest waiting line has waited (R362). -/
def State.jrnlLag (s : State) : Nat :=
  maxOf (s.jrn.lines.map fun l => (s.clk - l.since) / 1000000)

/-- THERM_FAILED (R318). -/
def State.thermFailed (s : State) : Nat :=
  ofFlags ((List.range 22).map fun n => (s.sensor n).failed
    || (n = 20 && !s.flag pThermCtrl 2) || (n = 21 && !s.flag pThermCtrl 3))

/-- The word of OPEN and SHORT marks of a channel (R227). -/
def State.strFaults (s : State) (n : Nat) : Nat :=
  let c := s.chan n
  let at_ := fun (i : Nat) => (tget (fun _ => {}) c.pos i : Position)
  ofFlags ((List.range 16).map fun i => (at_ i).opened)
    + 65536 * ofFlags ((List.range 16).map fun i => (at_ i).shorted)

/-! ### Values of the parameters as read (R60) -/

/-- The value of an RO parameter, or of an RW one whose register is a field of the state. -/
def State.roValue (s : State) (id : Nat) : Option Nat :=
  if id = pDeviceId then some 0x1048
  else if id = pFrameCtrl then some (b2n s.prm.commit)
  else if id = pFrameNum then some s.frm.frame.toNat
  else if id = pCommitStatus then some s.frm.commitFrame.toNat
  else if 0x0103 ≤ id ∧ id ≤ 0x0106 then
    some (ofFlags ((List.range 32).map fun i => (s.ctx (32 * (id - 0x0103) + i)).active))
  else if id = pStaleCount then some (s.activeCtx.filter fun e => e.2.stale).length
  else if id = pForceState then some (s.shd.force.tiles.toNat + 65536 * s.shd.force.level.toNat)
  else if id = pForceLeft then some s.forceLeft
  else if id = pMixState then some (s.comp.weight + 65536 * s.mixLeft)
  else if id = pBendNow then some (twos 16 s.comp.shiftX + 65536 * twos 16 s.comp.shiftY)
  else if id = pSceneState then some s.sceneState
  else if id = pCompPix then some s.comp.compPix
  else if id = pVfbCode then some s.pix.vfb.toNat
  else if id = pModelK then some s.sad.k
  else if id = pThermalTf then some s.sad.tfLat
  else if 0x0510 ≤ id ∧ id ≤ 0x0513 then some (s.strFaults (id - 0x0510))
  else if 0x0518 ≤ id ∧ id ≤ 0x051B then
    some ((s.chan (id - 0x0518)).d + 65536 * (s.chan (id - 0x0518)).fbCode)
  else if 0x0530 ≤ id ∧ id ≤ 0x0537 then
    some ((s.crest (id - 0x0530)).c + 65536 * (s.crest (id - 0x0530)).m.toNat)
  else if id = pFaultLatch then some s.diag.latch.toNat
  else if id = pSafeCauses then some s.diag.causes.toNat
  else if id = pPixFaults then some (s.mapCount mapConf)
  else if id = pPixHmask then some (s.mapCount mapHmask)
  else if id = pPixPending then some (s.mapCount mapPend)
  else if id = pCalGen then some (if s.cal.copy.isSome then s.cal.gen.toNat else 0)
  else if id = pCalCopy then
    some ((match s.cal.copy with | none => 3 | some c => c) + 4 * b2n s.cal.buildId.isSome + 8 * b2n s.cal.built)
  else if id = pPoisoned then some s.poisonedWord
  else if id = pSpareFree then some s.spareFree
  else if id = pCycleMs then some s.bist.cycleMs
  else if id = pThermNow then some (s.thm.tf + 8192 * s.thm.level + 65536 * twos 16 s.thm.tTh)
  else if id = pThermFailed then some s.thermFailed
  else if id = pPwrMode then some (powerCode s.pwr.state)
  else if id = pPwrFault then some s.pwr.fault.toNat
  else if id = pJrnlNewest then some (match s.jrn.newest with | none => 0xFFFFFFFF | some n => n.toNat)
  else if id = pJrnlLag then some s.jrnlLag
  else if id = pFwFloor then some s.nvm.floor.toNat
  else if id = pFwSlots then some (slotCode s.nvm.slotA + 8 * slotCode s.nvm.slotB)
  else if id = pAuthRequire then some s.nvm.require.toNat
  else if id = pNodeAddr then some s.grp.node.toNat
  else if id = pGroupsLo then some (s.grp.groups.toNat % 2 ^ 32)
  else if id = pGroupsHi then some (s.grp.groups.toNat / 2 ^ 32)
  else if id = pTqCount then some s.grp.queue.length
  else none

/-- The value of a parameter as PARAM_GET reads it. -/
def State.prmRead (s : State) (id : Nat) : Nat :=
  match s.roValue id with
  | some v => v
  | none => s.live id

end Sys2Proof.Machine
end

