-- ==== Sys2Proof/Machine/Lines.lean ====
section
/-! DEFINITION. Lines of memory (12_memory_integrity.md R272 to R278): where the data of a region stands, the
errors that stand in lines, a read of a line with its retry and its source, and the part of a partial write
that reads. -/

namespace Sys2Proof.Machine

/-! ### Where the calibration image and the scenes stand (R99, R251 to R256) -/

/-- The address of copy A or B. -/
def calBase (c : Nat) : Nat := if c = 0 then 0x10000000 else 0x10200000
/-- The address of a tile segment of a copy. -/
def segBase (c t : Nat) : Nat := calBase c + 0x1000 + 0x1D000 * t
/-- The address of the device record of a copy. -/
def devBase (c : Nat) : Nat := calBase c + 0x1D1000
/-- The address of the map record of a copy. -/
def mapBase (c : Nat) : Nat := calBase c + 0x1D2000

/-- A little-endian number in MRAM. -/
def State.mramLe (s : State) (a n : Nat) : Nat := ofLe (s.mramBytes a n)

/-- COUNT of a copy's map record. -/
def State.mapCountOf (s : State) (c : Nat) : Nat := s.mramLe (mapBase c) 4
/-- A trim of a packed run (R252). -/
def trimAt (l : List Byte) (k : Nat) : Nat :=
  ofLe ((l.drop (3 * (k / 4))).take 3) / 2 ^ (6 * (k % 4)) % 64

/-- The MRAM address of a scene's current slot, and of the slot that a store writes (R99, R120). -/
def State.sceneSlot (s : State) (n : Nat) : Nat :=
  if n = 0 ∧ s.nvm.slotQ then 0x10700000 else 0x10400000 + 65536 * n
/-- See `State.sceneSlot`. -/
def State.storeSlot (s : State) (n : Nat) : Nat :=
  if n = 0 then (if s.nvm.slotQ then 0x10400000 else 0x10700000) else 0x10400000 + 65536 * n

/-! ### The sources of lines (R274) -/

/-- Entries of the active copy's map record whose pixels lie in a status-map line: (pixel, entry). -/
def State.recordIn (s : State) (a : Nat) : List (Nat × Nat) :=
  match s.cal.copy with
  | none => []
  | some c =>
    let l := (List.range (s.mapCountOf c)).map fun k => s.mramLe (mapBase c + 4 + 4 * k) 4
    let first := 2 * (a - 0x900000)
    (l.map fun w => (bits w 10 0 + 2048 * bits w 19 11, bits w 23 20)).filter fun e =>
      decide (first ≤ e.1) && decide (e.1 < first + 128)

/-- The byte of a working copy of gains or trims recomputed from the active copy (R274). -/
def State.workByte (s : State) (a : Nat) : Byte :=
  let trims := decide (0x700000 ≤ a)
  let k := if trims then a - 0x700000 else a - 0x600000
  let x := k % 2048
  let y := k / 2048
  let i := 256 * (y % 256) + x % 256
  match s.cal.copy with
  | none => if trims then 32 else 255
  | some c =>
    if trims then BitVec.ofNat 8 (trimAt (s.mramBytes (segBase c (tileOf x y) + 0x10000) 0xC000) i)
    else s.mram (segBase c (tileOf x y) + i)

/-- The scene that an MRAM line belongs to, and its offset there. -/
def sceneLine (a : Nat) : Nat × Nat :=
  if 0x10700000 ≤ a then (0, a - 0x10700000) else ((a - 0x10400000) / 65536, a % 65536)

/-- The directory entry of the slot that an MRAM line lies in. -/
def State.slotEntry (s : State) (a : Nat) : SceneEntry :=
  if 0x10700000 ≤ a then s.nvm.sceneQ else tget (fun _ => {}) s.nvm.scenes (sceneLine a).1

/-- What the next read of a line meets (R273). -/
def State.meets (s : State) (a : Nat) : LineRead := (s.mem.errs.lookup a).getD .good

/-- A line can be read: it is not poisoned, and passes its check at the first or the second read. -/
def State.clean (s : State) (a : Nat) : Bool :=
  !s.mem.poison.contains a && match s.meets a with
    | .good => true
    | .retry => true
    | _ => false

/-- The lines of the active copy that a line of gains or trims is recomputed from (R252, R274). -/
def State.workSource (s : State) (a : Nat) : List Nat :=
  let trims := decide (0x700000 ≤ a)
  let k := if trims then a - 0x700000 else a - 0x600000
  let i := 256 * (k / 2048 % 256) + k % 256
  match s.cal.copy with
  | none => []
  | some c =>
    let b := segBase c (tileOf (k % 2048) (k / 2048))
    if trims then linesOf (b + 0x10000 + i / 4 * 3) 48 else [b + i]

/-- The lines of the map record that a line of the status map is rebuilt from (R256, R274). -/
def State.mapSource (s : State) : List Nat :=
  match s.cal.copy with
  | none => []
  | some c => linesOf (mapBase c) (4 + 4 * s.mapCountOf c)

/-- The line of the running firmware slot that a line of instructions was copied from (R17, R274). -/
def State.codeSource (s : State) (a : Nat) : Nat := slotBase s.nvm.running + (a - 0xA00000)

/-- The partner copy of a line of the journal cache and scratch region (R274): the cache stands in two halves of
128 KiB (R349), the scratch lines likewise (DESIGN CHOICE: the manual does not give their places; log 40). -/
def partnerOf (a : Nat) : Nat := if bitOf a 17 then a - 0x20000 else a + 0x20000

/-- The cache entry whose line in MRAM a journal line is (R274, R344). -/
def State.cachedAt (s : State) (a : Nat) : Option JEntry :=
  s.jrn.cache.find? fun x => decide (x.jseq.toNat % 16384 = (a - 0x10600000) / 64)

/-- A line's source can be used as the state stands (R274): the lines that it is taken from can be read; for a
scene slot the working copy matches the directory; for the journal the cache still holds the entry. -/
def State.sourceStands (s : State) (a : Nat) : Bool :=
  match regionOf a with
  | 0 => s.clean (a + 0x200000)
  | 1 => s.clean (a - 0x200000)
  | 3 => (s.workSource a).all s.clean
  | 4 => (s.workSource a).all s.clean
  | 5 => s.clean (s.sceneSlot ((a - 0x800000) / 65536) + a % 65536)
  | 6 => s.mapSource.all s.clean
  | 8 => s.codeLine a && s.clean (s.codeSource a)
  | 9 => s.clean (partnerOf a)
  | 18 => decide ((s.slotEntry a).crc = w32 (crc32 (s.sramBytes (0x800000 + 65536 * (sceneLine a).1) 65536)))
  | 22 => decide (a < 0x10710000)
      && decide (s.nvm.sceneQ.crc = w32 (crc32 (s.sramBytes 0x800000 65536)))
  | 21 => (s.cachedAt a).isSome
  | _ => decide (s.sourceOf a ≠ 0)

/-- The good content of a line goes back into it. What the sequencer region holds is no part of the state: a
line of instructions there is a copy of its slot's line. -/
def State.restoreLine (s : State) (a : Nat) : State :=
  match regionOf a with
  | 0 => s.setSram a (s.sramBytes (a + 0x200000) 64)
  | 1 => s.setSram a (s.sramBytes (a - 0x200000) 64)
  | 3 => s.setSram a ((List.range 64).map fun i => s.workByte (a + i))
  | 4 => s.setSram a ((List.range 64).map fun i => s.workByte (a + i))
  | 5 => s.setSram a (s.mramBytes (s.sceneSlot ((a - 0x800000) / 65536) + a % 65536) 64)
  | 6 =>
    (s.recordIn a).foldl (fun s e => s.setMapAt (e.1 % 2048) (e.1 / 2048) e.2) (s.setSram a (List.replicate 64 0))
  | 9 => s.setSram a (s.sramBytes (partnerOf a) 64)
  | 18 => s.setMram a (s.sramBytes (0x800000 + 65536 * (sceneLine a).1 + (sceneLine a).2) 64)
  | 21 => match s.cachedAt a with
    | some e => { s with nvm := { s.nvm with
        journal := tput (fun _ => jNone) s.nvm.journal ((a - 0x10600000) / 64) e } }
    | none => s
  | 22 => s.setMram a (s.sramBytes (0x800000 + (sceneLine a).2) 64)
  | _ => s

/-! ### Reads of lines (R273 to R276) -/

/-- The check that stands beside a sound line: CRC-16 over its 64 bytes and its address (R272). No read returns it:
the state holds which lines' checks do not match (`errs`), and with what outcome of a second read. -/
def State.lineCheck (s : State) (a : Nat) : Nat :=
  crcOf 16 0x1021 0xFFFF false false 0 ((List.range 64).map (fun i => s.byte (a + i)) ++ leBytes 4 a)

/-- The lines of the ring pool that packets and records have been written to are written whole (R277). -/
def State.ringsWritten (s : State) : State :=
  ({ s with cmd := { s.cmd with written := [] } }).wholeWritten fun a => s.cmd.written.contains a

/-- Errors arise in lines, and stand there until the line is read or written whole (R273; DESIGN CHOICE: the
manual does not say when errors come about; log 40). -/
def State.arise (s : State) (ups : Upsets) : State :=
  let s := s.ringsWritten
  { s with mem := { s.mem with errs := ups ++ s.mem.errs.filter fun e => (ups.lookup e.1).isNone } }

/-- No error stands in a line any more. -/
def State.errGone (s : State) (a : Nat) : State :=
  { s with mem := { s.mem with errs := s.mem.errs.filter fun e => decide (e.1 ≠ a) } }

/-- A line that fails twice is taken from its source, within the requester's limit, and written back; else it is
uncorrectable (R273 steps 3 and 4). -/
def State.refetch (s : State) (req a : Nat) : State × Bool :=
  if s.sourceUsed req a && s.sourceStands a then ((s.restoreLine a).lineCorrected a req (s.sourceOf a), true)
  else (s.lineLost a req, false)

/-- One read of a line by a requester (R273): whether it was returned good. -/
def State.readLine (s : State) (req a : Nat) : State × Bool :=
  if s.mem.poison.contains a then (s.lineLost a req, false)
  else match s.meets a with
    | .good => (s, true)
    | .retry => ((s.errGone a).lineCorrected a req 1, true)
    | .source => (s.errGone a).refetch req a
    | .lost => ((s.errGone a).lineLost a req, false)

/-- Reads of several lines in order, up to the first that fails: its address. -/
def State.readLines (s : State) (req : Nat) : List Nat → State × Option Nat
  | [] => (s, none)
  | a :: r =>
    let x := s.readLine req a
    if x.2 then x.1.readLines req r else (x.1, some a)

/-- Reads of several lines, each of them: the lines that fail. -/
def State.readEach (s : State) (req : Nat) (l : List Nat) : State × List Nat :=
  l.foldl (fun x a =>
    let y := x.1.readLine req a
    if y.2 then (y.1, x.2) else (y.1, x.2 ++ [a])) (s, [])

/-- The lines that do not simply pass: poisoned, or with an error in them; ascending. -/
def State.troubled (s : State) : List Nat := sortNat ((s.mem.poison ++ s.mem.errs.map (·.1)).eraseDups)

/-- The troubled lines of a span. A read of the span reads every line of it; the others pass and nothing comes
of them. -/
def State.troubledIn (s : State) (a n : Nat) : List Nat :=
  s.troubled.filter fun l => decide (lineOf a ≤ l) && decide (l < a + n)

/-- Every line of a span is read: the lines that fail. -/
def State.readSpan (s : State) (req a n : Nat) : State × List Nat := s.readEach req (s.troubledIn a n)

/-! ### Writes of MRAM lines (R284) -/

/-- The free spare sectors from one on. -/
def State.freeSpare (s : State) (k : Nat) : Option Nat :=
  (List.range 8).find? fun i => decide (k ≤ i) && decide (tget (fun _ => 0) s.nvm.spares i = 0)

/-- The logical sector of a line of MRAM. -/
def sectorOf (a : Nat) : Nat := (a - 0x10000000) / 65536

/-- The sector of a line is remapped to a spare sector (R284): its lines are copied, each that cannot be read
with its poison bit set, and both copies of the remap table are written. -/
def State.remapSector (s : State) (a k : Nat) : State :=
  let sec := sectorOf a
  let s := (s.readSpan 7 (0x10000000 + 65536 * sec) 65536).1
  let spares := match tget (fun _ => none) s.nvm.remap sec with
    | some o => tput (fun _ => 0) s.nvm.spares o 2
    | none => s.nvm.spares
  let s := { s with nvm := { s.nvm with
    remap := tput (fun _ => none) s.nvm.remap sec (some k)
    remapTwin := tput (fun _ => none) s.nvm.remapTwin sec (some k)
    spares := tput (fun _ => 0) spares k 1 } }
  s.evt 0x0804 (if s.spareFree = 0 then 2 else 1) 0xFF sec (120 + k) a s.spareFree

/-- No spare sector is free: the write of a line fails, and the line is poisoned (R284). -/
def State.writeFails (s : State) (a : Nat) : State :=
  let s := { s with mem := { s.mem with
    poison := if s.mem.poison.contains a then s.mem.poison else sortIns a s.mem.poison } }
  s.evt 0x0804 2 0xFF (sectorOf a) 0xFFFF a 0

/-- A line of MRAM is written and read back: whether the write is good. Cells that give nothing good (the outcome
`lost` of a read) fail the write and its retries too, and the line's sector is remapped (R284; DESIGN CHOICE: the
manual does not say when a write fails; log 40). -/
def State.verifyLine (s : State) (a : Nat) : State × Bool :=
  if s.meets a ≠ .lost then (s, true)
  else match s.freeSpare 0 with
    | some k => ((s.errGone a).remapSector a k, true)
    | none => ((s.errGone a).writeFails a, false)

/-- The lines of a span are written and read back, up to the first whose write fails. -/
def State.verifyLines (s : State) : List Nat → State × Bool
  | [] => (s, true)
  | a :: r =>
    let x := s.verifyLine a
    if x.2 then x.1.verifyLines r else x

/-! ### Writes of a part of a line (R272, R277) -/

/-- What a write of bytes reads first (R272, R277): a line that it writes only in part. A poisoned one refuses
the write unread; else each is read as its requester reads, and one that fails refuses it too. -/
def State.readParts (s : State) (req a n : Nat) : State × Bool :=
  if s.partPoisoned a n then (s, false)
  else
    let r := s.readEach req (partLines a n)
    (r.1, r.2.isEmpty)

end Sys2Proof.Machine
end

