-- ==== Sys2Proof/Machine/Safe.lean ====
section
/-! DEFINITION. Causes and safe states (10_pixel_diagnostics_safe_state.md R238 to R243), the
parameter writes with an effect of their own, ends of commands, and what a full reset leaves
(16_journal_recovery_firmware.md R352). -/

namespace Sys2Proof.Machine

/-! ### Generation and commits (08_frame_timing_scanout.md R193) -/

/-- The provisional set changes: the generation count advances (R193). -/
def State.bumpGen (s : State) : State := { s with frm := { s.frm with gen := s.frm.gen + 1 } }

/-- FRAME_CTRL.COMMIT is set (R191). Set again while it is pending, the generation advances too, although no shadow
has changed: R193 names the setting of COMMIT (DESIGN CHOICE, log 40). -/
def State.setCommit (s : State) : State := ({ s with prm := { s.prm with commit := true } }).bumpGen

/-- A shadow write of an S parameter (R60, R98, R193). -/
def State.shadowWrite (s : State) (id v : Nat) : State :=
  let s := s.setShadow id v
  let s := if id = pMixCfg ∨ id = pMixTime then { s with prm := { s.prm with mixWritten := true } } else s
  if s.prm.commit then s.bumpGen else s

/-- SYNC_STATE (R210). -/
def State.syncEvt (s : State) (old : SyncState) : State :=
  s.evt 0x0204 (if s.frm.state = .locked then 0 else 1) 0xFF (syncCode s.frm.state) (syncCode old)
    s.frm.tSyncNs s.frm.frame.toNat

/-- Change the sync state, raising SYNC_STATE when it changes (R187, R195). -/
def State.setSync (s : State) (n : SyncState) : State :=
  if s.frm.state = n then s
  else ({ s with frm := { s.frm with state := n } }).syncEvt s.frm.state

/-- The timing that the parameters now name (R185). -/
def State.timingWanted (s : State) (syncPs : Nat) : Timing :=
  { nCode := s.fld pFrameTiming 1 0
    mulCode := s.fld pFrameTiming 5 4
    nom := s.live pSyncNom
    phase := BitVec.ofNat 16 (s.live pSyncPhase)
    syncPs := syncPs }

/-- The nominal sync period in ps. -/
def nomPs (mHz : Nat) : Nat := 10 ^ 15 / mHz

/-- A write to FRAME_TIMING, SYNC_NOM or SYNC_PHASE starts a timing change (R195), which a further one of the same
command goes on with. The frequency stays, in holdover the last locked one (R187), unless SYNC_NOM changes. While the
PTB has not started, the timing is simply the new one. -/
def State.timingWrite (s : State) : State :=
  let base := match s.frm.change with | some c => c.next | none => s.frm.timing
  let t := s.timingWanted (if base.nom = s.live pSyncNom then base.syncPs else nomPs (s.live pSyncNom))
  if s.frm.running then
    let bridge := match s.frm.change with | some c => c.bridge | none => decide (s.frm.state = .locked)
    ({ s with frm := { s.frm with change := some { next := t, bridge := bridge, sAt := s.clk } } }).setSync .switching
  else { s with frm := { s.frm with timing := t } }

/-- A timing that runs free at its SYNC_NOM (R187). -/
def Timing.free (t : Timing) : Timing := { t with syncPs := nomPs t.nom }

/-- A change whose tracker is turned off: with no bridge, unless that is fixed, and free (R187, R195). -/
def Change.free (c : Change) (now : Nat) : Change :=
  if c.fixed then c else { c with next := c.next.free, bridge := false, sAt := if c.bridge then now else c.sAt }

/-- A write to SYNC_CTRL: SYNC_EN turned off frees the PTB, which then runs at SYNC_NOM; turned on it acquires again
(R187). -/
def State.syncCtrlWrite (s : State) (old : Nat) : State :=
  let en := s.flag pSyncCtrl 0
  if en = bitOf old 0 then s
  else
    let s := { s with frm := { s.frm with acquired := false, edgeRun := 0, lastEdge := none } }
    if s.frm.state = .switching then
      if en then s else { s with frm := { s.frm with change := s.frm.change.map (Change.free · s.clk) } }
    else
      (if en then s else { s with frm := { s.frm with timing := s.frm.timing.free } }).setSync
        (if en then .acquiring else .free)

/-- A write to BUDGET: when it is lowered, the larger value goes on as the trip threshold until the
first sub-frame planned with the new one ends (R153). -/
def State.budgetWrite (s : State) (v : Nat) : State :=
  let old := s.live pBudget
  let s := if v < old then
      { s with sad := { s.sad with oldBudget := some (max old (s.sad.oldBudget.getD 0)), oldEnd := none } }
    else s
  s.setLive pBudget v

/-- VFB_CODE follows CODE_MIN while it is forced, and MANUAL while VFB_EN is 0 (R81, R420). -/
def State.vfbFollow (s : State) : State :=
  if s.pix.wasForced then { s with pix := { s.pix with vfb := BitVec.ofNat 8 (s.fld pVfbLimits 7 0) } }
  else if s.flag pVfbCtrl 0 then s
  else { s with pix := { s.pix with vfb := BitVec.ofNat 8 (s.fld pVfbLimits 23 16) } }

/-- A parameter is written: its shadow copy if it is marked S, else with effect at once (R60,
spec/95 PARAM_WRITE, COMMIT_SET, COUNTER_CLEAR, TIMING_WRITE, MODEL_K_SEED). -/
def State.prmWrite (s : State) (id v : Nat) : State :=
  if prmShadowed id then s.shadowWrite id v
  else if id = pFrameCtrl then (if bitOf v 0 then s.setCommit else s)
  else if id = pModelK then { s with sad := { s.sad with k := v, kRun := 0 } }
  else if id = pFwFloor then { s with nvm := { s.nvm with floor := w32 v } }
  else if id = pAuthRequire then { s with nvm := { s.nvm with require := w32 v } }
  else if id = pFrameTiming ∨ id = pSyncNom ∨ id = pSyncPhase then (s.setLive id v).timingWrite
  else if id = pSyncCtrl then (s.setLive id v).syncCtrlWrite (s.live id)
  else if id = pBudget then
    s.budgetWrite v
  else if id = pVfbCtrl then
    let q := if bitOf v 0 && !s.flag pVfbCtrl 0 then 0 else s.pix.quiet
    (({ s with pix := { s.pix with quiet := q } }).setLive id v).vfbFollow
  else if id = pVfbLimits then (s.setLive id v).vfbFollow
  else s.setLive id v

/-! ### Ends of commands (R53, R345, R413) -/

/-- The journal state that a final status leaves (R345): DONE when every step is in force, PARTIAL
when some may be, ABORTED when nothing is. -/
def endState (status step steps : Nat) (partly : Bool) : Nat :=
  if steps ≤ step then 4 else if 0 < step ∨ partly then 3 else if status = stOk then 4 else 5

/-- A durable line is in MRAM before the reply (R348); while journal writes wait it stays in the
cache (R314, R348). One whose write fails is lost. -/
def State.jKeep (s : State) (j : Word) : State :=
  if s.thm.jInhibit then s.jWait j true
  else
    let v := s.verifyLine (jAddr j)
    if v.2 then v.1.jStore j else v.1.dropLine j

/-- A command's entry takes its final state (R345). -/
def State.jFinal (s : State) (j : Word) (durable : Bool) (status step steps : Nat) (partly : Bool)
    (result : Word) : State :=
  s.jSet j durable fun e => { e with
    state := endState status step steps partly
    status := BitVec.ofNat 16 status
    step := BitVec.ofNat 16 step
    steps := BitVec.ofNat 16 steps
    result := result }

/-- A job is no longer under way. -/
def State.dropJob (s : State) (b : Job) : State :=
  { s with cmd := { s.cmd with jobs := s.cmd.jobs.filter fun x => x.jseq ≠ b.jseq } }

/-- The reply slots that a held reply keeps (R52). -/
def heldSlots : Nat := 1

/-- A held reply no longer keeps its slots. -/
def State.dropHeld (s : State) (p : Pkt) (j : Word) : State :=
  { s with cmd := { s.cmd with
    held := s.cmd.held.filter fun h => !(h.jseq = j && h.pkt = p)
    reserved := tmod (fun _ => 0) s.cmd.reserved (replyRing p) (· - heldSlots) } }

/-- A held reply is sent (R413 code D): as a reply, or as CMD_DONE for a timed command. -/
def State.answerHeld (s : State) (op : Nat) (p : Pkt) (j : Word) (gap : Bool) (status step : Nat)
    (results : List Word) : State :=
  if p.timed then s.cmdDone op p status
  else s.reply op p status step 1 j results gap true

/-! ### Causes and safe states -/

/-- EN_n goes low: the switches close (R213). -/
def Channel.off (c : Channel) : Channel :=
  { c with
    en := false
    fbCode := 0
    pos := (List.range 16).foldl (fun t p => tmod (fun _ => {}) t p fun (x : Position) =>
      { x with lit := none, before := none }) c.pos }

/-- Every string channel's drive goes low and its switches close (R222). -/
def State.shutStrings (s : State) : State :=
  { s with str := { s.str with chan := (List.range 4).foldl (fun t n =>
      tmod (fun _ => {}) t n fun (c : Channel) => c.off) s.str.chan } }

/-- Every tile's reference DAC is set to one state (R240, R241, R153). -/
def State.setDacs (s : State) (d : Dac) : State :=
  (List.range 16).foldl (fun s t => s.modTile t fun x => { x with dac := d }) s

/-- The DAC state while driving: half scale while a hard trip is held (R153). -/
def State.dacDrive (s : State) : Dac := if s.sad.tripHeld then .half else .full

/-- The trip is held: FAULT_CLEAR has not cleared its cause (R154). The halving of I_fs, which
`tripHeld` says, ends only at the next seam. -/
def State.tripHolds (s : State) : Bool := s.sad.tripHeld && !s.sad.tripRelease

/-! ### Slices that a request aborts (13_self_test.md R293) -/

/-- The number of a self-test target in `bist.results`. -/
def testKey (type target : Nat) : Nat := 256 * type + target
/-- The result of a self-test target. -/
def State.test (s : State) (type target : Nat) : TestRes := tget (fun _ => {}) s.bist.results (testKey type target)
/-- Change the result of a self-test target. -/
def State.modTest (s : State) (type target : Nat) (f : TestRes → TestRes) : State :=
  { s with bist := { s.bist with results := tmod (fun _ => {}) s.bist.results (testKey type target) f } }

/-- Marks, bank roles and slot states are about to change: while MRAM writes are inhibited the configuration
region keeps what it holds (R314). -/
def State.holdStored (s : State) : State :=
  if s.thm.inhibit ∧ s.nvm.held.isNone then
    let x : Stored :=
      { unusable := s.nvm.unusable
        bankBad := s.nvm.bankBad
        spare := s.nvm.spare
        slotA := s.nvm.slotA
        slotB := s.nvm.slotB }
    { s with nvm := { s.nvm with held := some x } }
  else s

/-- The stored records as a full reset finds them: the held writes are lost. -/
def Nvm.asStored (n : Nvm) : Nvm :=
  match n.held with
  | some x => { n with
      unusable := x.unusable
      bankBad := x.bankBad
      spare := x.spare
      slotA := x.slotA
      slotB := x.slotB
      slotTwin := (x.slotA, x.slotB)
      held := none }
  | none => n

/-- A block is marked unusable (R302). -/
def State.mark (s : State) (b : Nat) : State :=
  if s.marked b then s
  else
    let s := s.holdStored
    { s with nvm := { s.nvm with unusable := sortIns b s.nvm.unusable } }

/-- The BIST_RUN that tests a target, if one runs. -/
def State.bistJob (s : State) (type target : Nat) : Option Job :=
  s.cmd.jobs.find? fun b => match b.kind with
    | .bistRun ty tg _ => decide (ty = type) && decide (tg = target)
    | _ => false

/-- The scheduled targets in rotation (R292): each type's targets in ascending order, by type and
target. -/
def bistTargets : List (Nat × Nat) :=
  (List.range 24).map (fun n => (0, n)) ++ (List.range 128).map (fun n => (1, n))
    ++ (List.range 17).map (fun n => (2, n)) ++ [(4, 0), (5, 0), (5, 1), (7, 0), (7, 1), (7, 2), (7, 3)]

/-- The rotation moves on to a place: past its end the coverage cycle ends (R292). -/
def State.turnTo (s : State) (n : Nat) : State :=
  if n < s.bist.turn then
    { s with bist := { s.bist with
      turn := n
      cycleMs := (s.clk - s.bist.cycleAt) / 1000000
      cycleAt := s.clk } }
  else { s with bist := { s.bist with turn := n } }

/-- A target's turn is over (R292, R293): only a scheduled target has one. -/
def State.turnOver (s : State) (type target : Nat) : State :=
  if bistTargets.getD s.bist.turn (0, 0) = (type, target) ∧ (s.bistJob type target).isNone then
    s.turnTo ((s.bist.turn + 1) % 176)
  else s

/-- The lane mode admits a lane (R174), and the lane is not marked unusable (R301). -/
def State.admits (s : State) (l : Lane) : Bool :=
  let m := s.fld pLinkCtrl 1 0
  !s.marked (17 + l.num) && (decide (m = 0) || decide (m = 1 + l.num))

/-- The lane of a target. -/
def laneNo (n : Nat) : Lane := if n = 0 then .a else .b

/-- A LANE slice is over: the PHY of a lane that is held off loses its power again (R301). -/
def State.laneTested (s : State) (n : Nat) : State :=
  s.setLane (laneNo n) { s.lane (laneNo n) with phyOn := s.admits (laneNo n) && (s.lane (laneNo n)).phyOn }

/-- A slice has been cut short: counted, and after 16 in a row BIST_STARVED once; a BIST_RUN of the
target then ends with TIMEOUT (R293, BIST_RUN). -/
def State.sliceAborted (s : State) (type target : Nat) : State :=
  let s := ({ s with bist := { s.bist with slice := none, lastEnd := some s.clk } }).bump pBistAborts 1
  let s := s.modTest type target fun r => { r with state := 4, complete := false, aborts := satAdd 16 r.aborts 1 }
  let s := s.turnOver type target
  let r := s.test type target
  let s := if 16 ≤ r.aborts ∧ !r.starved then
      (s.modTest type target fun r => { r with starved := true }).evt 0x0902 1 0xFF type target r.aborts r.seg
    else s
  match s.bistJob type target with
  | some b => if 16 ≤ r.aborts then
      (((s.dropJob b).jFinal b.jseq true stTimeout r.seg b.steps (decide (0 < r.seg)) 0).jKeep b.jseq).cmdDone
        b.opcode b.pkt stTimeout
    else s
  | none => s

/-- What an aborted slice leaves of its block: a TILE test gives its tile back at a seam (R297), and a lane that
was powered for its slice is off again (R301). -/
def State.abortLeaves (s : State) (type target : Nat) : State :=
  let s := if type = 5 then s.laneTested target else s
  match s.bist.spur with
  | .testing _ =>
    if type = 2 then { s with bist := { s.bist with move := some (.giveBack 0), movedIn := false } } else s
  | .underTest => if type = 2 then { s with bist := { s.bist with spur := .idle } } else s
  | _ => s

/-- A running slice of a target that a test names is cut short by a request (R293): the MISR then
holds a part of the patterns, which the manual leaves open (free values, DESIGN CHOICE, log 3). -/
def State.abortSlice (s : State) (p : Nat → Nat → Bool) : State :=
  match s.bist.slice with
  | none => s
  | some (ty, tg) =>
    if p ty tg then
      let f := s.freeW
      let g := f.1.freeW
      let s := g.1.modTest ty tg fun r => { r with sig := f.2, patterns := g.2.toNat }
      (s.sliceAborted ty tg).abortLeaves ty tg
    else s

/-- An access to a line of MRAM cuts a slice on its sector short (R293). -/
def State.abortMram (s : State) (a : Nat) : State :=
  if 0x10000000 ≤ a ∧ a < 0x10780000 then
    s.abortSlice fun ty tg => decide (ty = 1) && decide (tg = sectorOf a)
  else s

/-- Accesses to lines of MRAM. -/
def State.abortMrams (s : State) (l : List Nat) : State := l.foldl (fun s a => s.abortMram a) s

/-- Accesses to a span of MRAM. -/
def State.abortSpan (s : State) (a n : Nat) : State :=
  s.abortSlice fun ty tg => decide (ty = 1) && decide (sectorOf a ≤ tg) && decide (tg ≤ sectorOf (a + n - 1))

/-! ### Records in the configuration region (R284, R364, R317, R359) -/

/-- The line of the configuration region in which a stored record stands: 0 the node address, 1 the memberships,
2 the thermal parameters, 3 and 4 the NTC table, 5 to 7 the keys (DESIGN CHOICE: the manual does not give the
layout; log 40). -/
def confLine (k : Nat) : Nat := 0x10710000 + 64 * k

/-- The lines of records take a write: no cells that give nothing good are among them. -/
def State.confTakes (s : State) (l : List Nat) : Bool := l.all fun k => decide (s.meets (confLine k) ≠ .lost)

/-- The lines of records are written whole and read back: whether every write is good. -/
def State.storeConf (s : State) (l : List Nat) : State × Bool :=
  let v := (s.abortMrams (l.map confLine)).verifyLines (l.map confLine)
  if v.2 then (v.1.wholeWritten fun a => (l.map confLine).contains a, true) else v

/-- The lines of a record are read: whether they can be. -/
def State.readConf (s : State) (l : List Nat) : State × Bool :=
  let r := s.readEach 7 (l.map confLine)
  (r.1, r.2.isEmpty)

/-! ### Ends of commands -/

/-- The durable line of an entry is written. -/
def State.jDurable (s : State) (j : Word) : State :=
  if s.thm.jInhibit then s.jKeep j else (s.abortMram (jAddr j)).jKeep j

/-- The final state of a command's entry is written (R345, R348). -/
def State.jEnd (s : State) (j : Word) (durable : Bool) (status step steps : Nat) (partly : Bool)
    (result : Word) : State :=
  if j = 0xFFFFFFFF then s
  else
    let s := s.jFinal j durable status step steps partly result
    if durable then s.jDurable j else s

/-- A command that replied ACCEPTED ends: its final state, then CMD_DONE (R345). -/
def State.endJob (s : State) (b : Job) (status step : Nat) (partly : Bool) (result : Word) : State :=
  ((s.dropJob b).jEnd b.jseq true status step b.steps partly result).cmdDone b.opcode b.pkt status

/-- A command with a held reply ends: its final state, then the reply. -/
def State.endHeld (s : State) (op : Nat) (p : Pkt) (j : Word) (gap : Bool) (status step : Nat)
    (results : List Word) : State :=
  (((s.dropHeld p j).jEnd j p.durable status step 1 false (results.headD 0)).answerHeld op p j gap
    status step results).spaceFreed (replyRing p)

/-- The limp loader is asked for (R117): it latches WIN_CTRL, LIMP_LEVEL and LIMP_GAINS and reads.
A limp request aborts a TILE slice (R293). -/
def State.limpRequest (s : State) : State :=
  let s := s.abortSlice fun ty _ => decide (ty = 2)
  { s with comp := { s.comp with limp :=
      { stage := .reading
        winCtrl := w32 (s.live pWinCtrl)
        level := w32 (s.live pLimpLevel)
        gains := (List.range 4).map fun q => w32 (s.live (pLimpGains + q)) } } }

/-- The histories of the freeze check are cleared (R207). -/
def State.clearFreeze (s : State) : State := { s with frm := { s.frm with freeze := [] } }

/-- The freeze check waits for the second seam after limp (R207). -/
def State.delayFreeze (s : State) : State := { s with frm := { s.frm with armDelay := 2 } }

/-- VFB_CODE is forced to CODE_MIN (R81, R420). -/
def State.forceVfb (s : State) : State :=
  { s with pix := { s.pix with vfb := BitVec.ofNat 8 (s.fld pVfbLimits 7 0), wasForced := true } }

/-- VFB_CODE is forced (R81): in limp, in the start-up sequence, after a hard trip. -/
def State.vfbForcing (s : State) : Bool :=
  decide (s.diag.safe = 3) || decide (0 < s.pix.forced)
    || !(decide (s.pwr.boot = .firstSeam) || decide (s.pwr.boot = .up))

/-- The last forcing case ends: the loop resumes from CODE_MIN, or MANUAL returns (R420). -/
def State.vfbRelease (s : State) : State :=
  if s.pix.wasForced && !s.vfbForcing then
    { s with pix := { s.pix with
      wasForced := false
      quiet := 0
      vfb := if s.flag pVfbCtrl 0 then s.pix.vfb else BitVec.ofNat 8 (s.fld pVfbLimits 23 16) } }
  else s

/-- The severity of SAFE_CHANGE (R249). -/
def safeSev (old new : Nat) : Nat := if old < new then (if 2 ≤ new then 2 else 1) else 0

/-- The engine's safe state changes: SAFE_CHANGE, and the actions of R240. -/
def State.setSafe (s : State) (new : Nat) : State :=
  let old := s.diag.safe
  if old = new then s
  else
    let s := { s with diag := { s.diag with 
      safe := new
      inReset := s.diag.inReset && decide (new ≠ 2)
      safeTwo := if s.diag.inReset ∧ new = 2 then some s.clk else s.diag.safeTwo } }
    let s := s.vfbRelease
    let s := s.evt 0x0601 (safeSev old new) 0xFF new old s.diag.causes.toNat s.frm.frame.toNat
    let s := if 2 ≤ new then
      { s with
        shd := { s.shd with force := {} }
        comp := { s.comp with bendX := 0, bendY := 0 } } else s
    if new = 2 then
      { s with comp := { s.comp with
        limp := if s.comp.limp.tiles = 65535 then { s.comp.limp with stage := .idle } else s.comp.limp
        fbCheck := { running := true, endSub := s.frm.sub + 4, deep := decide (2 < old) } } }
    else if new = 3 then s.limpRequest.clearFreeze.delayFreeze.forceVfb
    else if new = 4 then (s.setDacs .off).shutStrings.clearFreeze
    else { s with comp := { s.comp with fbCheck := {} } }

/-- A scheduled return is cancelled (R242). -/
def State.cancelReturn (s : State) : State :=
  if s.frm.ret.isSome then
    ({ s with frm := { s.frm with ret := none, retArmed := false } }).bumpGen
  else s

/-- A cause is added (R240, R242): its class is latched, a pending return is cancelled, and the
engine goes to the target if that is deeper. During a sleep negotiation it is held (R333). -/
def State.addCause (s : State) (b : Nat) : State :=
  let s := match causeClass b with
    | some c => s.latchFault c
    | none => s
  if s.pwr.nego.isSome then
    { s with diag := { s.diag with heldCauses := s.diag.heldCauses ||| BitVec.ofNat 16 (2 ^ b) } }
  else
    let s := { s with diag := { s.diag with causes := s.diag.causes ||| BitVec.ofNat 16 (2 ^ b) } }
    let s := s.cancelReturn
    if s.diag.safe < causeTarget b then s.setSafe (causeTarget b) else s

/-- A return is scheduled for a coming seam (R241). -/
def State.schedule (s : State) (r : Return) : State :=
  if s.frm.ret = some r then s
  else ({ s with frm := { s.frm with ret := some r, retAt := s.clk, retArmed := false } }).bumpGen

/-- After a clear, the engine leaves its state if no cause keeps it there (R241). In limp or dark with only a shallower
cause left it leaves toward that cause's state, as R241 has it, where R140 has FALLBACK_EXIT leave the state
unchanged (DESIGN CHOICE, log 39). -/
def State.reevaluate (s : State) : State :=
  if s.diag.safe = 4 ∧ s.target < 4 then s.schedule .darkExit
  else if s.diag.safe = 3 ∧ s.target < 3 then s.schedule .limpToFallback
  else if s.diag.safe = 2 ∧ s.target < 2 ∧ (!s.comp.fbCheck.deep ∨ s.comp.fbCheck.passed) then
    s.schedule .toNormal
  else s

/-- Causes are cleared (R239, R241). -/
def State.clearCauses (s : State) (mask : Nat) : State :=
  ({ s with diag := { s.diag with
    causes := s.diag.causes &&& ~~~ BitVec.ofNat 16 mask
    heldCauses := s.diag.heldCauses &&& ~~~ BitVec.ofNat 16 mask } }).reevaluate

/-- A confirmed fault, or Spur for an unusable engine, degrades a normal engine at once (R240). -/
def State.degrade (s : State) : State :=
  if s.diag.safe = 0 ∧ s.causeless = 1 then s.setSafe 1 else s

/-- The causes held during a negotiation act now (R333). -/
def State.releaseHeld (s : State) : State :=
  let l := bitList s.diag.heldCauses.toNat 15
  l.foldl (fun s b => s.addCause b) { s with diag := { s.diag with heldCauses := 0 } }

/-! ### Firmware slots (R357) -/

/-- The state of a slot. -/
def State.slotState (s : State) (k : Nat) : SlotState := if k = 0 then s.nvm.slotA else s.nvm.slotB
/-- Write the state of a slot: its first copy, then its second (R357). -/
def State.setSlot (s : State) (k : Nat) (v : SlotState) : State :=
  let s := s.holdStored
  let a := if k = 0 then v else s.nvm.slotA
  let b := if k = 0 then s.nvm.slotB else v
  { s with nvm := { s.nvm with slotA := a, slotB := b, slotTwin := (a, b) } }
/-- The VERSION in a slot's header (R356). -/
def State.slotVersion (s : State) (k : Nat) : Nat := ofLe (s.mramBytes (slotBase k + 4) 4)
/-- A slot holds an image that verifies (R356): it was staged whole, and no line of it is poisoned
since; its VERSION is at least FW_FLOOR (DEDUCED, log 12). -/
def State.slotValid (s : State) (k : Nat) : Bool :=
  (match s.slotState k with
    | .staged => true | .active => true | .trial => true | _ => false)
    && !(s.mem.poison.any fun a => decide (slotBase k ≤ a) && decide (a < slotBase k + 256 + s.slotLength k))
    && decide (s.nvm.floor.toNat ≤ s.slotVersion k)

/-- The lines of a slot's image are read (R273), and the image is judged. -/
def State.verifySlot (s : State) (k : Nat) : State × Bool :=
  let n := 256 + s.slotLength k
  let r := ((s.abortSpan (slotBase k) n).readSpan 7 (slotBase k) n).1
  (r, r.slotValid k)

/-- The image of the running slot is copied into the sequencer region, whose lines it writes whole, and is
verified before its first instruction runs (R17, R353). One that fails is not run: the sequencer stands without
an image, until its watchdog, which nothing resets, restarts it (DEDUCED, log 12). -/
def State.copyImage (s : State) : State :=
  let v := s.verifySlot s.nvm.running
  let s := v.1.wholeWritten fun a => decide (regionOf a = 8) && v.1.codeLine a
  { s with fw := { s.fw with noImage := !v.2 } }

/-! ### Restarts of the sequencer (R352, R353) -/

/-- A Crest engine takes another state (R222): a pause holds the time to its next tick, and from a pause it goes on. -/
def Crest.enter (k : Crest) (new : CrestState) (now : Nat) : Crest :=
  { k with
    state := new
    left := if new = .paused then k.tickAt - now else k.left
    tickAt := if k.state = .paused ∧ new = .running then now + k.left else k.tickAt }

/-- The Crest engines in one state take another (R222). -/
def State.crestAll (s : State) (old new : CrestState) : State :=
  (List.range 8).foldl (fun s i =>
    if (s.crest i).state = old then s.modCrest i fun k => k.enter new s.clk else s) s

/-- The quiesced blocks of a sleep negotiation restart in the state they held (R332, R333). -/
def State.negoRollback (s : State) (n : Nego) : State :=
  let s := { s with pwr := { s.pwr with nego := none, linkOff := false } }
  let lit := decide (s.pwr.state = .active)
  let s := if n.done.contains 7 ∧ lit then
      ({ s with str := { s.str with shut := false } }).crestAll .paused .running else s
  let s := if n.done.contains 6 ∧ lit then
      (let s := { s with pwr := { s.pwr with pixOff := false } }
       if s.diag.safe < 4 then s.setDacs s.dacDrive else s)
    else s
  s.releaseHeld

/-- The result word of PWR_STATE (R342): the block named, the state before, the blocks quiesced as
bits (DEDUCED, log 33). -/
def negoWord (n : Nego) (block : Nat) : Word :=
  w32 (block + 256 * n.before + 65536 * ofBitList (n.done.map fun b => b - 1))

/-- A negotiation's reply is sent, with its final state (R332, R342). -/
def State.negoReply (s : State) (n : Nego) (status block step : Nat) : State :=
  let s := { s with cmd := { s.cmd with
    reserved := tmod (fun _ => 0) s.cmd.reserved (replyRing n.pkt) (· - heldSlots) } }
  let s := s.jEnd n.jseq (n.pkt.durable || decide (2 ≤ n.target)) status step 1 false (negoWord n block)
  if n.pkt.timed then s.cmdDone n.opcode n.pkt status
  else (s.reply n.opcode n.pkt status step 1 n.jseq [negoWord n block] n.gap true).spaceFreed (replyRing n.pkt)

/-- A reset of level 0 or 1 ends a negotiation (R333): the blocks restart, and PWR_STATE ends with
ABORT_RESET unless it has already been answered. -/
def State.negoAbort (s : State) : State :=
  match s.pwr.nego with
  | none => s
  | some n =>
    let s := s.negoRollback n
    if n.block = 9 then s else s.negoReply n stAbortReset 0 0

/-- The held replies end with ABORT_RESET (R211, R333, R355); their entries stay STARTED for the
recovery pass (R354). -/
def State.abortHeld (s : State) : State :=
  s.cmd.held.foldl (fun s h =>
    ((s.dropHeld h.pkt h.jseq).answerHeld h.opcode h.pkt h.jseq h.gap stAbortReset 0 []).spaceFreed
      (replyRing h.pkt)) s

/-- The sequencer restarts at level 0 or 1 (R352, R353): rings, contexts, parameters and light stay;
sessions close; the reset record and the recovery pass come before ring service. -/
def State.seqRestart (s : State) (level cause : Nat) : State :=
  let s := (s.negoAbort.abortHeld.copyImage).abortSlice fun _ _ => true
  let s := if level = 1 then { s with bist := { s.bist with migrating := none } } else s
  let s := { s with
    cmd := { s.cmd with serving := false, restarted := true }
    fw := { s.fw with sessions := [] }
    jrn := { s.jrn with
      restarts := (s.clk, level) :: s.jrn.restarts.filter fun r => decide (s.clk < r.1 + 10 ^ 10)
      lastRestart := some s.clk
      holdTill := none
      restartCause := cause
      resetLevel := level
      resetTime := s.pwr.devtime
      recover := true }
    mem := { s.mem with writes := [] } }
  let s := s.bump pRestarts 1
  if level = 1 then { (s.addCause 12) with jrn := { s.jrn with pipeBusy := true } } else s

/-- Level-0 restarts in the last 10 s (R353). -/
def State.recentRestarts (s : State) : Nat :=
  (s.jrn.restarts.filter fun r => decide (r.2 = 0) && decide (s.clk < r.1 + 10 ^ 10)).length

/-- The slot whose image the next copy takes. A TRIAL slot that is left is merely STAGED. -/
def State.runSlot (s : State) (k : Nat) : State :=
  let s := if s.slotState s.nvm.running = .trial ∧ s.nvm.running ≠ k then s.setSlot s.nvm.running .staged else s
  { s with nvm := { s.nvm with running := k } }

/-- The rollback record and FW_ROLLBACK (R353, R358, R363): the running slot's image has taken the place of
one of VERSION `bad`. -/
def State.rolledBack (s : State) (bad cause : Nat) : State :=
  let k := s.nvm.running
  (s.jRecord 4 (s.slotVersion k) cause).1.evt 0x0C03 2 0xFF k cause (s.slotVersion k) bad

/-- A restart at level 0 from the other slot (R353, R358). -/
def State.rollBack (s : State) (slot reset cause : Nat) : State :=
  let bad := s.slotVersion s.nvm.running
  ((s.runSlot slot).seqRestart 0 reset).rolledBack bad cause

/-- A level-0 restart is due (R353): after three in 10 s it loads the other slot if that verifies, and
otherwise keeps 1 s from the previous restart. -/
def State.restartDue (s : State) (cause : Nat) : State :=
  if s.recentRestarts < 3 then s.seqRestart 0 cause
  else
    let v := s.verifySlot (1 - s.nvm.running)
    let s := v.1
    if v.2 then s.rollBack (1 - s.nvm.running) cause 2
    else match s.jrn.lastRestart with
    | some t =>
      if s.clk < t + 10 ^ 9 then
        { s with
          cmd := { s.cmd with serving := false }
          jrn := { s.jrn with holdTill := some (t + 10 ^ 9), restartCause := cause } }
      else s.seqRestart 0 cause
    | none => s.seqRestart 0 cause

/-! ### Full reset (R352, R243, R287) -/

/-- The parameters after a full reset of a variant (R3): the LQ starts with a scene mix as its base, and
with its returns in L2 when idle. -/
def variantPrm (v : Variant) : Prm :=
  match v with
  | .aq => {}
  | .lq =>
    { live := tput prmReset (tput prmReset [] pCompCtrl 0x1D) pRetSleep 0x00640002
      shadow := tput prmReset [] pCompCtrl 0x1D }

/-- What a full reset leaves: reset values everywhere, less what MRAM and the always-on register
hold; `boot` is where power-up stands, `cause` the reset record's cause (R346), `wake` the wake
cause (R328). The queue, the model's clock and the TAP are not part of it. -/
def State.fullReset (s : State) (boot : Boot) (cause wake : Nat) : State :=
  { State.reset with
    pending := s.pending
    clk := s.clk
    free := s.free
    jtag := s.jtag
    boundary := s.boundary
    tapHold := s.tapHold
    link := { laneA := { sent := s.link.laneA.sent }, laneB := { sent := s.link.laneB.sent } }
    nvm := s.nvm.asStored
    prm := variantPrm s.nvm.variant
    mem := { State.reset.mem with
      mram := s.mem.mram
      errs := s.mem.errs.filter fun e => decide (0x10000000 ≤ e.1) && decide (e.1 < 0x20000000)
      poison := s.mem.poison.filter fun a => decide (0x10000000 ≤ a) && decide (a < 0x20000000) }
    pwr := { State.reset.pwr with
      boot := boot
      wake := wake
      fault := s.pwr.fault
      failedUps := s.pwr.failedUps
      supply := s.pwr.supply
      supplyMs := s.pwr.supplyMs
      resetLow := s.pwr.resetLow
      tickNs := s.pwr.tickNs
      ppmEntry := s.pwr.ppmEntry
      stressAt := s.pwr.stressAt
      lit := s.nvm.lit
      charge := s.nvm.charge }
    jrn := { State.reset.jrn with restartCause := cause, resetLevel := 2, resetTime := s.pwr.devtime, abortPower := decide (cause = 5) } }

/-- The engine is under full reset. -/
def State.underReset (s : State) : Bool := decide (s.pwr.boot = .held)

/-- The logic runs: LOGIC_OK has been set since the last full reset (R44, R325). -/
def State.logicUp (s : State) : Bool :=
  match s.pwr.boot with
  | .trims => true
  | .firstSeam => true
  | .up => true
  | _ => false

end Sys2Proof.Machine
end

