-- ==== Sys2Proof/Machine/Command.lean ====
section
/-! DEFINITION. How a command that its server has taken runs: steps 5 to 9 of R42, the journal entry
(R345, R347), the effect, the reply (R53, R54), and the timed queue's acceptance (R368). -/

namespace Sys2Proof.Machine

/-- What an opcode's execution leaves: the state, the final status (ACCEPTED for a command that goes
on), the result words, the steps in force, whether a reply is sent now, the JSEQ when the opcode
makes its own entry, whether an ACCEPTED command has begun its first step, and what happens once the reply
has been sent (R413: RESET, LINK_RETRAIN, LANE_MODE). -/
structure Out where
  s       : State
  status  : Nat := 0
  results : List Word := []
  step    : Nat := 1
  steps   : Nat := 1
  partly  : Bool := false
  replies : Bool := true
  begun   : Bool := false
  jseq    : Option Word := none
  post    : State → State := fun s => s

/-- What the manual gives of one opcode: its journaling (0 none, 1 on request, 2 always durable, 3
covered by the class-0 record), the result words of its longest reply, those that it defines for a
rejection at step 8 or 9 that its own checks do not find (R54), the layout check of step 7 (a test of
the parameter bytes), the checks of steps 8 and 9, and its effect. -/
structure OpDef where
  jnl   : Pkt → Nat := fun _ => 1
  rlen  : Pkt → Nat := fun _ => 0
  words : Nat → Pkt → State → List Word := fun _ _ _ => []
  len   : Pkt → Bool
  bad   : Pkt → State → Option (List Word) := fun _ _ => none
  gate  : Pkt → State → Option (Nat × List Word) := fun _ _ => none
  run   : Word → Pkt → State → Out

/-- The classes in which an opcode is permitted (R414). -/
def opClasses (op : Nat) : List Nat :=
  match op with
  | 0x0001 => [0, 2] | 0x0002 => [2] | 0x0003 => [2] | 0x0004 => [2] | 0x0005 => [1, 2]
  | 0x0006 => [2] | 0x0007 => [2] | 0x0008 => [2] | 0x0009 => [2] | 0x000A => [0, 2]
  | 0x0101 => [0] | 0x0102 => [0] | 0x0103 => [0] | 0x0104 => [0] | 0x0105 => [0] | 0x0106 => [0]
  | 0x0107 => [0]
  | 0x0201 => [1, 2] | 0x0202 => [1, 2] | 0x0203 => [2] | 0x0204 => [2] | 0x0205 => [2]
  | 0x0301 => [2, 3] | 0x0302 => [3] | 0x0303 => [1] | 0x0304 => [2, 3] | 0x0305 => [1, 2]
  | 0x0306 => [1, 2] | 0x0307 => [1, 2] | 0x0308 => [1, 2]
  | 0x0401 => [1, 2] | 0x0402 => [2] | 0x0403 => [2] | 0x0404 => [2]
  | 0x0501 => [2] | 0x0502 => [1, 2] | 0x0503 => [2] | 0x0504 => [2, 3] | 0x0505 => [1, 2]
  | 0x0601 => [2] | 0x0602 => [2, 3] | 0x0603 => [2] | 0x0604 => [2] | 0x0605 => [2]
  | 0x0701 => [3] | 0x0702 => [3] | 0x0703 => [2] | 0x0704 => [2] | 0x0705 => [2, 3]
  | 0x0801 => [2, 3] | 0x0802 => [2, 3] | 0x0803 => [2] | 0x0804 => [3] | 0x0805 => [2]
  | 0x0806 => [2]
  | 0x0901 => [2] | 0x0902 => [3] | 0x0903 => [2] | 0x0904 => [2]
  | 0x0A01 => [2] | 0x0A02 => [2]
  | 0x0B01 => [2] | 0x0B02 => [2]
  | 0x0C01 => [2, 3] | 0x0C02 => [1, 2] | 0x0C03 => [3] | 0x0C04 => [3] | 0x0C05 => [2]
  | 0x0C06 => [2] | 0x0C07 => [2]
  | 0x0D01 => [2] | 0x0D02 => [2] | 0x0D03 => [2] | 0x0D04 => [2, 3]
  | 0x0E01 => [2] | 0x0E02 => [2] | 0x0E03 => [1, 2] | 0x0E04 => [2]
  | _ => []

/-- Step 5 of R42: the opcode is known and permitted in the packet's class. -/
def opPermitted (op cls : Nat) : Bool := (opClasses op).contains cls

/-! ### Step 6: authentication (R360, R416) -/

/-- The session of a port. -/
def State.session (s : State) (port : Port) : Option Session :=
  tget (fun _ => none) s.fw.sessions port.num

/-- Write the session of a port. -/
def State.setSession (s : State) (port : Port) (x : Option Session) : State :=
  { s with fw := { s.fw with sessions := tput (fun _ => none) s.fw.sessions port.num x } }

/-- The session that covers a packet's ring. -/
def State.covering (s : State) (p : Pkt) : Option Session :=
  match s.session p.port with
  | some x => if bitOf x.rings.toNat p.ring then some x else none
  | none => none

/-- The MAC of a packet on a covered ring: over the packet up to the end of CTR (R360). -/
def packetMac (ks : List Byte) (op : Nat) (p : Pkt) : List Byte :=
  (cmac ks (pktHeader op p ++ p.params.take (p.params.length - 8))).take 8

/-- CTR of a packet on a covered ring. -/
def packetCtr (p : Pkt) : Nat := ofLe ((p.params.drop (p.params.length - 12)).take 4)

/-- CTR must exceed the last accepted one (R360). -/
def ctrAbove (ctr : Nat) : Option Word → Bool
  | none => true
  | some c => decide (c.toNat < ctr)

/-- Step 6: the packet's parameters less the suffix, with the session's CTR moved on; or NOT_AUTH. -/
def State.authenticate (s : State) (op : Nat) (p : Pkt) : State × Option (List Byte) :=
  if p.cls = 0 then (s, some p.params)
  else match s.covering p with
    | none => if bitOf s.nvm.require.toNat (op / 256) then (s, none) else (s, some p.params)
    | some x =>
      if 12 ≤ p.params.length ∧ packetMac x.ks op p = p.params.drop (p.params.length - 8)
          ∧ ctrAbove (packetCtr p) x.ctr then
        (s.setSession p.port (some { x with ctr := some (w32 (packetCtr p)) }),
         some (p.params.take (p.params.length - 12)))
      else if 9 ≤ x.fails then
        ((s.setSession p.port none).evt 0x0C04 2 p.ring p.port.num x.key (x.fails + 1) 0, none)
      else (s.setSession p.port (some { x with fails := x.fails + 1 }), none)

/-! ### Rejections -/

/-- A packet is rejected (R42, R54): no journal entry, STEP 0. -/
def State.reject (s : State) (op : Nat) (p : Pkt) (status : Nat) (results : List Word) (gap : Bool) : State :=
  s.reply op p status 0 1 0xFFFFFFFF results gap true

/-- The slots of a reply with so many result words (R52). -/
def replySlots (rlen : Nat) : Nat := slotsOf (32 + 4 * rlen)

/-- The packet as its opcode's layout sees it: less the two TIMED words and the authentication suffix
(R38, R360). -/
def State.ownPkt (s : State) (p : Pkt) : Pkt :=
  let b := if p.cls ≠ 0 ∧ (s.covering p).isSome then p.params.take (p.params.length - 12) else p.params
  { p with params := if p.timed then b.drop 8 else b }

/-- The two words that TIMED places before an opcode's own parameters (R38). -/
def timedOf (params : List Byte) : Nat := ofLe (params.take 8)

/-- FLAGS bits 6 and 5, and TIMED and DURABLE in class 0, fail step 8 (R38, R58). -/
def badFlags (p : Pkt) : Bool := decide (p.replyBits ≠ 0) || (decide (p.cls = 0) && (p.timed || p.durable))

/-- A time lies more than 24 hours ahead (R368). -/
def State.farAhead (s : State) (time : Nat) : Bool := decide (s.pwr.devtime.toNat + 86400 * 10 ^ 9 < time)

/-- The slots of the longest reply that a packet can produce, as its opcode and its own parameters `q`
determine (R52): a packet that fails step 8 is rejected with what the opcode defines for that, and a timed
packet that passes is answered by ACCEPTED. -/
def State.longest (s : State) (d : OpDef) (p q : Pkt) : Nat :=
  replySlots (match d.bad q s with
    | some r => r.length
    | none =>
      if badFlags p || (p.timed && s.farAhead (timedOf p.params)) then (d.words stBadParam q s).length
      else if p.timed then 0 else d.rlen q)

/-- The slots that must be free before a packet starts (R52): those of its longest reply, or one for the
BAD_LENGTH of a packet whose longest reply exceeds the ring. -/
def State.replyNeed (s : State) (d : OpDef) (p : Pkt) : Nat :=
  let n := s.longest d p (s.ownPkt p)
  if (s.ring (replyRing p)).depth < n then 1 else n

/-- The reply ring has the slots that the packet's reply needs (R52). -/
def State.canStart (s : State) (d : OpDef) (p : Pkt) : Bool :=
  decide (s.replyNeed d p ≤ s.outFree (replyRing p))

/-! ### Running -/

/-- A held reply keeps its reply slot (R52, R413). -/
def State.reserve (s : State) (p : Pkt) : State :=
  { s with cmd := { s.cmd with
    reserved := tmod (fun _ => 0) s.cmd.reserved (replyRing p) (· + heldSlots) } }

/-- A held reply, or a negotiation's, carries the GAP flag of its packet (R50). -/
def State.markGap (s : State) (p : Pkt) (j : Word) (gap : Bool) : State :=
  { s with
    cmd := { s.cmd with held := s.cmd.held.map fun h =>
      if h.jseq = j ∧ h.pkt = p then { h with gap := gap } else h }
    pwr := { s.pwr with nego := s.pwr.nego.map fun n =>
      if n.jseq = j ∧ n.pkt = p then { n with gap := gap } else n } }

/-- The effect of a command that has passed its checks, with its entry (R345) and its reply. -/
def State.execute (s : State) (op : Nat) (d : OpDef) (p : Pkt) (params : List Byte) (gap : Bool) : State :=
  let durable := decide (d.jnl p = 2) || (decide (d.jnl p = 1) && p.durable)
  let e :=
    if d.jnl p = 0 then (s, (0xFFFFFFFF : Word))
    else if d.jnl p = 3 then s.coalesce op p
    else s.jAdd (kind0 op p durable false params 1 1) durable
  let o := d.run e.2 p e.1
  let j := match o.jseq with | some j => j | none => e.2
  let s := o.s
  let s :=
    if d.jnl p = 0 ∨ d.jnl p = 3 then s
    else if o.status = stAccepted ∨ !o.replies then
      (let s := s.jSet j durable fun e => { e with
        state := if o.replies ∧ o.step = 0 ∧ !o.begun then 1 else 2
        step := BitVec.ofNat 16 o.step
        steps := BitVec.ofNat 16 o.steps }
       if durable then s.jDurable j else s)
    else s.jEnd j durable o.status o.step o.steps o.partly (o.results.headD 0)
  if o.replies then o.post (s.reply op p o.status o.step o.steps j o.results gap true)
  else (s.markGap p j gap).reserve p

/-- A command that replies ACCEPTED goes on as a job of so many steps (R58, R413). -/
def State.startJob (s : State) (kind : JobKind) (op : Nat) (p : Pkt) (j : Word) (steps : Nat) : Out :=
  { s := { s with cmd := { s.cmd with jobs := s.cmd.jobs ++
      [{ kind := kind, opcode := op, pkt := p, jseq := j, steps := steps }] } }
    status := stAccepted
    step := 0
    steps := steps }

/-- Change the job of a JSEQ. -/
def State.modJob (s : State) (j : Word) (f : Job → Job) : State :=
  { s with cmd := { s.cmd with jobs := s.cmd.jobs.map fun (b : Job) => if b.jseq = j then f b else b } }

/-- One more step of a job is in force: its entry says so (R345). -/
def State.jobStep (s : State) (b : Job) : State :=
  (s.modJob b.jseq fun x => { x with step := x.step + 1, writing := false }).jSet b.jseq b.pkt.durable
    fun e => { e with state := 2, step := BitVec.ofNat 16 (b.step + 1) }

/-! ### The timed queue (17_group_operation.md R368 to R370) -/

/-- The length of the frame in progress in ps: the timing's, or the bridge frame's (R196). -/
def State.framePs (s : State) : Nat :=
  match s.frm.change with
  | some c =>
    if c.inBridge then
      c.oldSubs * timingPwmPs s.frm.timing + (if timingPaired s.frm.timing then 2 else 1) * c.bridgePs
    else timingFramePs s.frm.timing
  | none => timingFramePs s.frm.timing

/-- The model's clock at the next latch instant, as the grid stands. -/
def State.nextLatchClk (s : State) : Nat := s.frm.latchClk + s.framePs / 1000

/-- The timing that begins at the next latch instant, where one does (R195): at L_new of a bridge
frame, or with no bridge at the first seam whose plan instant follows the write. -/
def State.timingNext (s : State) : Option Timing :=
  match s.frm.change with
  | some c =>
    if c.bridge then (if c.inBridge then some c.next else none)
    else if c.sAt + 40000 < s.nextLatchClk then some c.next else none
  | none => none

/-- The bridge frame begins at the next latch instant (R195). -/
def State.bridgeNext (s : State) : Option Change :=
  match s.frm.change with
  | some c => if c.bridge && c.fixed && !c.inBridge && decide (c.sAt ≤ s.nextLatchClk + 1000) then some c else none
  | none => none

/-- The PWM rate or the number of sub-frames differs (R146). -/
def rateDiffers (a b : Timing) : Bool :=
  decide (timingN a ≠ timingN b) || decide (timingRate a ≠ timingRate b)

/-- The DEVTIME in ns of the next latch instant, as the grid stands (R369). -/
def State.nextLatch (s : State) : Nat := s.frm.latchTime.toNat + s.framePs / 1000

/-- An entry is late at acceptance or at a latch instant: its release instant has passed (R370). -/
def State.timedLate (s : State) (cls time : Nat) : Bool :=
  s.frm.running && (if cls = 1 then decide (time ≤ s.nextLatch) else decide (time ≤ s.frm.latchTime.toNat))

/-- An opcode that cannot be timed (R368). -/
def untimeable (op : Nat) : Bool := op = 0x0E03 || op = 0x0C06 || op = 0x0C07

/-- The checks of R368 on an entry's time and the queue: a status, or none. -/
def State.timedBad (s : State) (op cls time : Nat) (strict : Bool) : Option Nat :=
  if untimeable op then some stBadParam
  else if s.farAhead time then some stBadParam
  else if s.pwr.time = .unset ∨ s.pwr.time = .invalid then some stWrongState
  else if 32 ≤ s.grp.queue.length then some stBusy
  else if strict ∧ s.timedLate cls time then some stTimeout
  else none

/-- An entry is placed in the timed queue: its kind-0 entry is ACCEPTED, and the reply too (R368). -/
def State.enqueue (s : State) (op inner : Nat) (p q : Pkt) (params : List Byte) (id : Nat)
    (strict : Bool) (time : Nat) (gap : Bool) : State :=
  let x := s.jAdd (kind0 inner q q.durable true params 1 1) q.durable
  let s := if q.durable then x.1.jDurable x.2 else x.1
  let t : Timed :=
    { id := id, strict := strict, time := BitVec.ofNat 64 time, opcode := inner, pkt := q, jseq := x.2 }
  let s := { s with grp := { s.grp with queue := s.grp.queue ++ [t] } }
  s.reply op p stAccepted 0 1 x.2 [] gap true

/-! ### Steps 5 to 9 of R42 -/

/-- The checks of steps 7 and 8 on a packet whose own parameters are `q`'s: a status, or none. The
flags of `p` are those of the packet as it came. -/
def State.layoutBad (s : State) (d : OpDef) (p q : Pkt) : Option (Nat × List Word) :=
  if !d.len q ∨ (s.ring (replyRing p)).depth < s.longest d p q then some (stBadLength, [])
  else match d.bad q s with
    | some r => some (stBadParam, r)
    | none => if badFlags p then some (stBadParam, d.words stBadParam q s) else none

/-- A command that its server has taken (R42 steps 5 to 9). -/
def runOp (op : Nat) (d : OpDef) (p : Pkt) (gap : Bool) (s : State) : State :=
  if !opPermitted op p.cls then s.reject op p stBadOpcode [] gap
  else
    let a := s.authenticate op p
    match a.2 with
    | none => a.1.reject op p stNotAuth [] gap
    | some body =>
      let s := a.1
      if p.timed then
        if body.length < 8 then s.reject op p stBadLength [] gap
        else
          let q := { p with params := body.drop 8 }
          match s.layoutBad d p q with
          | some (st, r) => s.reject op p st r gap
          | none =>
            match s.timedBad op p.cls (timedOf body) false with
            | some st => s.reject op p st (d.words st q s) gap
            | none => s.enqueue op op p q body 0 false (timedOf body) gap
      else
        let q := { p with params := body }
        match s.layoutBad d p q with
        | some (st, r) => s.reject op p st r gap
        | none =>
          match d.gate q s with
          | some (st, r) => s.reject op p st r gap
          | none => s.execute op d q body gap

/-- A packet is at the head of its ring, and waits there. -/
def State.putBack (s : State) (op : Nat) (p : Pkt) (gap : Bool) : State :=
  let depth := (s.ring p.ring).depth
  let s := s.headOn p.ring (depth - pktSlots p % depth)
  { s with cmd := { s.cmd with
    waiting := { opcode := op, pkt := p, gap := gap, arrived := s.cmd.arrivals } :: s.cmd.waiting
    arrivals := s.cmd.arrivals + 1 } }

/-- A packet of a class the sequencer serves is not started while its reply slots cannot be
reserved: it stays at the head of its ring (R52). -/
def serveOp (op : Nat) (d : OpDef) (p : Pkt) (gap : Bool) (s : State) : State :=
  if p.cls ≠ 0 ∧ opPermitted op p.cls ∧ !s.canStart d p then s.putBack op p gap
  else runOp op d p gap s

/-- A released timed entry runs (R368): step 9, its effect, its final state and CMD_DONE. -/
def runTimed (d : OpDef) (t : Timed) (s : State) : State :=
  let finish := fun (s : State) (status step steps : Nat) (partly : Bool) (r : Word) =>
    (s.jEnd t.jseq t.pkt.durable status step steps partly r).cmdDone t.opcode t.pkt status
  match d.gate t.pkt s with
  | some (st, _) => finish s st 0 1 false 0
  | none =>
    let o := d.run t.jseq t.pkt s
    if o.status = stAccepted then
      o.s.jSet t.jseq true fun e => { e with state := 2, steps := BitVec.ofNat 16 o.steps }
    else if !o.replies then
      (o.s.jSet t.jseq t.pkt.durable fun e => { e with state := 2 }).reserve t.pkt
    else o.post (finish o.s o.status o.step o.steps o.partly (o.results.headD 0))

end Sys2Proof.Machine
end

