-- ==== Sys2Proof/Machine/Blocks.lean ====
section
/-! DEFINITION. The blocks of the Plokam Link (07_plokam_link.md): symbols, scrambler and blocks, what the return
lines carry in every block time, and how a record leaves on them. -/

namespace Sys2Proof.Machine

/-! ### Symbols and the scrambler (R159 to R161) -/

/-- The pair of a symbol value: its less and its more significant bit (R159). -/
def grayPair (v : Nat) : Nat × Nat :=
  match v with
  | 0 => (0, 0)
  | 1 => (1, 0)
  | 2 => (1, 1)
  | _ => (0, 1)

/-- The symbol value of a pair (R159). -/
def grayValue (lo hi : Nat) : Nat := if hi = 0 then lo else 3 - lo

/-- The receiver's precoder: neighbours added modulo 4 (R160). -/
def unprecode : Nat → List Nat → List Nat
  | _, [] => []
  | prev, y :: r => (y + prev) % 4 :: unprecode y r

/-- The transmitter's precoder 1/(1 + D) mod 4 (R160). -/
def precode : Nat → List Nat → List Nat
  | _, [] => []
  | prev, x :: r => (x + 4 - prev) % 4 :: precode ((x + 4 - prev) % 4) r

/-- One step of the LFSR (R161): bit 0 of the state is the newest. -/
def lfsrNext (s : BitVec 31) : BitVec 31 :=
  BitVec.ofNat 31 (2 * s.toNat + b2n (bitOf s.toNat 27 != bitOf s.toNat 30))

/-- The scrambler over bits: the bits, each XOR s_n, and the state after. -/
def scramble : BitVec 31 → List Nat → List Nat × BitVec 31
  | s, [] => ([], s)
  | s, b :: r =>
    let t := lfsrNext s
    let x := scramble t r
    ((b + t.toNat) % 2 :: x.1, x.2)

/-- x^n modulo the scrambler's polynomial, x^31 + x^3 + 1 in the order in which the state is stepped, by squaring. -/
def lfsrPower : Nat → Nat → BitVec 31
  | 0, _ => 1
  | f + 1, n =>
    let twice := fun (a : BitVec 31) => (a <<< 1) ^^^ (if a.msb then 9 else 0)
    let mul := fun (a b : BitVec 31) =>
      (List.range 31).foldl (fun (r : BitVec 31) i => twice r ^^^ (if b.getMsbD i then a else 0)) 0
    let h := lfsrPower f (n / 2)
    if n = 0 then 1
    else if n % 2 = 1 then twice (mul h h) else mul h h

/-- The LFSR after `n` bit times (R161): the powers of its step below 31, as x^n is made of them. -/
def lfsrSkip (n : Nat) (s : BitVec 31) : BitVec 31 :=
  let p := lfsrPower 64 n
  ((List.range 31).foldl (fun (a : BitVec 31 × BitVec 31) i =>
    (if p.getLsbD i then a.1 ^^^ a.2 else a.1, lfsrNext a.2)) (0, s)).1

/-- The bits of PRBS13 from a state on (R167). -/
def prbsBits : Nat → BitVec 13 → List Nat
  | 0, _ => []
  | n + 1, s =>
    let b := b2n ((bitOf s.toNat 0 != bitOf s.toNat 1) != (bitOf s.toNat 11 != bitOf s.toNat 12))
    b :: prbsBits n (BitVec.ofNat 13 (2 * s.toNat + b))

/-- The bits of bytes, least significant first. -/
def bitsOfBytes (l : List Byte) : List Nat :=
  l.flatMap fun b => (List.range 8).map fun i => b2n (bitOf b.toNat i)

/-- The bytes of bits, least significant first. -/
def bytesOfBits : Nat → List Nat → List Byte
  | 0, _ => []
  | n + 1, l => BitVec.ofNat 8 ((l.take 8).foldr (fun b a => b + 2 * a) 0) :: bytesOfBits n (l.drop 8)

/-- The bits of symbol values. -/
def bitsOfSymbols (l : List Nat) : List Nat := l.flatMap fun v => [(grayPair v).1, (grayPair v).2]

/-- The symbol values of bits. -/
def symbolsOfBits : List Nat → List Nat
  | lo :: hi :: r => grayValue lo hi :: symbolsOfBits r
  | _ => []

/-! ### Blocks (R162 to R167, R171) -/

/-- CRC8 of a block (R162). -/
def crc8 (l : List Byte) : Nat := crcOf 8 0x07 0 false false 0 l

/-- The number of ones in a byte. -/
def ones (n : Nat) : Nat := (bitList n 8).length

/-- A header byte (R163). -/
def blockHeader (bseq typ : Nat) (sop : Bool) : Byte :=
  let h := typ + 8 * b2n sop + 16 * (bseq % 8)
  BitVec.ofNat 8 (h + 128 * (ones h % 2))

/-- The 30 bytes of a block, its payload filled up with zeros (R162, R166). -/
def blockBytes (bseq typ : Nat) (sop : Bool) (payload : List Byte) : List Byte :=
  let b := blockHeader bseq typ sop :: (payload ++ List.replicate (28 - payload.length) 0)
  b ++ [BitVec.ofNat 8 (crc8 b)]

/-- TYPE of a block. -/
def blockType (b : List Byte) : Nat := bits (byteAt b 0).toNat 2 0
/-- SOP of a block. -/
def blockSop (b : List Byte) : Bool := bitOf (byteAt b 0).toNat 3
/-- BSEQ of a block. -/
def blockBseq (b : List Byte) : Nat := bits (byteAt b 0).toNat 6 4
/-- CRC8 of a block is correct. -/
def blockGood (b : List Byte) : Bool := decide ((byteAt b 29).toNat = crc8 (b.take 29))

/-- Even parity, and a TYPE of the forward direction (R163, R164). -/
def headerForm (b : List Byte) : Bool :=
  decide (ones (byteAt b 0).toNat % 2 = 0) && [0, 1, 2, 5, 6].contains (blockType b)

/-- A valid header on a lane whose last valid BSEQ is given (R163): the first after a LAST is adopted
(R175). -/
def headerValid (prev : Option Nat) (b : List Byte) : Bool :=
  headerForm b && (match prev with | none => true | some n => decide (blockBseq b = (n + 1) % 8))

/-- The unscrambled bytes of a TRAIN block (R160, R167). -/
def rawBytes (syms : List Nat) : List Byte := bytesOfBits 30 (bitsOfSymbols syms)

/-- MARKER and the type of a TRAIN block of the host for a lane (R167). -/
def isTrain (l : Lane) (b : List Byte) : Bool :=
  decide (blockType b = 5) && decide ((b.drop 1).take 4 = [0x0A, 0x0A, 0x0A, 0x0A]) && blockGood b
    && decide (byteAt b 5 = 0) && decide ((byteAt b 7).toNat = l.num)

/-- FLAGS of a TRAIN block: RX_READY, LAST, RESEAT. -/
def trainFlag (b : List Byte) (i : Nat) : Bool := bitOf (byteAt b 6).toNat i

/-- A CAPS block of the host for a lane (R171). -/
def isCaps (l : Lane) (b : List Byte) : Bool :=
  decide (blockType b = 6) && decide (byteAt b 1 = 1) && decide (byteAt b 2 = 0)
    && decide ((byteAt b 3).toNat = l.num)

/-- The LFSR's seed (R161). -/
def lfsrSeed : BitVec 31 := 0x7FFFFFFF

/-- The forward LFSR at a block's first bit: seeded at the first after a LAST (R161). -/
def lfsrHere (x : LaneSt) : BitVec 31 := if x.fresh then lfsrSeed else x.lfsr

/-- Bit times of the forward direction pass on a lane, scrambled or not (R161). -/
def bitTimes (n : Nat) (x : LaneSt) : LaneSt := { x with lfsr := lfsrSkip n (lfsrHere x), fresh := false }

/-- The bits of a block, and of a training unit. -/
def blockBits : Nat := 240
/-- See `blockBits`: 8,311 symbols (R167). -/
def unitBits : Nat := 16622

/-- What a lane receives in a block time, scrambled: the bytes, and the lane with its LFSR moved on. -/
def unscramble (x : LaneSt) (syms : List Nat) : List Byte × LaneSt :=
  let v := if x.preFwd then unprecode 0 syms else syms
  let r := scramble (lfsrHere x) (bitsOfSymbols v)
  (bytesOfBits 30 r.1, { x with lfsr := r.2, fresh := false })

/-! ### The return line (R160 to R167, R180) -/

/-- The symbol values of one block. -/
def blockLevels (typ : Nat) (lfsr : BitVec 31) (pre : Bool) (b : List Byte) : List Nat :=
  if typ = 5 then symbolsOfBits (bitsOfBytes b)
  else
    let v := symbolsOfBits (scramble lfsr (bitsOfBytes b)).1
    if pre then precode 0 v else v

/-- The blocks of a stretch of the line. -/
def Burst.blockList : Burst → List (List Byte)
  | .blocks n typ sop p bseq _ _ => (List.range n).map fun i => blockBytes (bseq + i) typ sop p
  | .units n p bseq => (List.range n).map fun i => blockBytes (bseq + i) 5 false p
  | .prbs _ => []

/-- The symbol values of so many symbols of PRBS13. -/
def prbsLevels (n : Nat) : List Nat := symbolsOfBits (prbsBits (2 * n) Config.prbsStart)

/-- The symbol values of a stretch of the line. -/
def Burst.levels : Burst → List Nat
  | .blocks n typ sop p bseq lfsr pre =>
    (List.range n).flatMap fun i =>
      blockLevels typ (lfsrSkip (blockBits * i) lfsr) pre (blockBytes (bseq + i) typ sop p)
  | .units n p bseq =>
    (List.range n).flatMap fun i => symbolsOfBits (bitsOfBytes (blockBytes (bseq + i) 5 false p)) ++ prbsLevels 8191
  | .prbs n => prbsLevels n

/-- The ps of a return block, of a training unit and of a symbol (R167). -/
def retBlockPs : Nat := 150000
/-- See `retBlockPs`. -/
def retUnitPs : Nat := 10388750
/-- See `retBlockPs`. -/
def retSymbolPs : Nat := 1250

/-- A stretch is put on a lane's return: so many blocks for BSEQ, so many bit times and so many ps of the line. -/
def putBurst (x : LaneSt) (u : Burst) (blocks bitTimes ps : Nat) : LaneSt :=
  { x with
    retBseq := (x.retBseq + blocks) % 8
    retLfsr := lfsrSkip bitTimes x.retLfsr
    retNext := x.retNext + ps
    sent := x.sent ++ [u] }

/-- `n` blocks of one type and payload are sent on a lane's return. -/
def sendRun (x : LaneSt) (n typ : Nat) (sop : Bool) (payload : List Byte) : LaneSt :=
  if n = 0 then x
  else putBurst x (.blocks n typ sop payload x.retBseq x.retLfsr x.preRet) n (blockBits * n) (retBlockPs * n)

/-- A block is sent on a lane's return. -/
def sendBlock (x : LaneSt) (typ : Nat) (sop : Bool) (payload : List Byte) : LaneSt := sendRun x 1 typ sop payload

/-- `n` training units are sent on a lane's return. -/
def sendUnits (x : LaneSt) (n : Nat) (payload : List Byte) : LaneSt :=
  if n = 0 then x else putBurst x (.units n payload x.retBseq) n (unitBits * n) (retUnitPs * n)

/-- PRBS13 is sent on a lane's return. -/
def sendPrbs (x : LaneSt) (n : Nat) : LaneSt := putBurst x (.prbs n) 0 (2 * n) (retSymbolPs * n)

/-- The return starts afresh after the engine's own LAST (R161, R163). -/
def returnSeeded (x : LaneSt) : LaneSt := { x with retBseq := 0, retLfsr := lfsrSeed }

/-- The engine's TRAIN payload on a lane (R167): `flags` bits RX_READY, LAST, RESEAT. -/
def trainPayload (l : Lane) (x : LaneSt) (flags : Nat) : List Byte :=
  [0x0A, 0x0A, 0x0A, 0x0A, 1, BitVec.ofNat 8 flags, BitVec.ofNat 8 l.num, 0]
    ++ x.eyeH.flatMap (leBytes 2)

/-- RX_READY of a lane's own forward receiver. -/
def readyBit (x : LaneSt) : Nat := b2n x.rxReady

/-- Four TRAIN blocks, the last with LAST, are sent on a return, which then starts afresh (R168, R180). -/
def sendLast (l : Lane) (x : LaneSt) : LaneSt :=
  returnSeeded (sendBlock (sendRun x 3 5 false (trainPayload l x (readyBit x))) 5 false
    (trainPayload l x (readyBit x + 2)))

/-- The engine's CAPS payload (R171). -/
def State.capsPayload (s : State) (l : Lane) (ack : Bool) : List Byte :=
  [1, 1, BitVec.ofNat 8 l.num, BitVec.ofNat 8 (ofFlags [s.flag pLinkCtrl 2, s.flag pLinkCtrl 3, true, ack])]
    ++ leBytes 4 0x1048 ++ leBytes 2 s.grp.node.toNat ++ leBytes 2 4100

/-! ### What a return carries in every block time (R165, R167, R168, R171, R181) -/

/-- The other lane. -/
def partner : Lane → Lane
  | .a => .b
  | .b => .a

/-- Change a lane. -/
def State.modLane (s : State) (l : Lane) (f : LaneSt → LaneSt) : State := s.setLane l (f (s.lane l))

/-- Mirror mode. -/
def State.mirror (s : State) : Bool := decide (s.fld pLinkCtrl 1 0 = 0)

/-- A return direction can send a record. -/
def returnOpen (x : LaneSt) : Bool := decide (x.stage = .active) && decide (x.ret = .l0) && !x.retTrain

/-- The IDLE code of the engine (R165): RETRAIN_REQ or RESEAT_REQ until the host responds. -/
def idleCode (x : LaneSt) : Nat :=
  if x.retrainReq then 4 else if x.reseatReq ∧ x.reseatLeft = 0 then 5 else 0

/-- What a lane's return has sent from where it was last looked at up to now, by the lane's stage: training units in
TRAIN and while the return trains, IDLE in LOCK and in ACTIVE, CAPS in CAPS, and nothing in DETECT and asleep. A block
or unit that has begun runs to its end. -/
def State.lineUpTo (s : State) (l : Lane) (x : LaneSt) : LaneSt :=
  let due := s.clk * 1000 - x.retNext
  let quiet := { x with retNext := max x.retNext (s.clk * 1000) }
  let units := sendUnits x (ceilDiv due retUnitPs) (trainPayload l x (readyBit x))
  let blocks := sendRun x (ceilDiv due retBlockPs)
  if !(x.phyOn && s.admits l && s.logicUp) then quiet
  else match x.stage with
    | .detect => quiet
    | .train => units
    | .lock => blocks 0 false [0]
    | .caps => blocks 6 false (s.capsPayload l x.capsRx)
    | .active =>
      if x.retTrain then units
      else match x.ret with
        | .l0 => blocks 0 false [BitVec.ofNat 8 (idleCode x)]
        | _ => quiet

/-- Both returns are brought up to now; `sent` keeps what has gone since the last time. -/
def State.lines (s : State) : State :=
  (s.modLane .a fun x => s.lineUpTo .a { x with sent := [] }).modLane .b fun x => s.lineUpTo .b { x with sent := [] }

/-- A return joins its partner's in mirror mode: the block times and BSEQ of one are those of the other (R174). -/
def State.joinReturn (s : State) (l : Lane) : State :=
  let p := s.lane (partner l)
  if s.mirror && returnOpen p then
    s.modLane l fun x =>
      let k := ceilDiv (x.retNext - p.retNext) retBlockPs
      { x with retNext := p.retNext + k * retBlockPs, retBseq := (p.retBseq + k) % 8 }
  else s

/-! ### Records on the return directions (R43, R48, R174, R276) -/

/-- The link output rings (R48), in the order of R48. -/
def linkRings : List Nat := [48, 59, 58, 57, 56, 49, 50, 51]

/-- A record waits for the return. -/
def State.recordWaits (s : State) : Bool := linkRings.any fun r => !(s.outRing r).isEmpty

/-- The head record of an output ring leaves it, and space has freed (R52). -/
def State.popOut (s : State) (r : Nat) : State :=
  let t := s.headOn r (sumOf (((s.outRing r).take 1).map fun x => slotsOf x.bytes.length))
  ({ t with cmd := { t.cmd with out := tput (fun _ => []) s.cmd.out r ((s.outRing r).drop 1) } }).spaceFreed r

/-- The head record of an output ring, read from its lines. One that cannot be read is discarded and counted,
and the next is the head (R276 code 11). -/
def State.headRecord (r : Nat) : Nat → State → State × Option Record
  | 0, s => (s, none)
  | n + 1, s =>
    match s.outRing r with
    | [] => (s, none)
    | x :: _ =>
      let m := s.ringsWritten.readEach 11 (s.ringLines r (s.headSlot r) (slotsOf x.bytes.length))
      if m.2.isEmpty then (m.1, some x)
      else State.headRecord r n ((m.1.popOut r).bump (if r < 56 then pRepliesLost else pEventsLost) 1)

/-- The head record of an output ring as it leaves: discarded records make room for no more than one. -/
def State.outHead (s : State) (r : Nat) : State × Option Record := State.headRecord r ((s.outRing r).length + 1) s

/-- The first record that one of several rings gives, and its ring. -/
def State.firstRecord : List Nat → State → State × Option (Nat × Record)
  | [], s => (s, none)
  | r :: l, s =>
    let h := s.outHead r
    match h.2 with
    | some x => (h.1, some (r, x))
    | none => State.firstRecord l h.1

/-- A record's bytes in blocks of 28. -/
def sendBlocks (x : LaneSt) (typ : Nat) (sop : Bool) : Nat → List Byte → LaneSt
  | 0, _ => x
  | _ + 1, [] => x
  | n + 1, b :: r => sendBlocks (sendBlock x typ sop ((b :: r).take 28)) typ false n ((b :: r).drop 28)

/-- A return direction sends a record. -/
def sendRecord (x : LaneSt) (typ : Nat) (l : List Byte) (now : Nat) : LaneSt :=
  sendBlocks { x with retIdleAt := now } typ true (ceilDiv l.length 28) l

/-- A record goes out on a lane's return, and in mirror mode on every open return with the same BSEQ (R174). -/
def State.putRecord (s : State) (l : Lane) (typ : Nat) (bytes : List Byte) : State :=
  let m := s.setLane l (sendRecord (s.lane l) typ bytes s.clk)
  if s.mirror && returnOpen (s.lane (partner l)) then
    m.setLane (partner l) (sendRecord { s.lane (partner l) with retBseq := (s.lane l).retBseq } typ bytes s.clk)
  else m

/-- The head record of the first non-empty link output ring is sent on a lane, at the next block of its return. -/
def State.sendHead (s : State) (l : Lane) : State :=
  if !s.admits l || !returnOpen (s.lane l) then s
  else
    let h := State.firstRecord linkRings s
    match h.2 with
    | none => h.1
    | some (r, x) => (h.1.putRecord l (if r < 56 then 3 else 4) x.bytes).popOut r

/-- The records of a ring are sent, and what goes before them: where a reply is sent before its command acts. -/
def State.sendOut (l : Lane) (ring : Nat) : Nat → State → State
  | 0, s => s
  | n + 1, s => if (s.outRing ring).isEmpty then s else State.sendOut l ring n (s.sendHead l)

/-- The records that wait in the link output rings. -/
def State.waitingOut (s : State) : Nat := sumOf (linkRings.map fun r => (s.outRing r).length)

/-- The returns are brought up to now, and the reply of a command that came over the link is sent, on the lane named
if it can, before the command acts. A reply on SPI is posted and does not wait for the host to read it (DESIGN CHOICE,
log 40). -/
def State.replyLeaves (s : State) (p : Pkt) (l : Lane) : State :=
  let s := s.lines
  if p.port ≠ .link then s
  else
    let l := if s.admits l && returnOpen (s.lane l) then l else partner l
    State.sendOut l (replyRing p) (s.waitingOut + 1) s

end Sys2Proof.Machine
end

