-- ==== Sys2Proof/Machine/System.lean ====
section
/-! DEFINITION. The system opcodes (02_command_model.md): PING, IDENTIFY, RESET, PARAM_GET,
PARAM_SET, STATUS_GET, EVENT_ACK and RING_CONFIG. -/

namespace Sys2Proof.Machine

/-- An outcome that is simply complete, with result words. -/
def okOut (s : State) (r : List Word) : Out := { s := s, results := r }

/-- A step-8 failure with no result words, unless a condition holds. -/
def need (b : Bool) : Option (List Word) := if b then none else some []

/-- A step-9 failure with no result words, when a condition holds. -/
def stop (b : Bool) (status : Nat) : Option (Nat × List Word) := if b then some (status, []) else none

/-- The first failure of two in the order of R415. -/
def orElse9 (a b : Option (Nat × List Word)) : Option (Nat × List Word) :=
  match a with
  | some x => some x
  | none => b

/-- A command that needs to write MRAM is rejected while MRAM writes are inhibited (R314). -/
def mramGate (s : State) : Option (Nat × List Word) := stop s.thm.inhibit stWrongState

/-- A command that is not journaled (R413). -/
def jnlNone : Pkt → Nat := fun _ => 0
/-- A command that is always journaled durably (R413, J+). -/
def jnlDurable : Pkt → Nat := fun _ => 2
/-- A command that the class-0 record covers (R413, C). -/
def jnlClass0 : Pkt → Nat := fun _ => 3

/-! ### PING -/

/-- PING: DEVTIME, then ECHO unchanged. -/
def pingDef : OpDef :=
  { jnl := jnlNone
    rlen := fun p => p.plen + 2
    len := fun p => decide (p.plen ≤ 16)
    run := fun _ p s => okOut s (words64 s.pwr.devtime.toNat ++ wordsOf p.params) }

def execPing (p : Pkt) (s : State) : Host.Outcome State Fault Refusal :=
  .next (serveOp 0x0001 pingDef p false s)

/-! ### IDENTIFY -/

/-- The results of IDENTIFY. -/
def identifyWords (s : State) : List Word :=
  let v := if s.nvm.variant = .aq then 0 else 1
  let other := 1 - s.nvm.running
  [0x00001048, w32 (v + 256 * Config.stepping.toNat + 65536 * s.nvm.running),
   w32 (s.slotVersion s.nvm.running), if s.slotValid other then w32 (s.slotVersion other) else 0]
    ++ words64 Config.serial.toNat ++ [w32 s.grp.node.toNat] ++ words64 s.grp.groups.toNat

def identifyDef : OpDef :=
  { jnl := jnlNone
    rlen := fun _ => 9
    len := fun p => decide (p.plen = 0)
    run := fun _ _ s => okOut s (identifyWords s) }

def execIdentify (p : Pkt) (s : State) : Host.Outcome State Fault Refusal :=
  .next (serveOp 0x0002 identifyDef p false s)

/-! ### RESET (R352) -/

/-- What RESET does: level 0, 1, or a full reset, which is released at once with wake cause 2 (DEDUCED, log 14). -/
def resetEffect (level : Nat) (s : State) : State :=
  if level = 0 then s.restartDue 0
  else if level = 1 then s.seqRestart 1 0
  else s.fullReset .regulator 0 2

/-- RESET acts once its reply has been sent: levels 0 and 1 keep the rings, and before a full reset the reply leaves on
the link. -/
def resetAfter (p : Pkt) (s : State) : State :=
  resetEffect (p.u8 16) (if p.u8 16 = 2 then s.replyLeaves p .a else s)

def resetDef : OpDef :=
  { jnl := jnlDurable
    len := fun p => decide (p.plen = 2)
    bad := fun p _ => need (decide (p.u8 16 ≤ 2) && p.zero 17 3 && decide (p.u32 20 = 0xA5A55A5A))
    run := fun _ p s => { s := s, post := resetAfter p } }

def execSequencerRestart (p : Pkt) (s : State) : Host.Outcome State Fault Refusal :=
  .next (serveOp 0x0003 resetDef (p.fix 16 0) false s)

def execPipelineSoftReset (p : Pkt) (s : State) : Host.Outcome State Fault Refusal :=
  .next (serveOp 0x0003 resetDef (p.fix 16 1) false s)

def execFullReset (p : Pkt) (s : State) : Host.Outcome State Fault Refusal :=
  .next (serveOp 0x0003 resetDef (p.fix 16 2) false s)

/-! ### PARAM_GET -/

/-- The IDs of a PARAM_GET. -/
def getIds (p : Pkt) : List Nat := (List.range (p.u16 16)).map fun k => p.u16 (20 + 2 * k)

/-- The two result words of one ID: ID and ESTAT, then the value. -/
def getEntry (s : State) (shadow : Bool) (id : Nat) : List Word :=
  match prmRow id with
  | none => [halves id stBadParam, 0]
  | some _ =>
    [halves id 0, w32 (if shadow && prmShadowed id then s.shadow id else s.prmRead id)]

/-- The results of PARAM_GET. -/
def getWords (p : Pkt) (s : State) : List Word :=
  w32 (p.u16 16) :: (getIds p).flatMap (getEntry s (bitOf (p.u16 18) 0))

def paramGetDef : OpDef :=
  { jnl := jnlNone
    rlen := fun p => 1 + 2 * p.u16 16
    words := fun st p s => if st = stBadParam then getWords p s else []
    len := fun p => decide (p.plen = 1 + (p.u16 16 + 1) / 2)
    bad := fun p s =>
      if p.u16 16 < 1 ∨ 256 < p.u16 16 ∨ 1 < p.u16 18
          ∨ (p.u16 16 % 2 = 1 ∧ p.u16 (20 + 2 * p.u16 16) ≠ 0) then some []
      else if (getIds p).all fun id => (prmRow id).isSome then none
      else some (getWords p s)
    run := fun _ p s => okOut s (getWords p s) }

def execParamGet (p : Pkt) (s : State) : Host.Outcome State Fault Refusal :=
  .next (serveOp 0x0004 paramGetDef p false s)

/-! ### PARAM_SET (R419) -/

/-- The entries of a PARAM_SET: ID and value. -/
def setEntries (p : Pkt) : List (Nat × Nat) :=
  (List.range (p.u16 16)).map fun k => (p.u16 (20 + 8 * k), p.u32 (24 + 8 * k))

/-- The value of a parameter after every entry of a list: the last one listed, else the present
shadow or live value (R419). -/
def State.finalValue (s : State) (l : List (Nat × Nat)) (id : Nat) : Nat :=
  match l.reverse.find? fun e => e.1 = id with
  | some e => e.2
  | none => if prmShadowed id then s.shadow id else s.prmRead id

/-- The place of the last entry of a list that writes one of some parameters. -/
def lastOf (l : List (Nat × Nat)) (ids : List Nat) : Option Nat :=
  maxOf? ((List.range l.length).filter fun k => ids.contains (l.getD k (0, 0)).1)
where
  maxOf? : List Nat → Option Nat
    | [] => none
    | a :: r => some (r.foldl max a)

/-- The timing that a rate and fields name is permitted (R185). -/
def timingOk (framTiming nom : Nat) : Bool :=
  let f := 2 ^ bits framTiming 5 4 * nom
  let n := 2 ^ (bits framTiming 1 0 + 2)
  decide (f ≤ 240000) && decide (960000 ≤ f * n) && decide (f * n ≤ 3840000)

/-- The condition of R157 on BUDGET and RSENSE: 1.1 x BUDGET x RSENSE is at most 120 mV. -/
def shuntOk (budget rsense : Nat) : Bool := decide (11 * budget * rsense ≤ 10 * 120000000)
/-- The condition of R157 on BUDGET and GUARD. -/
def guardOk (budget guard : Nat) : Bool := decide (guard < budget)

/-- A CAL_SWEEP is running (R84). -/
def State.sweeping (s : State) : Bool :=
  s.cmd.jobs.any fun b => match b.kind with | .calSweep _ _ _ => true | _ => false

/-- The BAD_PARAM failures of a list, by place (R419, R60). -/
def State.badEntries (s : State) (l : List (Nat × Nat)) : List Nat :=
  let v := s.finalValue l
  let own := (List.range l.length).filter fun k =>
    let e := l.getD k (0, 0)
    !prmValueOk e.1 e.2
      || (e.1 = pLinkCtrl && decide (bits e.2 1 0 ≠ s.fld pLinkCtrl 1 0))
      || (e.1 = pFwFloor && decide (e.2 < s.nvm.floor.toNat))
  let pair := fun (a b : Nat) (ok : Nat → Nat → Bool) =>
    if ok (v a) (v b) then [] else (lastOf l [a, b]).toList
  own ++ pair pFrameTiming pSyncNom timingOk ++ pair pBudget pRsense shuntOk
    ++ pair pBudget pGuard guardOk

/-- The step-9 failures of a list, by place and status (R415). -/
def State.stateEntries (s : State) (p : Pkt) (l : List (Nat × Nat)) : List (Nat × Nat) :=
  let v := s.finalValue l
  (List.range l.length).flatMap fun k =>
    let e := l.getD k (0, 0)
    (if e.1 = pScanBase && !bitOf (v pScanMode) 0 then
        [((lastOf l [pScanBase, pScanMode]).getD k, stWrongState)] else [])
    ++ (if (e.1 = pFwFloor || e.1 = pAuthRequire) && s.thm.inhibit then [(k, stWrongState)] else [])
    ++ (if e.1 = pBudget && s.tripHolds && decide (s.live pBudget < e.2) then [(k, stWrongState)] else [])
    ++ (if (e.1 = pFrameTiming || e.1 = pSyncNom || e.1 = pSyncPhase) && decide (s.frm.state = .switching)
        then [(k, stBusy)] else [])
    ++ (if 0x0410 ≤ e.1 && e.1 ≤ 0x041F && s.sweeping then [(k, stBusy)] else [])
    ++ (if e.1 = pAuthRequire && !(match s.covering p with | some x => decide (x.key ≤ 1) | none => false)
        then [(k, stNotAuth)] else [])

/-- The result word of PARAM_SET. -/
def setWord (applied firstBad : Nat) : List Word := [halves applied firstBad]

/-- The least place of a failure with a status, for FIRST_BAD. -/
def firstWith (l : List (Nat × Nat)) (st : Nat) : Option Nat :=
  match (l.filter fun e => e.2 = st).map (·.1) with
  | [] => none
  | a :: r => some (r.foldl min a)

/-- Write every entry in list order, then COMMIT if asked (R419, R192). -/
def State.writeEntries (s : State) (l : List (Nat × Nat)) (commit : Bool) : State :=
  let s := l.foldl (fun s e => s.prmWrite e.1 e.2) s
  if commit then s.setCommit else s

def paramSetDef : OpDef :=
  { rlen := fun _ => 1
    words := fun _ _ _ => setWord 0 0xFFFF
    len := fun p => decide (p.plen = 1 + 2 * p.u16 16)
    bad := fun p s =>
      let res := (List.range (p.u16 16)).filter fun k => decide (p.u16 (22 + 8 * k) ≠ 0)
      match res ++ s.badEntries (setEntries p) with
      | [] => if p.u16 16 < 1 ∨ 509 < p.u16 16 ∨ 1 < p.u16 18 then some (setWord 0 0xFFFF) else none
      | a :: r => some (setWord 0 (r.foldl min a))
    gate := fun p s =>
      let f := s.stateEntries p (setEntries p)
      let at_ := fun (st : Nat) => (firstWith f st).map fun k => (st, setWord 0 k)
      orElse9 (at_ stNotAuth) (orElse9 (at_ stWrongState) (at_ stBusy))
    run := fun _ p s =>
      okOut (s.writeEntries (setEntries p) (bitOf (p.u16 18) 0)) (setWord (p.u16 16) 0xFFFF) }

def execParamSet (p : Pkt) (s : State) : Host.Outcome State Fault Refusal :=
  .next (serveOp 0x0005 paramSetDef p false s)

/-! ### STATUS_GET -/

/-- A slice is running. -/
def State.sliceRuns (s : State) : Bool := s.bist.slice.isSome

/-- The FLAGS of STATUS_GET. -/
def statusFlags (s : State) : Nat :=
  ofFlags [s.faultn, s.alertn, !s.cmd.unack.isEmpty, decide (s.frm.state = .locked),
    decide (s.frm.state = .holdover), s.prm.commit, s.cmd.restarted, s.sweeping, s.sliceRuns]

/-- Records held in the event rings. -/
def evqCount (s : State) : Nat := sumOf ((List.range 8).map fun n => (s.outRing (56 + n)).length)

/-- The results of STATUS_GET. -/
def statusWords (s : State) : List Word :=
  [w32 (s.diag.safe + 256 * powerCode s.pwr.state + 65536 * statusFlags s), s.frm.frame]
    ++ words64 s.pwr.devtime.toNat
    ++ [w32 (s.prmRead pJrnlNewest), w32 (satAdd 32 (s.live pCrcDropsLink) (s.live pCrcDropsSpi)),
        w32 (stageCode s.link.laneA.stage + 256 * stageCode s.link.laneB.stage + 65536 * evqCount s), 0]

def statusGetDef : OpDef :=
  { jnl := jnlNone
    rlen := fun _ => 8
    len := fun p => decide (p.plen = 0)
    run := fun _ _ s => okOut { s with cmd := { s.cmd with restarted := false } } (statusWords s) }

def execStatusGet (p : Pkt) (s : State) : Host.Outcome State Fault Refusal :=
  .next (serveOp 0x0006 statusGetDef p false s)

/-! ### EVENT_ACK (R57) -/

/-- An ESEQ precedes or equals another in modulo-2^32 order (R49). -/
def eseqCovered (ack e : Word) : Bool := decide ((ack - e).toNat < 2 ^ 31)

def eventAckDef : OpDef :=
  { rlen := fun _ => 1
    len := fun p => decide (p.plen = 1)
    run := fun _ p s =>
      let left := s.cmd.unack.filter fun e => !eseqCovered (w32 (p.u32 16)) e
      okOut { s with cmd := { s.cmd with unack := left } }
        [halves (s.cmd.unack.length - left.length) left.length] }

def execEventAck (p : Pkt) (s : State) : Host.Outcome State Fault Refusal :=
  .next (serveOp 0x0007 eventAckDef p false s)

/-! ### RING_CONFIG -/

/-- An entry of RING_CONFIG: ring, class, policy, depth. -/
def ringEntry (p : Pkt) (k : Nat) : Nat × Nat × Nat × Nat :=
  (p.u8 (20 + 8 * k), p.u8 (21 + 8 * k), p.u8 (22 + 8 * k), p.u16 (24 + 8 * k))

/-- The entries of RING_CONFIG. -/
def ringEntries (p : Pkt) : List (Nat × Nat × Nat × Nat) := (List.range (p.u16 16)).map (ringEntry p)

/-- The configuration that an entry gives. -/
def ringCfgOf (e : Nat × Nat × Nat × Nat) : RingCfg :=
  { cls := e.2.1, advance := decide (e.2.2.1 = 1), depth := e.2.2.2 }

/-- The ring table after the entries. -/
def ringsAfter (s : State) (l : List (Nat × Nat × Nat × Nat)) : Tab RingCfg :=
  l.foldl (fun t e => tput ringDefault t e.1 (ringCfgOf e)) s.cmd.rings

/-- An entry's own values are in range. -/
def ringEntryOk (p : Pkt) (k : Nat) : Bool :=
  let e := ringEntry p k
  decide (p.u8 (23 + 8 * k) = 0) && decide (p.u16 (26 + 8 * k) = 0) && decide (e.1 ≤ 63)
    && decide (e.1 ≠ p.ring)
    && (if e.1 < 48 then decide (e.2.1 ≤ 3) && decide (e.2.2.1 ≤ 1)
          && (decide (e.2.2.2 = 0) || (decide (8 ≤ e.2.2.2) && decide (e.2.2.2 ≤ 8192)))
        else decide (e.2.1 = 0) && decide (e.2.2.1 = 0) && decide (8 ≤ e.2.2.2) && decide (e.2.2.2 ≤ 8192))

/-- The rings 0 to 63. -/
def allRings : List Nat := List.range 64

/-- The sum of all depths. -/
def depthSum (t : Tab RingCfg) : Nat := sumOf (allRings.map fun r => (tget ringDefault t r).depth)

/-- A ring is empty: no waiting packet, or no record and no reserved slot. -/
def State.ringEmpty (s : State) (r : Nat) : Bool :=
  if r < 48 then !(s.cmd.waiting.any fun w => decide (w.pkt.ring = r))
  else (s.outRing r).isEmpty && decide (tget (fun _ => 0) s.cmd.reserved r = 0)

/-- The entry that describes a ring, in the layout of RING_CONFIG. -/
def ringWords (s : State) (r : Nat) : List Word :=
  let c := s.ring r
  [w32 (r + 256 * c.cls + 65536 * b2n c.advance), w32 c.depth]

def ringConfigDef : OpDef :=
  { jnl := fun p => if p.u16 16 = 0 then 0 else 1
    rlen := fun p => if p.u16 16 = 0 then 128 else 1
    len := fun p => decide (p.plen = 1 + 2 * p.u16 16)
    bad := fun p s =>
      let l := ringEntries p
      let t := ringsAfter s l
      need (decide (p.u16 18 = 0) && decide (p.u16 16 ≤ 64)
        && (List.range (p.u16 16)).all (ringEntryOk p) && decide ((l.map (·.1)).Nodup)
        && (decide (p.u16 16 = 0)
            || ((allRings.any fun r => decide (r < 48) && decide ((tget ringDefault t r).cls = 2)
                  && decide (0 < (tget ringDefault t r).depth)) && decide (depthSum t ≤ 8192))))
    gate := fun p s => stop (!((ringEntries p).all fun e => s.ringEmpty e.1)) stBusy
    run := fun _ p s =>
      if p.u16 16 = 0 then okOut s (allRings.flatMap (ringWords s))
      else
        let l := ringEntries p
        let rs := l.map (·.1)
        let t := ringsAfter s l
        let drop := fun (n : Nat) => !rs.contains (n % 64)
        okOut { s with cmd := { s.cmd with
            rings := t
            heads := tkeep s.cmd.heads fun r => !rs.contains r
            expSeq := tkeep s.cmd.expSeq drop
            kept := tkeep s.cmd.kept drop } }
          [w32 (8192 - depthSum t)] }

def execRingConfig (p : Pkt) (s : State) : Host.Outcome State Fault Refusal :=
  .next (serveOp 0x0008 ringConfigDef p false s)

end Sys2Proof.Machine
end

