-- ==== Sys2Proof/Machine/Frame.lean ====
section
/-! DEFINITION. Frames, SYNC_IN, video input and the host-stale timer
(08_frame_timing_scanout.md): the tracker's rows, the video lines that blocks carry, and the opcodes
0x0201 to 0x0205. The seam itself is in Machine/Seam.lean. -/

namespace Sys2Proof.Machine

/-! ### DEVTIME steps (15_power_states.md R343, 05_glare_free_shadowing.md R132) -/

/-- DEVTIME in us, a 48-bit count, shifted by a step. -/
def shift48 (t : BitVec 48) (d : Int) : BitVec 48 := t + BitVec.ofInt 48 d

/-- DEVTIME becomes `new`: every active context, the FORCE hold, the last latch instant and the
recorded edges move with it, and the time state becomes SET (R132, R343; DEDUCED, log 15). -/
def State.setDevtime (s : State) (new : Nat) : State :=
  let n : BitVec 64 := BitVec.ofNat 64 new
  let step := n - s.pwr.devtime
  let d : Int := ((n.toNat / 1000 : Nat) : Int) - ((s.pwr.devtime.toNat / 1000 : Nat) : Int)
  { s with
    comp := { s.comp with tokens := s.comp.tokens.map fun (k : Token) =>
      { k with tS := ((k.tS : Int) + step.toInt).toNat } }
    pwr := { s.pwr with
      devtime := n
      time := .set
      boundUs := 0
      lastSet := n
      lastStep := step.toInt
      edges := s.pwr.edges.map fun (e : Edge) => { e with time := e.time + step } }
    frm := { s.frm with latchTime := s.frm.latchTime + step, prevLatch := s.frm.prevLatch + step }
    shd := { s.shd with
      ctx := s.shd.ctx.map fun (e : Nat × ObjCtx) =>
        if e.2.active then (e.1, { e.2 with tCap := shift48 e.2.tCap d, tUpd := shift48 e.2.tUpd d })
        else e
      force := if s.shd.force.tiles = 0 then s.shd.force
        else { s.shd.force with start := shift48 s.shd.force.start d } } }

/-- A SET_TIME acts (R343): TIME_STEP (R340), then DEVTIME becomes `new`; `cnt` is the SYNC_COUNT of
the edge, 0 with NOW. -/
def State.timeStep (s : State) (ring new : Nat) (isNow : Bool) (cnt : Nat) : State :=
  let step := ((BitVec.ofNat 64 new : BitVec 64) - s.pwr.devtime).toInt
  let us := clampI (-2 ^ 31) (2 ^ 31 - 1) (step / 1000)
  (s.evt 0x0005 (if 1000000 ≤ step.natAbs then 1 else 0) ring (timeCode s.pwr.time) (b2n isNow)
    (twos 32 us) cnt).setDevtime new

/-- The results of SET_TIME: the step, then DEVTIME of the edge or of the execution. -/
def setTimeWords (step : BitVec 64) (at_ : BitVec 64) : List Word :=
  words64 step.toNat ++ words64 at_.toNat

/-! ### The sync tracker (R186 to R189) -/

/-- The tracker runs: SYNC_EN is set and the PTB is powered (R336). -/
def State.tracks (s : State) : Bool :=
  s.flag pSyncCtrl 0 && (decide (s.pwr.state = .active) || decide (s.pwr.state = .idle))
    && decide (s.pwr.boot ≠ .held)

/-- The nominal sync period in ns. -/
def State.nomNs (s : State) : Nat := 10 ^ 12 / s.live pSyncNom

/-- Distance of a spacing from the nearest whole multiple of a period, signed: the multiple and the
difference. -/
def nearest (gap period : Nat) : Nat × Int :=
  let n := (gap + period / 2) / period
  (n, (gap : Int) - (n * period : Nat))

/-- The difference of the PTB's latch grid from the grid of R188 at an accepted edge now, in ns. -/
def State.gridError (s : State) (syncNs : Nat) : Int :=
  let f := syncNs / timingMul s.frm.timing
  let t := (s.clk : Int) + signed 16 s.frm.timing.phase.toNat * syncNs / 65536 - s.frm.latchClk
  let r := t % (f : Int)
  if r * 2 ≤ f then r else r - f

/-- An edge is accepted: counted and recorded with its DEVTIME (R336). -/
def State.recordEdge (s : State) : State :=
  let c := s.pwr.syncCount + 1
  { s with pwr := { s.pwr with
    syncCount := c
    edges := ({ count := c, time := s.pwr.devtime } :: s.pwr.edges).take 16 } }

/-- A SET_TIME that waited for this edge is applied at it, and its reply follows (R343). -/
def State.edgeHolds (s : State) : State :=
  s.cmd.held.foldl (fun s h => match h.kind with
    | .edge c t =>
      if c = s.pwr.syncCount then
        let step := t - s.pwr.devtime
        (s.timeStep h.pkt.ring t.toNat false c.toNat).endHeld h.opcode h.pkt h.jseq h.gap stOk 1 (setTimeWords step t)
      else s
    | _ => s) s

/-- A SET_TIME that waits for an edge ends with TIMEOUT, nothing applied (R343). -/
def State.edgeTimeouts (s : State) (p : Held → Bool) : State :=
  s.cmd.held.foldl (fun s h => match h.kind with
    | .edge _ _ => if p h then s.endHeld h.opcode h.pkt h.jseq h.gap stTimeout 0 [] else s
    | _ => s) s

/-- The tracker has acquired SYNC_IN: a grid within 2.0 us pulls in and is locked, any other grid is
taken by the procedure of R195 (R189). -/
def State.acquire (s : State) (syncNs : Nat) : State :=
  let e := s.gridError syncNs
  let s := { s with frm := { s.frm with acquired := true } }
  if s.frm.state = .switching ∨ s.frm.state = .locked then s
  else if !s.frm.running ∨ (-2000 ≤ e ∧ e ≤ 2000) then
    ({ s with frm := { s.frm with
        pullIn := e
        phaseErr := e
        missed := 0
        holdStart := none
        timing := { s.frm.timing with syncPs := 1000 * syncNs } } }).setSync .locked
  else
    ({ s with frm := { s.frm with
        change := some { next := s.timingWanted (1000 * syncNs), bridge := true, sAt := s.clk } } }).setSync .switching

/-- An edge is accepted after a spacing of `n` periods. -/
def State.acceptEdge (s : State) (gap n : Nat) : State :=
  let t := gap / n
  let s := { s with frm := { s.frm with
    lastEdge := some s.clk
    edgeRun := s.frm.edgeRun + 1
    missed := 0
    tSyncNs := t } }
  let s := s.recordEdge
  let s := if s.frm.state = .locked then
      { s with frm := { s.frm with
        phaseErr := s.gridError t
        timing := { s.frm.timing with syncPs := 1000 * t } } }
    else if 4 ≤ s.frm.edgeRun then s.acquire t else s
  s.edgeHolds

/-- An edge opens a run of spacings: there is no accepted edge within reach before it (DEDUCED, log 16). -/
def State.firstEdge (s : State) : State :=
  (({ s with frm := { s.frm with lastEdge := some s.clk, edgeRun := 1 } }).recordEdge).edgeHolds

/-- A SYNC_IN edge (R186): accepted by its spacing, or ignored and counted. -/
def State.syncEdge (s : State) : State :=
  if !s.tracks then s
  else match s.frm.lastEdge with
    | none => s.firstEdge
    | some e =>
      let gap := s.clk - e
      if s.frm.state = .locked then
        let x := nearest gap (s.frm.timing.syncPs / 1000)
        if 1 ≤ x.1 ∧ 100 * x.2.natAbs ≤ s.frm.timing.syncPs / 1000 then s.acceptEdge gap x.1
        else s.bump pSyncGlitch 1
      else
        let p := s.nomNs
        if 50 * ((gap : Int) - p).natAbs ≤ p then s.acceptEdge gap 1
        else if gap < p then s.bump pSyncGlitch 1
        else s.firstEdge

/-- An edge of SYNC_IN; the tracker takes the one that FALLING selects. -/
def execSyncInEdge (edge : SyncEdge) (s : State) : Host.Outcome State Fault Refusal :=
  let s := s.elapse edge.dt
  .next (if edge.falling = s.flag pSyncCtrl 2 then s.syncEdge else s)

/-- The tracker loses its lock (R187): holdover, and a SET_TIME that waits for an edge ends. -/
def State.loseLock (s : State) : State :=
  let s := { s with frm := { s.frm with edgeRun := 0, missed := 2 } }
  let s := if s.frm.state = .locked then
      ({ s with frm := { s.frm with holdStart := some s.clk } }).setSync .holdover
    else match s.frm.change with
      | some c =>
        if c.bridge && !c.fixed then
          { s with frm := { s.frm with holdStart := some s.clk, change := some { c with bridge := false, sAt := s.clk } } }
        else s
      | none => s
  s.edgeTimeouts fun _ => true

def execSyncEdgeMissed (dt : Nat) (s : State) : Host.Outcome State Fault Refusal :=
  let s := s.elapse dt
  .next (if s.frm.state = .locked ∨ s.frm.change.isSome then s.loseLock else s)

/-- The bridge of a change whose new grid has a latch instant `off` ns from now (R195, R196): S is
the first old latch instant at least 1 ms away, L_new the first of the new grid at least one old
sub-frame after S. In paired cadence D may be below two old sub-frames, where the k of R196 would be below 0: k is
then 0, and the bridge pair's halves are shorter than an old sub-frame (DESIGN CHOICE, log 40). -/
def State.fixChange (s : State) (c : Change) (off : Nat) : Change :=
  let syncPs := if s.frm.tSyncNs = 0 then c.next.syncPs else 1000 * s.frm.tSyncNs
  let next := { c.next with syncPs := syncPs }
  let fOld := timingFramePs s.frm.timing
  let pwm := timingPwmPs s.frm.timing
  let fNew := timingFramePs next
  let now := 1000 * s.clk
  let n := ceilDiv (now + 10 ^ 9 - 1000 * s.frm.latchClk) fOld
  let sPs := 1000 * s.frm.latchClk + n * fOld
  let l0 := now + 1000 * off
  let lPs := if sPs + pwm ≤ l0 then l0 - (l0 - (sPs + pwm)) / fNew * fNew
    else l0 + ceilDiv (sPs + pwm - l0) fNew * fNew
  let d := lPs - sPs
  let paired := timingPaired s.frm.timing
  let k := if paired then 2 * (d / (2 * pwm) - 1) else d / pwm - 1
  let rest := d - k * pwm
  { c with next := next
           fixed := true
           sAt := sPs / 1000
           lNew := lPs / 1000
           oldSubs := k
           bridgePs := if paired then rest / 2 else rest }

def execPtbLock (dt gridOffset : Nat) (s : State) : Host.Outcome State Fault Refusal :=
  let s := s.elapse dt
  .next (match s.frm.change with
    | some c =>
      if c.bridge && !c.fixed then
        { s with frm := { s.frm with change := some (s.fixChange c gridOffset) } }
      else s
    | none => s)

/-! ### Valid input (R205) and the host-stale timer -/

/-- A valid input: the timer restarts, and the HOST_STALE cause clears while STALE_AUTO is 1 (R205,
R239). -/
def State.validInput (s : State) : State :=
  let s := { s with frm := { s.frm with staleStart := some s.clk } }
  if s.hasCause 6 && s.flag pDiagCtrl 0 then s.clearCauses 64 else s

/-- A packet addressed to this engine has passed step 3 of R42 (R205, BASE_SRC 1). -/
def State.packetInput (s : State) : State := if s.flag pCompCtrl 0 then s.validInput else s

/-- HOST_STALE (R205, R210): the timer has reached its limit. -/
def State.hostStale (s : State) (t : Nat) : State :=
  let s1 := s.evt 0x0202 2 0xFF (s.live pHostStale) (b2n (s.flag pCompCtrl 0)) (s.since t / 1000000) s.frm.frame.toNat
  ({ s1 with frm := { s1.frm with staleStart := none } }).addCause 6

def execHostStale (dt : Nat) (s : State) : Host.Outcome State Fault Refusal :=
  let s := s.elapse dt
  .next (match s.frm.staleStart with
    | some t =>
      if s.pwr.state = .active ∧ s.live pHostStale ≠ 0 ∧ s.live pHostStale * 1000000 ≤ s.since t
        then s.hostStale t else s
    | none => s)

/-! ### Video input (R198 to R203) -/

/-- The address of frame buffer 0 or 1. -/
def bufBase (k : Nat) : Nat := if k = 0 then 0 else 0x200000

/-- The frame buffer that video is assembled into: the one that the live SCAN_BASE does not name. -/
def State.backBuf (s : State) : Nat := if s.live pScanBase = 0x200000 then 0 else 1

/-- The 16-bit values of a line's data (R199). -/
def lineValues (fmt : Nat) (d : List Byte) : List Nat :=
  (List.range 2048).map fun u =>
    let b := fun (i : Nat) => (byteAt d i).toNat
    match fmt with
    | 0 => b u * 257
    | 1 =>
      let g := b (u / 2 * 3) + 256 * b (u / 2 * 3 + 1) + 65536 * b (u / 2 * 3 + 2)
      let x := if u % 2 = 0 then g % 4096 else g / 4096
      16 * x + x / 256
    | _ => b (2 * u) + 256 * b (2 * u + 1)

/-- The length of a video line packet by FMT (R198). -/
def lineLength (fmt : Nat) : Nat :=
  match fmt with
  | 0 => 2060
  | 1 => 3084
  | 2 => 4108
  | _ => 20

/-- A good line packet (R198). -/
def State.lineGood (s : State) (l : List Byte) : Bool :=
  let fmt := (byteAt l 6).toNat
  let line := ofLe ((l.drop 4).take 2)
  decide (12 ≤ l.length) && decide (fmt ≤ 3) && decide (l.length = lineLength fmt)
    && decide (ofLe (l.drop (l.length - 4)) = crc32 (l.take (l.length - 4)))
    && (decide (fmt = 3) || bitOf (s.fld pVideoCtrl 2 0) fmt)
    && (if fmt = 3 then decide (line = 512) else decide (line < 512))

/-- FRAME_DROP (R210), at most once per frame, which is taken as the scan-out frame (DESIGN CHOICE, log 40). -/
def State.frameDrop (s : State) (reason m : Nat) (frame : Word) (crc : Nat) : State :=
  let s := s.bump pFramesDropped 1
  if s.frm.dropRaised then s
  else ({ s with frm := { s.frm with dropRaised := true } }).evt 0x0203 1 0xFF reason m frame.toNat crc

/-- The check results of a frame closed with every line received (FREEZE_STATUS). -/
def State.checkResult (s : State) (a : Assembling) (crc : Nat) : Nat :=
  match a.expect with
  | none => 0
  | some e => if !s.flag pVideoCtrl 17 then 3 else if e.toNat = crc then 1 else 2

/-- A frame closes and is judged (R201): dropped, or its missing lines are to be copied. -/
def State.frameClose (s : State) (a : Assembling) : State :=
  let m := 512 - a.lines.length
  let crc := if m = 0 then crc32 (s.sramBytes (bufBase s.backBuf) 0x200000) else 0
  let s := { s with frm := { s.frm with asm := none, lastFrame := some a.frame } }
  let s := if m = 0 then
      { s with frm := { s.frm with
        inCrc := w32 crc
        inExpect := a.expect.getD 0
        inFrame := a.frame
        inResult := s.checkResult a crc } } else s
  if s.fld pVideoCtrl 11 8 < m then s.frameDrop 1 m a.frame 0
  else if s.flag pVideoCtrl 16 && a.expect.isNone then s.frameDrop 3 m a.frame crc
  else if m = 0 ∧ s.checkResult a crc = 2 then s.frameDrop 2 m a.frame crc
  else { s with frm := { s.frm with copying := some (s.backBuf, a.frame, m) , asm := some a } }

/-- The lines that a frame in assembly has not received. -/
def missingLines (a : Assembling) : List Nat := (List.range 512).filter fun v => !a.lines.contains v

/-- One missing video line is copied from the front buffer, memory line by memory line. One that cannot be read
is not copied: the back buffer's own line stands in for it, as R112 has it (DEDUCED, log 40). -/
def State.copyLine (s : State) (src dst : Nat) : State :=
  let r := s.readSpan 1 src 4096
  (List.range 64).foldl (fun s i =>
    if r.2.contains (src + 64 * i) then s else s.writeSram (dst + 64 * i) (s.sramBytes (src + 64 * i) 64)) r.1

/-- The missing lines are copied from the front buffer and the frame is ready (R201). -/
def State.frameReady (s : State) (buf : Nat) (frame : Word) (m : Nat) : State :=
  let lines := match s.frm.asm with | some a => missingLines a | none => []
  let front := s.live pScanBase
  let s := lines.foldl (fun s v => s.copyLine (front + 4096 * v) (bufBase buf + 4096 * v)) s
  let s := (s.bump pLinesSubst m).bumpGen
  let s := { s with frm := { s.frm with copying := none, asm := none, ready := some (buf, frame) } }
  if s.flag pCompCtrl 0 then s else s.validInput

def execFrameReady (dt : Nat) (s : State) : Host.Outcome State Fault Refusal :=
  let s := s.elapse dt
  .next (match s.frm.copying with
    | some (b, f, m) => s.frameReady b f m
    | none => s)

/-- A frame is ahead of another by 1 to 2^31 - 1 (R200). -/
def frameAhead (a b : Word) : Bool := decide (1 ≤ (a - b).toNat) && decide ((a - b).toNat < 2 ^ 31)

/-- A good line enters the frame in assembly (R199, R200). -/
def State.putLine (s : State) (a : Assembling) (l : List Byte) : State :=
  let fmt := (byteAt l 6).toNat
  let v := ofLe ((l.drop 4).take 2)
  let d := (l.drop 8).take (l.length - 12)
  let s := if fmt = 3 then s
    else s.writeSram (bufBase s.backBuf + 4096 * v) ((lineValues fmt d).flatMap fun x => leBytes 2 x)
  let a : Assembling :=
    if fmt = 3 then { a with expect := some (w32 (ofLe (d.take 4))) }
    else { a with lines := if a.lines.contains v then a.lines else sortIns v a.lines }
  if fmt = 3 ∨ bitOf (byteAt l 7).toNat 0 then s.frameClose a
  else { s with frm := { s.frm with asm := some a } }

/-- A line of no frame in assembly: it starts one, unless a frame waits for its seam, or it is not
ahead of the last frame closed (R200, R202; DEDUCED, log 17). -/
def State.startLine (s : State) (f : Word) (l : List Byte) : State :=
  if s.frm.ready.isSome || s.frm.copying.isSome
      || (match s.frm.lastFrame with | some g => !frameAhead f g | none => false) then
    s.bump pLinesDiscard 1
  else s.putLine { frame := f } l

/-- A video line packet is complete (R198 to R203). -/
def State.videoLine (s : State) (l : List Byte) : State :=
  if !s.lineGood l then s.bump pLinesBad 1
  else if s.flag pScanMode 0 then s.bump pLinesDiscard 1
  else
    let f := w32 (ofLe (l.take 4))
    match s.frm.asm, s.frm.copying with
    | some a, none =>
      if f = a.frame then s.putLine a l
      else if frameAhead f a.frame then (s.frameClose a).startLine f l
      else s.bump pLinesDiscard 1
    | _, _ => s.startLine f l

/-! ### FRAME_COMMIT -/

def frameCommitDef : OpDef :=
  { rlen := fun _ => 2
    len := fun p => decide (p.plen = 1)
    bad := fun p _ => need (decide (p.u32 16 ≤ 1))
    run := fun j p s =>
      let s := s.setCommit
      if p.u32 16 = 0 then okOut s [0xFFFFFFFF, 0]
      else
        { s := { s with cmd := { s.cmd with held := s.cmd.held ++
            [{ opcode := 0x0201, pkt := p, jseq := j, kind := .commitTaken, since := s.clk }] } }
          status := stOk
          step := 0
          replies := false } }

def execFrameCommit (p : Pkt) (s : State) : Host.Outcome State Fault Refusal :=
  .next (serveOp 0x0201 frameCommitDef p false s)

/-! ### SCAN_SELECT -/

def scanSelectDef : OpDef :=
  { rlen := fun _ => 1
    len := fun p => decide (p.plen = 3)
    bad := fun p _ => need (decide (p.u8 16 ≤ 1) && p.zero 17 3 && decide (p.u32 24 ≤ 1)
      && (if p.u8 16 = 0 then decide (p.u32 20 = 0)
          else decide (p.u32 20 % 65536 = 0) && decide (p.u32 20 ≤ 0x400000)))
    run := fun _ p s =>
      let old := s.live pScanBase
      okOut (s.writeEntries [(pScanMode, p.u8 16), (pScanBase, p.u32 20)] (bitOf (p.u32 24) 0)) [w32 old] }

def execScanSelect (p : Pkt) (s : State) : Host.Outcome State Fault Refusal :=
  .next (serveOp 0x0202 scanSelectDef p false s)

/-! ### TIMING_STATUS -/

/-- The results of TIMING_STATUS. -/
def timingWords (s : State) : List Word :=
  let t := s.frm.timing
  let fixed := match s.frm.change with | some c => c.fixed | none => false
  let lNew := match s.frm.change with | some c => if c.fixed then c.lNew - s.frm.latchClk else 0 | none => 0
  let tb := match s.frm.change with | some c => c.bridgePs / 1000 | none => 0
  let hold := match s.frm.holdStart with
    | some h => if s.frm.state = .holdover then s.since h / 1000000 else 0
    | none => 0
  [w32 (syncCode s.frm.state + 256 * timingN t + 65536 * timingMul t + 2 ^ 24 * b2n (timingPaired t)),
   s.frm.frame, w32 (s.pwmPs), w32 s.frm.tSyncNs,
   if s.frm.state = .locked then i32 s.frm.phaseErr else 0, w32 hold]
    ++ words64 s.frm.latchTime.toNat
    ++ [s.frm.commitFrame, w32 lNew, if fixed then w32 tb else 0, 0]

def timingStatusDef : OpDef :=
  { jnl := jnlNone
    rlen := fun _ => 12
    len := fun p => decide (p.plen = 0)
    run := fun _ _ s => okOut s (timingWords s) }

def execTimingStatus (p : Pkt) (s : State) : Host.Outcome State Fault Refusal :=
  .next (serveOp 0x0203 timingStatusDef p false s)

/-! ### FREEZE_STATUS -/

/-- A tile's freeze history. -/
def State.freeze (s : State) (t : Nat) : Freeze := tget (fun _ => {}) s.frm.freeze t

/-- The freeze check runs in a tile (R207). -/
def State.freezeArmed (s : State) (t : Nat) : Bool :=
  decide (s.diag.safe < 3) && decide (s.frm.armDelay = 0) && decide ((s.tile t).loader ≠ .held)
    && !s.pwr.pixOff

/-- The results of FREEZE_STATUS. -/
def freezeWords (s : State) : List Word :=
  let tiles := List.range 16
  [s.frm.sigFrame,
   halves (ofFlags (tiles.map s.freezeArmed)) (ofFlags (tiles.map fun t => (s.freeze t).frozen)),
   s.frm.inCrc, s.frm.inExpect, s.frm.inFrame, w32 s.frm.inResult]
    ++ tiles.flatMap fun t =>
      let f := s.freeze t
      [f.sig, w32 (f.equal + 256 * f.tag + 65536 * ofBitList f.loaded)]

def freezeStatusDef : OpDef :=
  { jnl := jnlNone
    rlen := fun _ => 38
    len := fun p => decide (p.plen = 0)
    run := fun _ _ s => okOut s (freezeWords s) }

def execFreezeStatus (p : Pkt) (s : State) : Host.Outcome State Fault Refusal :=
  .next (serveOp 0x0204 freezeStatusDef p false s)

/-! ### VIDEO_CONFIG -/

/-- The VIDEO_CTRL value that a VIDEO_CONFIG writes. -/
def videoCtrlOf (p : Pkt) : Nat := p.u8 16 + 256 * p.u8 17 + 65536 * p.u16 18

def videoConfigDef : OpDef :=
  { rlen := fun _ => 2
    len := fun p => decide (p.plen = 2)
    bad := fun p _ => need (prmValueOk pVideoCtrl (videoCtrlOf p) && prmValueOk pHostStale (p.u16 20)
      && decide (p.u16 22 = 0))
    run := fun _ p s =>
      okOut ((s.setLive pVideoCtrl (videoCtrlOf p)).setLive pHostStale (p.u16 20))
        [w32 (s.live pVideoCtrl), w32 (s.live pHostStale)] }

def execVideoConfig (p : Pkt) (s : State) : Host.Outcome State Fault Refusal :=
  .next (serveOp 0x0205 videoConfigDef p false s)

end Sys2Proof.Machine
end

