-- ==== Sys2Proof/Machine/Compose.lean ====
section
/-! DEFINITION. Beam composition (04_composition.md): the arithmetic of stages 1, 2, 4 and 5 of R88,
the limp codes of R115, and the opcodes 0x0301 to 0x0308 and 0x0107. -/

namespace Sys2Proof.Machine

/-! ### The sets that a pass reads (R13, R193) -/

/-- A parameter as the seam set to come would hold it: the set formed at the cutoff, or the one that
a cutoff now would form. -/
def State.provPrm (s : State) (id : Nat) : Nat :=
  match s.frm.seam with
  | some x => if x.commit then (tget prmReset x.prm id).toNat else s.live id
  | none => if s.prm.commit then s.shadow id else s.live id

/-- A parameter as a pass reads it: live, or of the seam set to come. -/
def State.passPrm (s : State) (prov : Bool) (id : Nat) : Nat :=
  if prov && prmShadowed id then s.provPrm id else s.live id

/-- The seam set to come takes a commit. -/
def State.provCommit (s : State) : Bool :=
  match s.frm.seam with
  | some x => x.commit
  | none => s.prm.commit

/-- The LUT bank of the seam set to come. -/
def State.provLut (s : State) : Tab Half :=
  match s.frm.seam with
  | some x => if x.commit then x.lut else s.comp.lutLive
  | none => if s.prm.commit then s.comp.lutShadow else s.comp.lutLive

/-- The buffer that the seam set to come swaps to (R202). -/
def State.provSwap (s : State) : Option Nat :=
  match s.frm.seam with
  | some x => if x.swap then s.frm.ready.map (·.1) else none
  | none => if bitOf (s.provPrm pScanMode) 0 then none else s.frm.ready.map (·.1)

/-- The front buffer of auto mode: that of the last swap, or buffer 0 (R203). -/
def State.frontBase (s : State) : Nat := bufBase (s.frm.lastSwap.getD 0)

/-- SCAN_BASE as a pass reads it (R203). -/
def State.passBase (s : State) (prov : Bool) : Nat :=
  if !prov then s.live pScanBase
  else if bitOf (s.provPrm pScanMode) 0 then s.provPrm pScanBase
  else match s.provSwap with
    | some b => bufBase b
    | none => if s.flag pScanMode 0 then s.frontBase else s.live pScanBase

/-- MIX_CFG or MIX_TIME has been written since the last commit was taken, and the set takes one. -/
def State.provRestart (s : State) : Bool :=
  match s.frm.seam with
  | some x => x.mixRestart
  | none => s.prm.commit && s.prm.mixWritten

/-- The crossfade weight as a pass reads it (R96). -/
def State.passWeight (s : State) (prov : Bool) : Nat :=
  if !prov then s.comp.weight
  else mixWeight (s.provPrm pMixCfg) (s.provPrm pMixTime) (if s.provRestart then 0 else s.comp.mixK + 1)

/-- An overlay context as a pass reads it. -/
def State.passOvl (s : State) (prov : Bool) (m : Nat) : Overlay :=
  if prov then
    match s.frm.seam with
    | some x => if x.commit then tget (fun _ => {}) x.ovl m else s.ovl m
    | none => if s.prm.commit then tget (fun _ => {}) s.comp.ovlStaged m else s.ovl m
  else s.ovl m

/-! ### Coordinates (R90) -/

/-- The image coordinates of a device pixel under a WIN_CTRL value. -/
def imageOf (win x y : Nat) : Nat × Nat :=
  (if bitOf win 0 then 2047 - x else x, if bitOf win 1 then 511 - y else y)

/-! ### Stage 1: the base layer (R91 to R97) -/

/-- What the LUT holds after a full reset (R91). -/
def lutDef (i : Nat) : Half := BitVec.ofNat 16 (i * 65535 / 4095)

/-- An entry of a LUT bank, entry 4,096 taken as 4,095. -/
def lutAt (t : Tab Half) (i : Nat) : Nat := (tget lutDef t (min i 4095)).toNat

/-- The LUT's interpolation (R91). -/
def lutValue (t : Tab Half) (v : Nat) : Nat :=
  let i := v / 16
  let f := v % 16
  let a : Int := lutAt t i
  let b : Int := lutAt t (i + 1)
  (clampI 0 65535 (a + ((b - a) * f + 8) / 16)).toNat

/-- The square-law intensity of a scene byte (R93). -/
def sceneL (b : Nat) : Nat := (b * b * 65535 + 32512) / 65025

/-- The scene value at a shifted position, from the texels of a scene (R94). -/
def sceneAt (tex : Nat → Nat → Nat) (u v : Int) : Nat :=
  let hx := 2 * u - 3
  let i0 := hx / 8
  let fx := (hx - 8 * i0).toNat
  let hy := 2 * v - 3
  let j0 := hy / 8
  let fy := (hy - 8 * j0).toNat
  let cx := fun (i : Int) => (clampI 0 511 i).toNat
  let cy := fun (j : Int) => (clampI 0 127 j).toNat
  let l := fun (i j : Int) => sceneL (tex (cx i) (cy j))
  ((8 - fx) * (8 - fy) * l i0 j0 + fx * (8 - fy) * l (i0 + 1) j0
    + (8 - fx) * fy * l i0 (j0 + 1) + fx * fy * l (i0 + 1) (j0 + 1) + 32) / 64

/-- The mix of two scenes (R96). -/
def mixOf (pa pb w : Nat) : Nat := (pa * (256 - w) + pb * w + 128) / 256

/-- The base leaving stage 1 (R97). -/
def levelOf (b0 level : Nat) : Nat := min 65535 ((b0 * level + 2048) / 4096)

/-- The address of a scene texel in the scene store (R93, R99). -/
def texelAddr (n su sv : Nat) : Nat := 0x800000 + 65536 * n + 512 * sv + su

/-- A texel of the scene store; a substituted line reads 0 (R112). -/
def State.texel (s : State) (bad : List Nat) (n su sv : Nat) : Nat :=
  let a := texelAddr n su sv
  if bad.contains (lineOf a) then 0 else (s.sram a).toNat

/-- The line that stands in for a frame buffer line: that of the other buffer (R112, R274). -/
def otherBuf (a : Nat) : Option Nat :=
  if a < 0x200000 then some (a + 0x200000) else if a < 0x400000 then some (a - 0x200000) else none

/-- A frame buffer word; a substituted line is the other buffer's, or 0 (R91, R112). -/
def State.frameWord (s : State) (bad : List Nat) (a : Nat) : Nat :=
  if bad.contains (lineOf a) then
    match otherBuf a with
    | some b => if bad.contains (lineOf b) then 0 else ofLe (s.sramBytes b 2)
    | none => 0
  else ofLe (s.sramBytes a 2)

/-- The base of an image pixel in normal and degraded (R91 to R97). -/
def State.baseNormal (s : State) (prov : Bool) (dx dy : Int) (bad : List Nat) (u v : Nat) : Nat :=
  let ctrl := s.passPrm prov pCompCtrl
  let b0 :=
    if bitOf ctrl 0 then
      let cfg := s.passPrm prov pMixCfg
      let p := fun (n : Nat) => sceneAt (s.texel bad n) ((u : Int) - dx) ((v : Int) - dy)
      mixOf (p (bits cfg 3 0)) (p (bits cfg 7 4)) (s.passWeight prov)
    else
      let w := s.frameWord bad (s.passBase prov + 4096 * v + 2 * u)
      if bitOf ctrl 1 then
        lutValue (if prov then s.provLut else s.comp.lutLive) w
      else w
  levelOf b0 (s.passPrm prov pBaseLevel)

/-- The base of an image pixel in fallback (R113). -/
def State.baseFallback (s : State) (prov : Bool) (dx dy : Int) (bad : List Nat) (u v : Nat) : Nat :=
  levelOf (sceneAt (s.texel bad 0) ((u : Int) - dx) ((v : Int) - dy)) (s.passPrm prov pFallbackLevel)

/-! ### Stage 2: overlays (R102 to R107) -/

/-- EN of an overlay. -/
def ovlEn (o : Overlay) : Bool := bitOf o.ctrl.toNat 0
/-- MODE of an overlay. -/
def ovlMode (o : Overlay) : Nat := bits o.ctrl.toNat 2 1
/-- PRIO of an overlay. -/
def ovlPrio (o : Overlay) : Bool := bitOf o.ctrl.toNat 3
/-- Bits per texel of an overlay. -/
def ovlBits (o : Overlay) : Nat := 2 ^ bits o.ctrl.toNat 6 5
/-- A coefficient of the warp, raw. -/
def ovlCoef (o : Overlay) (i : Nat) : Int := (o.coef.getD i 0).toInt

/-- A canvas coordinate, in signed 32-bit arithmetic (R90). -/
def canvasOf (win : Int) (u : Nat) : Int := (BitVec.ofInt 32 (win + u)).toInt

/-- The texel of an overlay at an image pixel, where it is not transparent by R104. -/
def ovlTexel (o : Overlay) (winX winY : Int) (u v : Nat) : Option (Nat × Nat) :=
  let canvas := bitOf o.ctrl.toNat 4
  let qx : Int := if canvas then canvasOf winX u else u
  let qy : Int := if canvas then canvasOf winY v else v
  let dx := qx - o.orgX.toInt
  let dy := qy - o.orgY.toInt
  let c := ovlCoef o
  let xx := c 0 * dx + c 1 * dy + c 2
  let yy := c 3 * dx + c 4 * dy + c 5
  let w := c 6 * dx + c 7 * dy + c 8
  if 2 ^ 20 ≤ dx.natAbs ∨ 2 ^ 20 ≤ dy.natAbs ∨ w ≤ 0 then none
  else
    let tu := xx * 4096 / w
    let tv := yy * 4096 / w
    if 0 ≤ tu ∧ tu < o.w.toNat ∧ 0 ≤ tv ∧ tv < o.h.toNat then some (tu.toNat, tv.toNat) else none

/-- The byte address of an overlay's texel (R103). -/
def symAddr (o : Overlay) (t : Nat × Nat) : Nat :=
  0x400000 + o.addr.toNat + o.pitch.toNat * t.2 + t.1 * ovlBits o / 8

/-- The overlay value at an image pixel, or none where it is transparent (R103 to R105, R112). -/
def State.ovlValue (s : State) (crest : List Nat) (bad : List Nat) (o : Overlay) (winX winY : Int)
    (u v : Nat) : Option Nat :=
  match ovlTexel o winX winY u v with
  | none => none
  | some t =>
    let a := symAddr o t
    if bad.contains (lineOf a) then none
    else
      let b := ovlBits o
      let tex := (s.sram a).toNat / 2 ^ (t.1 * b % 8) % 2 ^ b
      let lvl := if bitOf o.ctrl.toNat 7 then
        o.level.toNat * crest.getD (bits o.ctrl.toNat 10 8) 0 / 65535 else o.level.toNat
      if tex = 0 then none else some (lvl * tex / (2 ^ b - 1))

/-- One overlay blended into the components (R106). -/
def blend (mode : Nat) (prio : Bool) (o : Nat) (c : Nat × Nat × Nat) : Nat × Nat × Nat :=
  let p := c.1 + c.2.1 + c.2.2
  let only : Nat × Nat × Nat := if prio then (0, 0, o) else (0, o, 0)
  match mode with
  | 0 => if p < o then only else c
  | 1 => only
  | _ =>
    let k := min o (65535 - p)
    if prio then (c.1, c.2.1, c.2.2 + k) else (c.1, c.2.1 + k, c.2.2)

/-- Stage 2 at an image pixel (R106). -/
def State.overlays (s : State) (ps : Pass) (prov : Bool) (bad : List Nat) (u v : Nat)
    (c : Nat × Nat × Nat) : Nat × Nat × Nat :=
  let winX := signed 32 (s.passPrm prov pWinX)
  let winY := signed 32 (s.passPrm prov pWinY)
  if !bitOf (s.passPrm prov pCompCtrl) 2 then c
  else (List.range 32).foldl (fun c m =>
    let o := s.passOvl prov m
    if ovlEn o && !ps.lostOvl.contains m then
      match s.ovlValue ps.crest bad o winX winY u v with
      | some x => blend (ovlMode o) (ovlPrio o) x c
      | none => c
    else c) c

/-! ### Stages 3 to 5 on the components (R108, R110, R111) -/

/-- Each component by a ceiling (R108). -/
def ceil3 (lim : Nat) (c : Nat × Nat × Nat) : Nat × Nat × Nat :=
  let p := c.1 + c.2.1 + c.2.2
  if lim < p then (c.1 * lim / p, c.2.1 * lim / p, c.2.2 * lim / p) else c

/-- Each component raised for `nf` failed neighbours, the excess taken base first (R110). -/
def raise3 (nf step mx : Nat) (c : Nat × Nat × Nat) : Nat × Nat × Nat :=
  let k := min mx (nf * step)
  let f := fun (x : Nat) => x * (4096 + k) / 4096
  let b := f c.1
  let o := f c.2.1
  let p := f c.2.2
  let excess := b + o + p - 65535
  let cutB := min excess b
  let cutO := min (excess - cutB) o
  let cutP := min (excess - cutB - cutO) p
  (b - cutB, o - cutO, p - cutP)

/-- Each component by the flux gain (R111). -/
def flux3 (g : Nat) (c : Nat × Nat × Nat) : Nat × Nat × Nat :=
  let f := fun (x : Nat) => x * (g + 257) / 512
  (f c.1, f c.2.1, f c.2.2)

/-- The eight neighbours of a device pixel inside the array (R110). -/
def neighbours (x y : Nat) : List (Nat × Nat) :=
  ((List.range 9).filter fun i => decide (i ≠ 4)).filterMap fun i =>
    let a := x + i % 3
    let b := y + i / 3
    if 1 ≤ a ∧ a ≤ 2048 ∧ 1 ≤ b ∧ b ≤ 512 then some (a - 1, b - 1) else none

/-- The line address of a pixel's status-map entry. -/
def mapLine (x y : Nat) : Nat := lineOf (0x900000 + (2048 * y + x) / 2)

/-- Failed neighbours of a pixel: a substituted map line counts none, nor a pixel whose fault has been
confirmed since the pass began, listed by 2,048 y + x (R110, R112, R240). -/
def State.failedNear (s : State) (fresh bad : List Nat) (x y : Nat) : Nat :=
  ((neighbours x y).filter fun n =>
    !fresh.contains (2048 * n.2 + n.1) && !bad.contains (mapLine n.1 n.2) && mapConf (s.mapAt n.1 n.2)).length

/-- The limp gain of a tile. -/
def State.limpGain (s : State) (t : Nat) : Nat := s.fld (pLimpGains + t / 4) (8 * (t % 4) + 7) (8 * (t % 4))

/-- The flux gain of a pixel; a substituted line gives the tile's limp gain (R111, R112). -/
def State.fluxAt (s : State) (bad : List Nat) (x y : Nat) : Nat :=
  let a := 0x600000 + 2048 * y + x
  if bad.contains (lineOf a) then s.limpGain (tileOf x y) else (s.sram a).toNat

/-- The mask bit of a cell as its tile last loaded it. -/
def cellMask (cells : List PixCode) (n : Nat) : Bool := (cells.getD n {}).mask

/-- A pixel is masked: by its map entry, or by its last load where the map line is substituted
(R109, R112). -/
def State.passMasked (s : State) (bad : List Nat) (cells : List PixCode) (x y n : Nat) : Bool :=
  if bad.contains (mapLine x y) then cellMask cells n else mapMasked (s.mapAt x y)

/-! ### Limp codes (R115, R116) -/

/-- The limp code of a scene byte. -/
def limpCode (b gain level : Nat) : Nat :=
  let i1 := sceneL b * (gain + 257) / 512
  let i2 := (i1 * level + 2048) / 4096
  (i2 * 1023 + 32767) / 65535

/-- A byte of scene 0 as the limp loader reads it: from MRAM, from the scene store where the MRAM
line failed, 0 where both failed (R116). -/
def State.limpByte (s : State) (badMram badStore : List Nat) (off : Nat) : Nat :=
  let a := s.sceneSlot 0 + off
  if !badMram.contains (lineOf a) then (s.mram a).toNat
  else if !badStore.contains (lineOf (0x800000 + off)) then (s.sram (0x800000 + off)).toNat else 0

/-- The limp codes of a row-group (R115). -/
def State.limpCodes (s : State) (badMram badStore badMap : List Nat) (g : Nat) : List PixCode :=
  let l := s.comp.limp
  let t := rgTile g
  let gain := bits (l.gains.getD (t / 4) 0xFFFFFFFF).toNat (8 * (t % 4) + 7) (8 * (t % 4))
  let cells := (s.rg g).cells
  (List.range 4096).map fun n =>
    let q := rgPixel g n
    if s.passMasked badMap cells q.1 q.2 n then { code := 0, mask := true }
    else
      let i := imageOf l.winCtrl.toNat q.1 q.2
      let b := s.limpByte badMram badStore (512 * (i.2 / 4) + i.1 / 4)
      { code := BitVec.ofNat 10 (limpCode b gain l.level.toNat), mask := false }

/-- SUBSTITUTE (R119), counted (R112, R116). -/
def State.substEvt (s : State) (region tile addr : Nat) : State :=
  (s.bump pSubstCount 1).evt 0x0303 1 0xFF region tile addr s.frm.frame.toNat

/-- The tile of a status-map line. -/
def mapLineTile (a : Nat) : Nat := tileOf ((a - 0x900000) * 2 % 2048) ((a - 0x900000) * 2 / 2048)

/-- The scene-store line that stands in for a line of scene 0's slot (R116). -/
def State.storeLine (s : State) (a : Nat) : Nat := 0x800000 + (a - s.sceneSlot 0)

/-- What the limp loader reads (R116): scene 0 from its slot, the scene-store lines for those that fail, and the
status map of the tiles that it loads. Each line that it substitutes raises SUBSTITUTE. -/
def State.limpReads (s : State) : State × List Nat × List Nat × List Nat :=
  let m := (s.abortSpan (s.sceneSlot 0) 65536).readSpan 2 (s.sceneSlot 0) 65536
  let s1 := m.2.foldl (fun s a => s.substEvt 5 0 a) m.1
  let st := s1.readEach 2 (m.2.map s.storeLine)
  let tiles := s.comp.limp.tiles
  let p := st.1.readEach 2 ((s.troubledIn 0x900000 0x80000).filter fun a => bitOf tiles (mapLineTile a))
  (p.2.foldl (fun s a => s.substEvt 4 (mapLineTile a) a) p.1, m.2, st.2, p.2)

/-- The limp loader has formed its codes. -/
def State.limpFormed (s : State) : State :=
  let r := s.limpReads
  let s := r.1
  let codes := (List.range 256).map fun g => (g, s.limpCodes r.2.1 r.2.2.1 r.2.2.2 g)
  { s with comp := { s.comp with limp := { s.comp.limp with
    stage := .ready
    codes := codes
    substLines := r.2.1.length + r.2.2.2.length } } }

/-- The lists name the lines of scene 0's slot, of the scene store and of the status map in which an error
stands that neither a second read nor a source mends. -/
def execLimpCodesReady (dt : Nat) (badMram badStore badMap : List Nat) (s : State) :
    Host.Outcome State Fault Refusal :=
  let s := s.elapse dt
  .next (if s.comp.limp.stage = .reading then
    (s.arise ((badMram ++ badStore ++ badMap).map fun a => (a, LineRead.lost))).limpFormed else s)

/-! ### The fallback check (R114) -/

/-- Tiles that have not loaded every row-group from a fallback pass; a tile that holds limp codes
loads none (R18; DEDUCED, log 18). -/
def State.fbFailed (s : State) : List Nat :=
  (List.range 16).filter fun t => decide ((s.tile t).loader ≠ .held)
    && !(List.range 16).all fun i => s.comp.fbCheck.loaded.contains (16 * t + i)

def execFallbackCheck (dt : Nat) (s : State) : Host.Outcome State Fault Refusal :=
  let s := s.elapse dt
  .next (
    if s.diag.safe = 2 ∧ s.comp.fbCheck.running ∧ s.comp.fbCheck.endSub < s.frm.sub then
      let l := s.fbFailed
      let s := { s with comp := { s.comp with fbCheck := { s.comp.fbCheck with running := false, passed := l.isEmpty } } }
      if l.isEmpty then s.reevaluate
      else (s.evt 0x0306 3 0xFF (ofBitList l) 0 s.frm.frame.toNat 0).addCause 10
    else s)

/-! ### BEND (R95) -/

/-- One axis of the applied shift moves toward its target. -/
def bendMove (step : Nat) (cur target : Int) : Int :=
  if step = 0 then target
  else if cur < target then min target (cur + step) else max target (cur - step)

/-- The applied shift at a notch end. -/
def State.bendTick (s : State) : State :=
  { s with comp := { s.comp with
    shiftX := bendMove (s.live pBendStep) s.comp.shiftX s.comp.bendX
    shiftY := bendMove (s.live pBendStep) s.comp.shiftY s.comp.bendY } }

def bendSetDef : OpDef :=
  { jnl := jnlClass0
    rlen := fun _ => 1
    len := fun p => decide (p.plen = 1)
    bad := fun p _ => need (decide (-512 ≤ p.s16 16) && decide (p.s16 16 ≤ 511)
      && decide (-128 ≤ p.s16 18) && decide (p.s16 18 ≤ 127))
    gate := fun _ s => stop (decide (2 ≤ s.diag.safe)) stWrongState
    run := fun _ p s =>
      okOut { s with comp := { s.comp with bendX := p.s16 16, bendY := p.s16 18 } }
        [w32 (s.prmRead pBendNow)] }

def execBendSet (p : Pkt) (s : State) : Host.Outcome State Fault Refusal :=
  .next (serveOp 0x0107 bendSetDef p false s)

/-! ### SCENE_WRITE -/

/-- A SCENE_STORE of a scene, or of any scene, is running. -/
def State.storing (s : State) (f : Nat → Bool) : Bool :=
  s.cmd.jobs.any fun b => match b.kind with | .sceneStore n _ _ => f n | _ => false

/-- Scene 0 is locked to a packet (R101): no session with the integrator key covers it. -/
def State.sceneLocked (s : State) (p : Pkt) (n : Nat) : Bool :=
  decide (n = 0) && s.nvm.locked
    && !(match s.covering p with | some x => decide (x.key = 1) | none => false)

/-- A scene is named in the live or shadow MIX_CFG. -/
def State.sceneMixed (s : State) (n : Nat) : Bool :=
  [s.live pMixCfg, s.shadow pMixCfg].any fun c => decide (bits c 3 0 = n) || decide (bits c 7 4 = n)

def sceneWriteDef : OpDef :=
  { len := fun p => decide (p.plen = 2 + 16 * p.u16 18)
    bad := fun p _ => need (decide (p.u8 16 ≤ 15) && p.zero 17 1 && decide (1 ≤ p.u16 18)
      && decide (p.u16 18 ≤ 63) && decide (p.u32 20 % 64 = 0)
      && decide (p.u32 20 + 64 * p.u16 18 ≤ 65536))
    gate := fun p s => orElse9
      (stop (s.sceneMixed (p.u8 16) || (decide (p.u8 16 = 0) && decide (s.diag.safe = 2))
        || s.storing fun n => decide (n = p.u8 16)) stBusy)
      (stop (s.sceneLocked p (p.u8 16)) stLocked)
    run := fun _ p s =>
      okOut (s.writeSram (0x800000 + 65536 * p.u8 16 + p.u32 20) (p.bytes 24 (64 * p.u16 18))) [] }

def execSceneWrite (p : Pkt) (s : State) : Host.Outcome State Fault Refusal :=
  .next (serveOp 0x0301 sceneWriteDef p false s)

/-! ### SCENE_STORE (R120) -/

def sceneStoreDef : OpDef :=
  { jnl := jnlDurable
    len := fun p => decide (p.plen = 2)
    bad := fun p _ => need (decide (p.u8 16 ≤ 15) && decide (p.u8 17 ≤ 3) && p.zero 18 2
      && (!bitOf (p.u8 17) 0 || decide (p.u8 16 = 0)))
    gate := fun p s => orElse9 (mramGate s) (orElse9 (stop (s.storing fun _ => true) stBusy)
      (stop (s.sceneLocked p (p.u8 16)) stLocked))
    run := fun j p s => s.startJob
      (.sceneStore (p.u8 16) (bitOf (p.u8 17) 0) (if bitOf (p.u8 17) 1 then some (w32 (p.u32 20)) else none))
      0x0302 p j 18 }

def execSceneStore (p : Pkt) (s : State) : Host.Outcome State Fault Refusal :=
  .next (serveOp 0x0302 sceneStoreDef p false s)

/-- The directory entry of the slot that a store of a scene writes. -/
def State.storeEntry (s : State) (n : Nat) : SceneEntry :=
  if n = 0 ∧ !s.nvm.slotQ then s.nvm.sceneQ else tget (fun _ => {}) s.nvm.scenes n

/-- Write the directory entry of the slot that a store of a scene writes. -/
def State.setSceneDir (s : State) (n : Nat) (e : SceneEntry) : State :=
  if n = 0 ∧ !s.nvm.slotQ then { s with nvm := { s.nvm with sceneQ := e } }
  else { s with nvm := { s.nvm with scenes := tput (fun _ => {}) s.nvm.scenes n e } }

/-- Queue whole-line MRAM writes (R284): `l` in lines from address `a`. -/
def State.queueLines (s : State) (a : Nat) (l : List Byte) : State :=
  { s with mem := { s.mem with writes := s.mem.writes ++
    (List.range (l.length / 64)).map fun i => { addr := a + 64 * i, bytes := (l.drop (64 * i)).take 64 } } }

/-- One step of a SCENE_STORE. -/
def State.sceneStep (s : State) (b : Job) (n : Nat) (lock : Bool)
    (expect : Option Word) : State :=
  let base := 0x800000 + 65536 * n
  if b.step = 0 then
    let r := match expect with
      | some _ => s.readLines 7 (linesOf base 65536)
      | none => (s, none)
    if r.2.isSome then r.1.endJob b stMemFault 0 false 0
    else if expect.isSome ∧ expect ≠ some (w32 (crc32 (r.1.sramBytes base 65536))) then
      r.1.endJob b stCheckFail 0 false 0
    else (r.1.setSceneDir n { (r.1.storeEntry n) with valid := false }).jobStep b
  else if b.step < 17 then
    let off := 4096 * (b.step - 1)
    let r := s.readLines 7 (linesOf (base + off) 4096)
    if r.2.isSome then r.1.endJob b stMemFault b.step true 0
    else
      let d := r.1.sramBytes (base + off) 4096
      (r.1.queueLines (r.1.storeSlot n + off) d).modJob b.jseq fun x =>
        { x with writing := true, runCrc := w32 (crc32From b.runCrc.toNat d) }
  else
    let s := s.setSceneDir n { valid := true, crc := b.runCrc }
    let s := if n = 0 then
        { s with nvm := { s.nvm with slotQ := !s.nvm.slotQ, locked := s.nvm.locked || lock } } else s
    s.endJob b stOk 18 false 0

/-! ### SCENE_MIX -/

def sceneMixDef : OpDef :=
  { len := fun p => decide (p.plen = 3)
    bad := fun p _ => need (decide (p.u8 16 ≤ 15) && decide (p.u8 17 ≤ 15) && decide (p.u16 18 ≤ 3)
      && decide (p.u16 20 ≤ 256) && decide (p.u16 22 ≤ 256) && decide (p.u16 26 ≤ 4096))
    gate := fun p s => stop (!(s.sceneValid (p.u8 16) && s.sceneValid (p.u8 17))) stWrongState
    run := fun _ p s =>
      okOut (s.writeEntries
        ([(pMixCfg, p.u8 16 + 16 * p.u8 17 + 256 * p.u16 20 + 2 ^ 17 * p.u16 22),
          (pMixTime, p.u16 24), (pBaseLevel, p.u16 26)]
          ++ if bitOf (p.u16 18) 1 then [(pCompCtrl, setBit (s.shadow pCompCtrl) 0)] else [])
        (bitOf (p.u16 18) 0)) [] }

def execSceneMix (p : Pkt) (s : State) : Host.Outcome State Fault Refusal :=
  .next (serveOp 0x0303 sceneMixDef p false s)

/-! ### SYMBOL_WRITE -/

def symbolWriteDef : OpDef :=
  { len := fun p => decide (p.plen = 3 + p.u16 20 / 4)
    bad := fun p _ => need (decide (4 ≤ p.u16 20) && decide (p.u16 20 ≤ 4064) && decide (p.u16 20 % 4 = 0)
      && decide (p.u32 16 % 4 = 0) && decide (p.u32 16 + p.u16 20 ≤ 0x200000) && decide (p.u16 22 ≤ 1))
    run := fun _ p s =>
      let d := p.bytes 28 (p.u16 20)
      let a := 0x400000 + p.u32 16
      if bitOf (p.u16 22) 0 ∧ crc32 d ≠ p.u32 24 then { s := s, status := stCheckFail, step := 0 }
      else
        let r := s.readParts 5 a d.length
        if r.2 then okOut (r.1.writeSram a d) [] else { s := r.1, status := stMemFault, step := 0 } }

def execSymbolWrite (p : Pkt) (s : State) : Host.Outcome State Fault Refusal :=
  .next (serveOp 0x0304 symbolWriteDef p false s)

/-! ### OVL_SET and OVL_CLEAR (R102, R107) -/

/-- The overlay context that an OVL_SET carries. -/
def ovlOf (p : Pkt) : Overlay :=
  { ctrl := BitVec.ofNat 16 (p.u16 20)
    level := BitVec.ofNat 16 (p.u16 22)
    addr := w32 (p.u32 24)
    w := BitVec.ofNat 16 (p.u16 28)
    h := BitVec.ofNat 16 (p.u16 30)
    pitch := BitVec.ofNat 16 (p.u16 32)
    orgX := w32 (p.u32 36)
    orgY := w32 (p.u32 40)
    coef := (List.range 9).map fun i => w32 (p.u32 (44 + 4 * i)) }

/-- The limits of an overlay context (R102). -/
def ovlOk (o : Overlay) : Bool :=
  decide (bits o.ctrl.toNat 15 11 = 0) && decide (ovlMode o ≠ 3) && decide (o.addr.toNat % 64 = 0)
    && decide (1 ≤ o.w.toNat) && decide (o.w.toNat ≤ 4096) && decide (1 ≤ o.h.toNat)
    && decide (o.h.toNat ≤ 4096) && decide (ceilDiv (o.w.toNat * ovlBits o) 8 ≤ o.pitch.toNat)
    && decide (o.pitch.toNat ≤ 8192) && decide (o.addr.toNat + o.pitch.toNat * o.h.toNat ≤ 0x200000)

/-- The EN mask of a table of overlay contexts. -/
def enMask (t : Tab Overlay) : Nat := ofFlags ((List.range 32).map fun m => ovlEn (tget (fun _ => {}) t m))

/-- EN of the named overlays is cleared. -/
def clearEn (t : Tab Overlay) (mask : Nat) : Tab Overlay :=
  (bitList mask 32).foldl (fun t m => tmod (fun _ => {}) t m fun (o : Overlay) =>
    { o with ctrl := BitVec.ofNat 16 (clrBit o.ctrl.toNat 0) }) t

/-- A staged overlay changes; while COMMIT is set the provisional set changes with it (R193). -/
def State.stageOvl (s : State) (t : Tab Overlay) : State :=
  let s := { s with comp := { s.comp with ovlStaged := t } }
  if s.prm.commit then s.bumpGen else s

def ovlSetDef : OpDef :=
  { rlen := fun _ => 1
    len := fun p => decide (p.plen = 17)
    bad := fun p _ => need (decide (p.u8 16 ≤ 31) && p.zero 17 1 && decide (p.u16 18 ≤ 1)
      && p.zero 34 2 && p.zero 80 4 && ovlOk (ovlOf p))
    run := fun _ p s =>
      let s := s.stageOvl (tput (fun _ => {}) s.comp.ovlStaged (p.u8 16) (ovlOf p))
      okOut (if bitOf (p.u16 18) 0 then s.setCommit else s) [w32 (enMask s.comp.ovlStaged)] }

def execOvlSet (p : Pkt) (s : State) : Host.Outcome State Fault Refusal :=
  .next (serveOp 0x0305 ovlSetDef p false s)

/-- OVL_CLEAR with NOW: EN is clear in the live copy at once, and in the seam set if one is formed, so that each
pass that starts from now on sees it clear (R107). -/
def State.clearNow (s : State) (mask : Nat) : State :=
  { s with
    comp := { s.comp with ovlLive := clearEn s.comp.ovlLive mask }
    frm := { s.frm with seam := s.frm.seam.map fun (x : SeamSet) => { x with ovl := clearEn x.ovl mask } } }

def ovlClearDef : OpDef :=
  { rlen := fun _ => 1
    len := fun p => decide (p.plen = 2)
    bad := fun p _ => need (decide (p.u32 20 ≤ 3))
    run := fun _ p s =>
      let s := s.stageOvl (clearEn s.comp.ovlStaged (p.u32 16))
      let s := if bitOf (p.u32 20) 1 then s.clearNow (p.u32 16) else s
      okOut (if bitOf (p.u32 20) 0 then s.setCommit else s) [w32 (enMask s.comp.ovlLive)] }

def execOvlClear (p : Pkt) (s : State) : Host.Outcome State Fault Refusal :=
  .next (serveOp 0x0306 ovlClearDef p false s)

/-! ### LUT_WRITE (R92) -/

def lutWriteDef : OpDef :=
  { len := fun p => decide (p.plen = 2 + (p.u16 18 + 1) / 2)
    bad := fun p _ => need (decide (p.u16 16 ≤ 4095) && decide (1 ≤ p.u16 18) && decide (p.u16 18 ≤ 2036)
      && decide (p.u16 16 + p.u16 18 ≤ 4096) && decide (p.u32 20 ≤ 1)
      && (decide (p.u16 18 % 2 = 0) || decide (p.u16 (24 + 2 * p.u16 18) = 0)))
    run := fun _ p s =>
      let l := (List.range (p.u16 18)).map fun i => (BitVec.ofNat 16 (p.u16 (24 + 2 * i)) : Half)
      let s := { s with comp := { s.comp with lutShadow := tputs lutDef s.comp.lutShadow (p.u16 16) l } }
      let s := if s.prm.commit then s.bumpGen else s
      okOut (if bitOf (p.u32 20) 0 then s.setCommit else s) [] }

/-- A LUT_WRITE that reaches the sequencer during a bank copy waits for its end (R92). -/
def serveLut (p : Pkt) (gap : Bool) (s : State) : State :=
  if s.comp.lutCopying then
    { s with comp := { s.comp with lutWaiting := s.comp.lutWaiting ++ [{ opcode := 0x0307, pkt := p, gap := gap }] } }
  else serveOp 0x0307 lutWriteDef p gap s

def execLutWrite (p : Pkt) (s : State) : Host.Outcome State Fault Refusal :=
  .next (serveLut p false s)

def execLutBankCopyDone (dt : Nat) (s : State) : Host.Outcome State Fault Refusal :=
  let s := s.elapse dt
  .next (if s.comp.lutCopying then
    let l := s.comp.lutWaiting
    let s := { s with comp := { s.comp with
      lutCopying := false
      lutWaiting := []
      lutShadow := s.comp.lutNext } }
    l.foldl (fun s w => serveOp 0x0307 lutWriteDef w.pkt w.gap s) s
  else s)

/-! ### WINDOW_SET -/

def windowSetDef : OpDef :=
  { len := fun p => decide (p.plen = 3)
    bad := fun p _ => need (decide (p.u32 24 &&& 0x103 = p.u32 24))
    run := fun _ p s =>
      okOut (s.writeEntries [(pWinX, p.u32 16), (pWinY, p.u32 20), (pWinCtrl, p.u32 24 % 4)]
        (bitOf (p.u32 24) 8)) [] }

def execWindowSet (p : Pkt) (s : State) : Host.Outcome State Fault Refusal :=
  .next (serveOp 0x0308 windowSetDef p false s)

end Sys2Proof.Machine
end

