-- ==== Sys2Proof/Machine/Shadow.lean ====
section
/-! DEFINITION. Glare-free shadowing (05_glare_free_shadowing.md): the arithmetic of stage 3 (R124 to
R129), the timeout scan (R130), and the class-0 opcodes 0x0101 to 0x0106. -/

namespace Sys2Proof.Machine

/-! ### The rasteriser -/

/-- An age on the 48-bit us count, signed. -/
def age48 (now cap : BitVec 48) : Int := (now - cap).toInt

/-- The emission instant of a slot start in DEVTIME us, modulo 2^48 (R125): `tS` in ns of DEVTIME,
`pwmPs` the sub-frame's length, `slot` the slot, `adj` EMIT_ADJ. -/
def emissionUs (tS pwmPs slot : Nat) (adj : Int) : BitVec 48 :=
  let st := stepPs pwmPs
  let mid := slotPs pwmPs slot + 512 * st
  let pause := if pwmPs - 4000000 ≤ mid then 4000000 else 0
  let ps : Int := (1000 * tS + 512 * st + pause : Nat) + adj * 1000000
  BitVec.ofInt 48 (ps / 1000000)

/-- Displacement of a coordinate at age `dm` (R126). -/
def travel (v a : Int) (dm : Int) : Int :=
  (v * dm * 32000 + a * dm * dm + 16000000) / 32000000

/-- Growth at an age (R127). -/
def growth (c : ObjCtx) (d : Int) : Int :=
  let t : Int := 1000 * c.ttl.toNat
  if d ≤ t then 0 else min (c.growMax.toNat : Int) (c.grow.toNat * (d - t) / 1000)

/-- A context as extrapolated for one sub-frame: centre and half-extents in 1/256 pixel. -/
structure Box where
  x  : Int
  y  : Int
  hw : Int
  hh : Int
  deriving DecidableEq, Repr

/-- The box of a context at an emission instant (R124, R126, R127). -/
def boxOf (c : ObjCtx) (te : BitVec 48) (extrap : Bool) (winX winY : Int) : Box :=
  let d := age48 te c.tCap
  let dm := clampI 0 (1000 * c.ttl.toNat) d
  let still := c.static || !extrap
  let g := growth c d
  let x0 := c.x.toInt - (if c.canvas then 256 * winX else 0)
  let y0 := c.y.toInt - (if c.canvas then 256 * winY else 0)
  { x := if still then x0 else x0 + travel c.vx.toInt c.ax.toInt dm
    y := if still then y0 else y0 + travel c.vy.toInt c.ay.toInt dm
    hw := c.halfW.toNat + c.margin.toNat + g
    hh := c.halfH.toNat + c.margin.toNat + g }

/-- A box lies wholly off the array: it casts no shadow (R126). -/
def Box.off (b : Box) : Bool :=
  decide (b.x + b.hw < 0) || decide (524288 ≤ b.x - b.hw) || decide (b.y + b.hh < 0) || decide (131072 ≤ b.y - b.hh)

/-- The signed distance of an image pixel from the rounded box (R128). -/
def boxDist (b : Box) (radius : Nat) (u v : Nat) : Int :=
  let r := min (radius : Int) (min b.hw b.hh)
  let ex := ((256 * u + 128 : Nat) - b.x).natAbs - b.hw + r
  let ey := ((256 * v + 128 : Nat) - b.y).natAbs - b.hh + r
  if 0 < ex ∧ 0 < ey then (isqrt (ex * ex + ey * ey).toNat : Int) - r else max ex ey - r

/-- The ceiling that a context gives a pixel (R129). -/
def ctxCeiling (c : ObjCtx) (b : Box) (u v : Nat) : Nat :=
  let d := boxDist b c.radius.toNat u v
  let depth := c.depth.toNat
  if d ≤ 0 then depth
  else if d < c.soft.toNat then depth + (65535 - depth) * d.toNat / c.soft.toNat
  else 65535

/-- FORCE_LEVEL's ceiling of a tile (R129). -/
def forceOf (f : Force) (t : Nat) : Nat := if bitOf f.tiles.toNat t then f.level.toNat else 65535

/-- Stage 3: the ceiling of an image pixel of a tile; SH is its being below 65,535 (R129). -/
def ceilingOf (shdCtrl : Nat) (boxes : List (ObjCtx × Box)) (force : Nat) (u v : Nat) : Nat :=
  let l := if bitOf shdCtrl 0 then boxes.map fun e => ctxCeiling e.1 e.2 u v else []
  min 65535 (minOf force (force :: l))

/-! ### OBJ_UPDATE (R121, R122, R123) -/

/-- The offset of an entry of OBJ_UPDATE. -/
def entOff (k : Nat) : Nat := 20 + 64 * k

/-- The context that an entry gives, engine fields as yet inactive. -/
def entryCtx (p : Pkt) (o : Nat) : ObjCtx :=
  { canvas := bitOf (p.u8 (o + 1)) 1
    static := bitOf (p.u8 (o + 1)) 2
    depth := BitVec.ofNat 16 (p.u16 (o + 2))
    x := w32 (p.u32 (o + 4))
    y := w32 (p.u32 (o + 8))
    halfW := w32 (p.u32 (o + 12))
    halfH := w32 (p.u32 (o + 16))
    vx := BitVec.ofNat 16 (p.u16 (o + 20))
    vy := BitVec.ofNat 16 (p.u16 (o + 22))
    ax := BitVec.ofNat 16 (p.u16 (o + 24))
    ay := BitVec.ofNat 16 (p.u16 (o + 26))
    tCap := BitVec.ofNat 48 (p.u48 (o + 28))
    margin := BitVec.ofNat 16 (p.u16 (o + 34))
    soft := BitVec.ofNat 16 (p.u16 (o + 36))
    radius := BitVec.ofNat 16 (p.u16 (o + 38))
    ttl := BitVec.ofNat 16 (p.u16 (o + 40))
    grow := BitVec.ofNat 16 (p.u16 (o + 42))
    timeout := BitVec.ofNat 16 (p.u16 (o + 44))
    growMax := BitVec.ofNat 16 (p.u16 (o + 46))
    objTag := w32 (p.u32 (o + 48)) }

/-- An entry passes the limits of R121 and the checks of R122, at D_now. -/
def entryOk (now : BitVec 48) (p : Pkt) (o : Nat) : Bool :=
  let c := entryCtx p o
  let f := p.u8 (o + 1)
  let d := age48 now c.tCap
  decide (p.u8 o ≤ 127) && decide (f &&& 6 = f) && decide (c.halfW.toNat ≤ 0x100000)
    && decide (c.halfH.toNat ≤ 0x100000) && decide (-1000 ≤ d) && decide (d < 1000 * c.timeout.toNat)
    && decide (c.ttl.toNat ≤ c.timeout.toNat) && decide (1 ≤ c.ttl.toNat) && p.zero (o + 52) 12

/-- The context numbers of an OBJ_UPDATE. -/
def entryIds (p : Pkt) : List Nat := (List.range (p.u8 16)).map fun k => p.u8 (entOff k)

/-- A context is written by an entry (R123). -/
def State.objWrite (s : State) (p : Pkt) (o : Nat) : State :=
  let old := s.ctx (p.u8 o)
  s.setCtx (p.u8 o) { entryCtx p o with
    active := true
    updCount := if old.active then old.updCount + 1 else 1
    tUpd := BitVec.ofNat 48 s.us }

/-- The active contexts. -/
def State.activeCount (s : State) : Nat := s.activeCtx.length

def objUpdateDef : OpDef :=
  { jnl := jnlClass0
    rlen := fun _ => 1
    len := fun p => decide (p.plen = 1 + 16 * p.u8 16)
    bad := fun p s => need (decide (1 ≤ p.u8 16) && decide (p.u8 16 ≤ 8) && p.zero 17 3
      && (List.range (p.u8 16)).all (fun k => entryOk (BitVec.ofNat 48 s.us) p (entOff k))
      && decide (entryIds p).Nodup)
    gate := fun _ s => stop (decide (s.pwr.state ≠ .active) || decide (s.pwr.time = .invalid)) stWrongState
    run := fun _ p s =>
      let s := (List.range (p.u8 16)).foldl (fun s k => s.objWrite p (entOff k)) s
      okOut s [w32 s.activeCount] }

def execObjUpdate (p : Pkt) (s : State) : Host.Outcome State Fault Refusal :=
  .next (serveOp 0x0101 objUpdateDef p false s)

/-! ### OBJ_RELEASE and OBJ_CLEAR_ALL (R123) -/

/-- A context is released: its other fields stay for MEM_READ. -/
def State.release (s : State) (n : Nat) : State := s.setCtx n { s.ctx n with active := false }

/-- Every context of a list is released. -/
def State.releaseAll (s : State) (l : List Nat) : State := l.foldl (fun s n => s.release n) s

/-- The contexts named in a 128-bit mask. -/
def maskIds (p : Pkt) : List Nat :=
  (List.range 128).filter fun i => bitOf (p.u8 (16 + i / 8)) (i % 8)

def objReleaseDef : OpDef :=
  { jnl := jnlClass0
    rlen := fun _ => 1
    len := fun p => decide (p.plen = 4)
    bad := fun p _ => need (!(maskIds p).isEmpty)
    run := fun _ p s =>
      let n := ((maskIds p).filter fun i => (s.ctx i).active).length
      let s := s.releaseAll (maskIds p)
      okOut s [w32 (n + 256 * s.activeCount)] }

def execObjRelease (p : Pkt) (s : State) : Host.Outcome State Fault Refusal :=
  .next (serveOp 0x0102 objReleaseDef p false s)

/-- FORCE_LEVEL is cleared. -/
def State.clearForce (s : State) : State := { s with shd := { s.shd with force := {} } }

def objClearAllDef : OpDef :=
  { jnl := jnlClass0
    rlen := fun _ => 1
    len := fun p => decide (p.plen = 1)
    bad := fun p _ => need (decide (p.u32 16 ≤ 1))
    run := fun _ p s =>
      let n := s.activeCount
      let s := s.releaseAll (s.activeCtx.map (·.1))
      okOut (if bitOf (p.u32 16) 0 then s.clearForce else s) [w32 n] }

def execObjClearAll (p : Pkt) (s : State) : Host.Outcome State Fault Refusal :=
  .next (serveOp 0x0103 objClearAllDef p false s)

/-! ### FORCE_LEVEL (R138) -/

def forceLevelDef : OpDef :=
  { jnl := jnlClass0
    rlen := fun _ => 1
    len := fun p => decide (p.plen = 2)
    bad := fun p _ => need (p.zero 22 2)
    gate := fun _ s => stop (decide (2 ≤ s.diag.safe) || decide (s.pwr.state ≠ .active)) stWrongState
    run := fun _ p s =>
      let old := s.shd.force
      let f : Force := if p.u16 16 = 0 ∨ p.u16 18 = 65535 then {}
        else { tiles := BitVec.ofNat 16 (p.u16 16), level := BitVec.ofNat 16 (p.u16 18),
               start := BitVec.ofNat 48 s.us, hold := BitVec.ofNat 16 (p.u16 20) }
      okOut { s with shd := { s.shd with force := f } } [halves old.tiles.toNat old.level.toNat] }

def execForceLevel (p : Pkt) (s : State) : Host.Outcome State Fault Refusal :=
  .next (serveOp 0x0104 forceLevelDef p false s)

/-! ### FALLBACK_ENTER and FALLBACK_EXIT (R139, R140) -/

def fallbackEnterDef : OpDef :=
  { jnl := jnlClass0
    rlen := fun _ => 1
    len := fun p => decide (p.plen = 2)
    bad := fun p _ => need (decide (p.u8 16 ≤ 2) && p.zero 17 1
      && decide (p.u32 20 = if p.u8 16 = 2 then 0x4441524B else 0))
    run := fun _ p s =>
      let s1 := s.evt 0x0103 2 p.ring (p.u8 16) (p.u16 18) p.seq.toNat s.diag.safe
      let s2 := s1.addCause (p.u8 16)
      okOut s2 [w32 s2.diag.safe] }

def execFallbackEnter (p : Pkt) (s : State) : Host.Outcome State Fault Refusal :=
  .next (serveOp 0x0105 fallbackEnterDef p false s)

/-- The causes that a FALLBACK_EXIT clears. -/
def exitMask (timeouts : Bool) : Nat := if timeouts then 15 else 7

def fallbackExitDef : OpDef :=
  { jnl := jnlClass0
    rlen := fun _ => 1
    len := fun p => decide (p.plen = 1)
    bad := fun p _ => need (decide (p.u32 16 ≤ 1))
    run := fun _ p s =>
      let s := s.clearCauses (exitMask (bitOf (p.u32 16) 0))
      okOut s [w32 (s.diag.safe + 256 * b2n s.exitPending + 512 * b2n (!s.causeList.isEmpty))] }

def execFallbackExit (p : Pkt) (s : State) : Host.Outcome State Fault Refusal :=
  .next (serveOp 0x0106 fallbackExitDef p false s)

/-! ### The timeout scan (R127, R130, R138) -/

/-- A context is released at its hard timeout, with the CTX_TIMEOUT event and cause (R130, R137). -/
def State.ctxTimeout (s : State) (n : Nat) (c : ObjCtx) : State :=
  (((s.release n).bump pCtxTimeouts 1).evt 0x0101 3 0xFF n c.timeout.toNat c.objTag.toNat
    c.updCount.toNat).addCause 3

/-- The scan first finds an age beyond TTL: STALE and CTX_STALE (R127), its age in whole ms (DESIGN CHOICE: R137
gives no rounding; log 39). -/
def State.scanStale (s : State) (n : Nat) (c : ObjCtx) (d : Int) : State :=
  if 1000 * c.ttl.toNat < d ∧ !c.stale then
    (s.setCtx n { c with stale := true }).evt 0x0102 1 0xFF n c.ttl.toNat c.objTag.toNat (d / 1000).toNat
  else s

/-- One visit of the scan to an active context at D_round (R127, R130). -/
def State.scanVisit (s : State) (now : BitVec 48) (n : Nat) (c : ObjCtx) : State :=
  let d := age48 now c.tCap
  let s := s.scanStale n c d
  if 1000 * c.timeout.toNat ≤ d then s.ctxTimeout n (s.ctx n) else s

/-- The scan's visit to the FORCE_LEVEL hold. -/
def State.scanForce (s : State) (now : BitVec 48) : State :=
  let f := s.shd.force
  if f.hold ≠ 0 ∧ 1000 * f.hold.toNat ≤ age48 now f.start then
    s.clearForce.evt 0x0104 0 0xFF f.tiles.toNat f.level.toNat 0 0
  else s

/-- A round of the timeout scan. In INVALID the contexts keep ageing on the sleep-timer estimate of
the model's clock (R132; DEDUCED, log 19). -/
def State.scanRound (s : State) : State :=
  let now : BitVec 48 := BitVec.ofNat 48 s.us + BitVec.ofNat 48
    (match s.pwr.oscLost with | some t => (s.clk - t) / 1000 | none => 0)
  (s.activeCtx.foldl (fun s e => s.scanVisit now e.1 e.2) s).scanForce now

def execTimeoutScanRound (dt : Nat) (s : State) : Host.Outcome State Fault Refusal :=
  let s := s.elapse dt
  .next (if s.logicUp ∧ (s.pwr.state = .active ∨ s.pwr.state = .idle) then s.scanRound else s)

end Sys2Proof.Machine
end

