-- ==== Sys2Proof/Machine/Saddle.lean ====
section
/-! DEFINITION. Saddle (06_saddle_current_budget.md): window sums and stretching, the improvement
pass, the levels, the running check, the model gain, the hard trip, and the opcodes 0x0403 and
0x0404. A current is a sum over pixels of (REF + 1) x (224 + TRIM) x K: 8,192,000 x 4,096 of them
are 1 mA, and every current counts twice, or once while a trip halves I_fs (R64, R65, R152, R153). -/

namespace Sys2Proof.Machine

/-! ### Profiles and windows (R141 to R144) -/

/-- One mA in Saddle's units. -/
def maUnit : Nat := 8192000 * 4096 * 2

/-- How often a current counts in a sub-frame, of the next frame or not (R153, R154): once while a trip
halves I_fs, which ends at the seam after the clear, else twice. -/
def State.scale (s : State) (next : Bool) : Nat :=
  if s.sad.tripHeld && !(s.sad.tripRelease && next) then 1 else 2

/-- A row-group's profile. -/
def State.profile (s : State) (g : Nat) : Profile := tget (fun _ => {}) s.sad.profiles g

/-- Change a row-group's profile. -/
def State.modProfile (s : State) (g : Nat) (f : Profile → Profile) : State :=
  { s with sad := { s.sad with profiles := tmod (fun _ => {}) s.sad.profiles g f } }

/-- A bin of a profile. -/
def bin (h : List Nat) (b : Nat) : Nat := h.getD b 0

/-- Stretching in time (R143). -/
def stretch (h : List Nat) (f : Nat) : List Nat :=
  (List.range 64).map fun u =>
    if f = 0 then 0 else if 63 < u * 4096 / f then 0 else bin h (u * 4096 / f)

/-- A profile placed at a slot: its contribution to each window (R142). -/
def rotate (h : List Nat) (slot : Nat) : List Nat :=
  (List.range 64).map fun w => bin h ((w + 64 - slot % 64) % 64)

/-- Window sums less a contribution. -/
def subLists (a b : List Nat) : List Nat := (List.range 64).map fun w => bin a w - bin b w

/-- The sum of window lists. -/
def sumWindows (l : List (List Nat)) : List Nat := l.foldl addLists []

/-- The class factors of a level (R149). -/
def classFactors (z : Nat) : Nat × Nat × Nat :=
  (min 4096 (z - 8192), min 4096 (z - 4096), min 4096 z)

/-- The single factor of a row-group (R143). -/
def groupFactor (f : Nat × Nat × Nat) (p : Profile) : Nat :=
  let t := p.sumB + p.sumO + p.sumP
  if t = 0 then 4096 else (f.1 * p.sumB + f.2.1 * p.sumO + f.2.2 * p.sumP) / t

/-- REF + 1 of a row-group's tile in a sub-frame of the next frame or not, from the shadow copy for a plan
that takes a commit as taken (R144, R194), counted as `State.scale` says. -/
def State.refOf (s : State) (commit next : Bool) (g : Nat) : Nat :=
  let id := pTileRef + rgTile g
  (bits (if commit then s.shadow id else s.live id) 9 0 + 1) * s.scale next

/-- A list times a factor. -/
def timesList (n : Nat) (l : List Nat) : List Nat := l.map (· * n)

/-! ### Slots (R146, R147) -/

/-- The home slot of a row-group (R146). -/
def homeSlot (g : Nat) : Nat := 4 * (g % 16) + (g / 16) % 4

/-- The limp slot of a row-group (R73). -/
def limpSlot (g : Nat) : Nat := 17 * g % 64

/-- The slot at which a row-group's counter last restarted (R147); before any, its home slot. -/
def State.prevSlot (s : State) (g : Nat) : Nat := (s.rg g).slot.getD (homeSlot g)

/-- The circular distance of two slots. -/
def slotDist (a b : Nat) : Nat := min ((a + 64 - b) % 64) ((b + 64 - a) % 64)

/-- The tile spacing in slots (R147). -/
def dMin (pwmPs : Nat) : Nat := ceilDiv (64 * 20480000) pwmPs

/-- What the improvement pass works on, by row-group: H* in Saddle's units, T and the committed
profile in them, and the previous plan's factors. -/
structure Work where
  demand : List (List Nat)
  total  : List Nat
  comm   : List (List Nat)
  factor : List Nat
  prev   : List Nat
  carry  : Bool
  deriving DecidableEq, Repr

/-- H* of a row-group with the carry term of a candidate slot (R144). -/
def carried (w : Work) (g slot : Nat) : List Nat :=
  let h := w.demand.getD g []
  let p := w.prev.getD g 0
  let m := p - slot
  if !w.carry || m = 0 then h
  else (List.range 64).map fun u =>
    if u < m then min (w.total.getD g 0) (bin h u + bin (w.comm.getD g []) (64 - m + u)) else bin h u

/-- The profile of a row-group at a candidate slot, stretched by the previous plan's factor. -/
def atSlot (w : Work) (g slot : Nat) : List Nat := stretch (carried w g slot) (w.factor.getD g 4096)

/-- The candidate slots of a row-group (R147). -/
def candidates (w : Work) (slots : List Nat) (moveMax d g : Nat) : List Nat :=
  let p := w.prev.getD g 0
  let others := ((List.range 16).map fun i => 16 * rgTile g + i).filter fun a => a ≠ g
  ((List.range 64).filter fun x => decide (p - moveMax ≤ x) && decide (x ≤ min 63 (p + 1))).filter
    fun x => others.all fun a => decide (d ≤ slotDist x (slots.getD a 0))
      && decide (d + w.prev.getD a 0 ≤ x + 64)

/-- The best candidate: least peak, then nearest, then lowest (R147). -/
def bestSlot (peak : Nat → Nat) (p : Nat) (l : List Nat) : Nat :=
  let key := fun (x : Nat) => (peak x * 128 + (max x p - min x p)) * 64 + x
  match l with
  | [] => p
  | a :: r => r.foldl (fun b x => if key x < key b then x else b) a

/-- One row-group's turn of the improvement pass: slots, window sums and slew overs. -/
def improveOne (w : Work) (moveMax d slew : Nat) (st : List Nat × List Nat × Nat) (g : Nat) :
    List Nat × List Nat × Nat :=
  let slots := st.1
  let p := w.prev.getD g 0
  let c := subLists st.2.1 (rotate (atSlot w g p) p)
  let cand := candidates w slots moveMax d g
  let on := fun (x : Nat) => sumOf ((List.range 256).map fun a =>
    if a ≠ g ∧ slots.getD a 0 = x then bin (atSlot w a (slots.getD a 0)) 0 else 0)
  let keep0 := cand.filter fun x => decide (on x + bin (atSlot w g x) 0 ≤ slew)
  let slewed := keep0.isEmpty && !cand.isEmpty
  let keep := if keep0.isEmpty then cand else keep0
  let sums := fun (x : Nat) => addLists c (rotate (atSlot w g x) x)
  let peak := fun (x : Nat) => maxOf (sums x)
  let best := bestSlot peak p keep
  let x := if peak best < peak p then best else p
  (slots.set g x, sums x, st.2.2 + b2n slewed)

/-- The order of the improvement pass: sum of H* descending, then number ascending (R147). -/
def improveOrder (w : Work) : List Nat :=
  let key := fun (g : Nat) => sumOf (w.demand.getD g [])
  (List.range 256).foldl (fun l g => insertBy key g l) []
where
  insertBy (key : Nat → Nat) (g : Nat) : List Nat → List Nat
    | [] => [g]
    | a :: r => if key a < key g then g :: a :: r else a :: insertBy key g r

/-- The improvement pass over the previous plan: the slots and the slew overs (R147). -/
def improve (w : Work) (moveMax d slew : Nat) : List Nat × Nat :=
  let c0 := sumWindows ((List.range 256).map fun g => rotate (atSlot w g (w.prev.getD g 0)) (w.prev.getD g 0))
  let r := (improveOrder w).foldl (improveOne w moveMax d slew) (w.prev, c0, 0)
  (r.1, r.2.2)

/-! ### Levels (R149) -/

/-- The largest number up to `hi` that passes a test that no larger number mends: by bits from the
top, for `hi` below 2^14. -/
def largest (ok : Nat → Bool) (hi : Nat) : Nat :=
  [13, 12, 11, 10, 9, 8, 7, 6, 5, 4, 3, 2, 1, 0].foldl
    (fun r b => if r + 2 ^ b ≤ hi ∧ ok (r + 2 ^ b) then r + 2 ^ b else r) 0

/-- The row-groups of a tile. -/
def tileGroups (t : Nat) : List Nat := (List.range 16).map fun i => 16 * t + i

/-- The planned window sums of some row-groups, each at its level. -/
def planned (prof : Nat → Profile) (h : List (List Nat)) (slots : List Nat) (z : Nat → Nat)
    (gs : List Nat) : List Nat :=
  sumWindows (gs.map fun g =>
    rotate (stretch (h.getD g []) (groupFactor (classFactors (z g)) (prof g))) (slots.getD g 0))

/-- Slots in force at a plan: previous ones. -/
def State.prevSlots (s : State) : List Nat := (List.range 256).map s.prevSlot

/-- The level of a row-group in a plan: the smaller of its tile's and the device's (R149). -/
def Plan.level (p : Plan) (g : Nat) : Nat := min p.zD (p.zT.getD (rgTile g) 12288)

/-- The windows that a plan's contributions sum to. -/
def Plan.windows (p : Plan) : List Nat := sumWindows p.contrib

/-- The windows of one tile. -/
def Plan.tileWindows (p : Plan) (t : Nat) : List Nat :=
  sumWindows ((tileGroups t).map fun g => p.contrib.getD g [])

/-- The most recent plan. -/
def State.lastPlan (s : State) : Plan := s.sad.next.getD s.sad.cur

/-- The plan that serves a sub-frame: in paired cadence a plan serves two. -/
def State.planFor (s : State) (sub : Nat) : Plan :=
  match s.sad.next with
  | some p => if p.sub ≤ sub then p else s.sad.cur
  | none => s.sad.cur

/-- What the improvement pass works on now: `seam` for the plan of a sub-frame 0, which takes a pending
commit as taken, CARRY_EN of DRIVE_CTRL with the rest of it (R144, R194). -/
def State.planWork (s : State) (seam : Bool) : Work :=
  let gs := List.range 256
  let commit := seam && s.prm.commit
  let unit := fun (g : Nat) => s.sad.k * s.refOf commit seam g
  { demand := gs.map fun g => timesList (unit g) (s.profile g).demand
    total := gs.map fun g => unit g * (s.profile g).total
    comm := gs.map fun g => timesList (unit g) (s.profile g).committed
    factor := gs.map fun g => groupFactor (classFactors (s.lastPlan.level g)) (s.profile g)
    prev := s.prevSlots
    carry := bitOf (if commit then s.shadow pDriveCtrl else s.live pDriveCtrl) 3 }

/-- MOVE_MAX (R157). -/
def State.moveMax (s : State) : Nat := s.fld pSaddleCtrl 11 8 + 1

/-- The slots of the next plan, the slew overs, and whether it is the home plan (R146, R147). -/
def State.planSlots (s : State) (w : Work) (seam : Bool) : List Nat × Nat × Bool :=
  let turn := match s.timingNext with
    | some n => seam && rateDiffers s.frm.timing n
    | none => false
  let paired := match s.timingNext with
    | some n => if seam then timingPaired n else s.paired
    | none => s.paired
  if s.sad.homePlan || paired || turn then ((List.range 256).map homeSlot, 0, true)
  else if s.flag pSaddleCtrl 0 then
    let r := improve w s.moveMax (dMin (timingPwmPs s.frm.timing)) (s.live pSlewMax * maUnit)
    (r.1, r.2, decide (r.1 = (List.range 256).map homeSlot))
  else (w.prev, 0, decide (w.prev = (List.range 256).map homeSlot))

/-- The frame number that an event of a plan carries: for a coming sub-frame 0 that of the frame to come.
The latch of R158 that lets BUDGET_LIMIT be raised once a frame is opened again at the latch instant
(DESIGN CHOICE: R158 does not say to which frame the plan of a sub-frame 0 belongs; log 39). -/
def State.planFrame (s : State) (seam : Bool) : Nat := if seam then (s.frm.frame + 1).toNat else s.frm.frame.toNat

/-- BUDGET_LIMIT (R158): scaling begins or ends, at most once per frame. Scaling is a device level below
12,288; a tile's own level is not looked at (DESIGN CHOICE: R158 does not say; log 39). -/
def State.budgetLimit (s : State) (zd unsc frame : Nat) : State :=
  let now := decide (zd < 12288)
  if now = s.sad.limiting ∨ s.sad.limitRaised then s
  else ({ s with sad := { s.sad with limiting := now, limitRaised := true } }).evt
    0x0404 0 0xFF (b2n now) zd unsc frame

/-- PRIO_SCALED (R149, R158), once per episode. -/
def State.prioScaledEvt (s : State) (zd : Nat) (zt : List Nat) (bt : Int) (frame : Nat) : State :=
  let least := minOf zd (zd :: zt)
  let was := s.sad.prioScaled
  let s := { s with sad := { s.sad with prioScaled := decide (least < 4096) } }
  if least < 4096 ∧ !was then
    s.evt 0x0405 1 0xFF least (ofFlags (zt.map fun z => decide (z < 4096))) (twos 32 bt) frame
  else s

/-- VLED is raised ahead of the content (R151). -/
def State.preraise (s : State) (peak : Nat) : State :=
  if s.flag pVfbCtrl 0 && s.flag pSaddleCtrl 2
      && decide ((s.live pPreraise + s.sad.measPeak) * maUnit < peak) then
    { s with pix := { s.pix with
      vfb := BitVec.ofNat 8 (max (s.pix.vfb.toNat - s.fld pVfbCtrl 19 16) (s.fld pVfbLimits 7 0))
      quiet := 0 } }
  else s

/-- A plan for the coming sub-frame (R145 to R149): `seam` says it is sub-frame 0 of a frame. -/
def State.makePlan (s : State) (seam : Bool) : State :=
  let tf := s.thm.tf
  let bEff := s.live pBudget * tf / 4096
  let bt : Int := (bEff : Int) - s.live pGuard
  let tLim := s.live pTileCap * tf / 4096 * maUnit
  let btU := bt.toNat * maUnit
  let w := s.planWork seam
  let sl := s.planSlots w seam
  let slots := sl.1
  let h := (List.range 256).map fun g => carried w g (slots.getD g 0)
  let prof := s.profile
  let zt := (List.range 16).map fun t =>
    largest (fun z => decide (maxOf (planned prof h slots (fun _ => z) (tileGroups t)) ≤ tLim)) 12288
  let zOf := fun (zd g : Nat) => min zd (zt.getD (rgTile g) 12288)
  let zd := largest (fun z => decide (maxOf (planned prof h slots (zOf z) (List.range 256)) ≤ btU)) 12288
  let contrib := (List.range 256).map fun g =>
    rotate (stretch (h.getD g []) (groupFactor (classFactors (zOf zd g)) (prof g))) (slots.getD g 0)
  let whole := maxOf (sumWindows ((List.range 256).map fun g => rotate (h.getD g []) (slots.getD g 0)))
  let peak := maxOf (sumWindows contrib)
  let tpk := (List.range 16).map fun t =>
    maxOf (sumWindows ((tileGroups t).map fun g => contrib.getD g []))
  let unsc := roundDiv whole maUnit
  let pred := roundDiv peak maUnit
  let frame := s.planFrame seam
  let plan : Plan :=
    { sub := s.frm.sub + 1
      slots := slots
      zD := zd
      zT := zt
      k := s.sad.k
      contrib := contrib
      bound := max btU peak
      tileBound := tpk.map (max tLim) }
  let s := s.preraise peak
  let s := s.bump pSlewOver sl.2.1
  let s := { s with sad := { s.sad with
    next := some plan
    homePlan := false
    inHome := sl.2.2
    peakUnsc := unsc
    peakPred := pred
    tilePeak := tpk.map fun x => roundDiv x maUnit
    tfLat := tf
    bEff := bEff
    target := bt
    zMin := min s.sad.zMin zd
    headMin := min s.sad.headMin (bt - pred)
    slews := s.sad.slews + sl.2.1
    oldEnd := if s.sad.oldBudget.isSome ∧ s.sad.oldEnd.isNone then
      some (s.frm.sub + (if s.paired then 2 else 1)) else s.sad.oldEnd } }
  (s.budgetLimit zd unsc frame).prioScaledEvt zd zt bt frame

/-- Sub-frames of the frame in progress (R185, R196). -/
def State.frameSubs (s : State) : Nat :=
  match s.frm.change with
  | some c => if c.inBridge then c.oldSubs + (if s.paired then 2 else 1) else timingN s.frm.timing
  | none => timingN s.frm.timing

/-- The coming sub-frame is sub-frame 0 of a frame. -/
def State.seamNext (s : State) : Bool := decide (s.frameSubs ≤ s.frm.index + 1)

/-- Fallback light begins at the coming seam: the first after a full reset, or after IDLE or STANDBY,
whose latch instant lies at least 8 us after the step trims (R31, R85, R334). -/
def State.lightDue (s : State) : Bool :=
  (decide (s.pwr.boot = .firstSeam) || s.pwr.pixOff) && decide (s.target ≤ 2)
    && (match s.pwr.trimsAt with
      | some t => decide (t + 8000 ≤ s.nextLatchClk)
      | none => false)

/-- GOV's continuous comparison (R300). -/
def State.govCompare (s : State) (differs : Bool) : State :=
  if differs && !s.marked 23 && !s.marked 24 then
    ({ s with sad := { s.sad with replayGov := true } }).bump pGovMismatch 1
  else s

/-- Whether a plan is made now: never in limp, but for the seam that ends it; in paired cadence before
even sub-frames only (R145, R155, R241). -/
def State.plansNow (s : State) : Bool :=
  s.frm.running && (decide (s.diag.safe ≠ 3) || (decide (s.frm.ret = some .limpToFallback) && s.seamNext))
    && (!s.paired || s.seamNext || decide ((s.frm.index + 1) % 2 = 0))

def execPlanInstant (dt : Nat) (dupDiffers : Bool) (s : State) : Host.Outcome State Fault Refusal :=
  let s := s.elapse dt
  .next (if s.plansNow then
    let s := if s.frm.ret = some .limpToFallback ∧ s.seamNext then
        { s with frm := { s.frm with retArmed := true } } else s
    let s := s.abortSlice fun ty _ => decide (ty = 4)
    (s.makePlan s.seamNext).govCompare dupDiffers
  else s)

/-! ### The running check (R150) -/

/-- Replace a row-group's contribution in the plan that serves a sub-frame. -/
def State.setContrib (s : State) (sub g : Nat) (x : List Nat) : State :=
  match s.sad.next with
  | some p =>
    if p.sub ≤ sub then { s with sad := { s.sad with next := some { p with contrib := p.contrib.set g x } } }
    else { s with sad := { s.sad with cur := { s.sad.cur with contrib := s.sad.cur.contrib.set g x } } }
  | none => { s with sad := { s.sad with cur := { s.sad.cur with contrib := s.sad.cur.contrib.set g x } } }

/-- Counted clamp, and LOAD_CLAMP at most once per frame (R150, R158). -/
def State.loadClamp (s : State) (g q : Nat) : State :=
  let s := s.bump pClampCount 1
  let n := s.sad.clampFrame + 1
  let s := { s with sad := { s.sad with clamps := s.sad.clamps + 1, clampFrame := n } }
  if n = 1 then s.evt 0x0406 1 0xFF g q n s.frm.frame.toNat else s

/-- A sub-frame lies in the next frame. -/
def State.inNext (s : State) (sub : Nat) : Bool := decide (s.frameSubs ≤ s.frm.index + (sub - s.frm.sub))

/-- The running check of a row-group whose actual profile is `ha`, at a slot in a sub-frame: the
factor q, with the committed profile and sums (R150). -/
def State.runningCheck (s : State) (g sub slot : Nat) (ha : List Nat) : State × Nat :=
  let p := s.planFor sub
  let unit := p.k * s.refOf false (s.inNext sub) g
  let t := rgTile g
  let old := p.contrib.getD g []
  let dev := subLists p.windows old
  let til := subLists (p.tileWindows t) old
  let at_ := fun (q : Nat) => rotate (timesList unit (stretch ha q)) slot
  let fits := fun (q : Nat) => decide (maxOf (addLists dev (at_ q)) ≤ p.bound)
    && decide (maxOf (addLists til (at_ q)) ≤ p.tileBound.getD t 0)
  let q := if fits 4096 then 4096 else largest fits 4096
  let s := (s.setContrib sub g (at_ q)).modProfile g fun x => { x with committed := stretch ha q }
  (if q < 4096 then s.loadClamp g q else s, q)

/-- A row-group that repeats is committed with its previous profile at its previous slot (R150). -/
def State.commitRepeat (s : State) (g sub : Nat) : State :=
  let p := s.planFor sub
  s.setContrib sub g
    (rotate (timesList (p.k * s.refOf false (s.inNext sub) g) (s.profile g).committed) (s.prevSlot g))

/-- Codes that are not loaded: the profile that was committed before them stands again (R150). -/
def State.uncommit (s : State) (g : Nat) (x : Ready) : State :=
  s.modProfile g fun p => { p with committed := x.prior }

/-- A row-group whose load writes MASK 1 and code 0 draws nothing (R141, R150, R240; DEDUCED, log 20). -/
def State.commitDark (s : State) (g sub : Nat) : State :=
  (s.setContrib sub g []).modProfile g fun p => { p with committed := [] }

/-! ### The model gain (R152) -/

/-- The model gain after a sub-frame whose 64 measured windows are in mA; M and P are reported to the
nearest mA (DEDUCED, log 20). -/
def State.kUpdate (s : State) (measured : List Nat) : State :=
  let mSum := sumOf measured
  let pSum := sumOf s.sad.cur.windows
  let u := maUnit
  let s := { s with sad := { s.sad with
    measMean := roundDiv mSum 64
    measPeak := maxOf measured
    winLast := s.sad.cur.windows.map fun x => roundDiv x u
    tileLast := (List.range 16).map fun t => sumOf (s.sad.cur.tileWindows t) * 125 / (8 * u) } }
  if pSum < 500 * 64 * u ∨ s.tripHolds ∨ s.diag.safe = 3 ∨ s.sad.kSkip ∨ !s.flag pSaddleCtrl 1 then s
  else
    let k : Int := s.sad.k
    let n := (clampI 3277 4915 (k + k * ((mSum * u : Nat) - (pSum : Int)) / (64 * pSum : Nat))).toNat
    let lim := decide (n = 3277) || decide (n = 4915)
    let run := if lim then s.sad.kRun + 1 else 0
    let s := { s with sad := { s.sad with k := n, kRun := run, kRaised := s.sad.kRaised && lim } }
    if 64 ≤ run ∧ !s.sad.kRaised then
      ({ s with sad := { s.sad with kRaised := true } }).evt 0x0407 2 0xFF n (b2n (decide (n = 4915)))
        (roundDiv mSum 64) (roundDiv pSum (64 * u))
    else s

/-- The sub-frame ends: the next plan comes into force (R145), and a lowered BUDGET becomes the
trip's own once the first sub-frame planned with it has ended (R153). -/
def State.nextPlan (s : State) : State :=
  let ended := match s.sad.oldEnd with | some e => decide (e ≤ s.frm.sub) | none => false
  { s with sad := { s.sad with
    cur := match s.sad.next with | some p => if p.sub ≤ s.frm.sub + 1 then p else s.sad.cur | none => s.sad.cur
    next := none
    kSkip := false
    oldBudget := if ended then none else s.sad.oldBudget
    oldEnd := if ended then none else s.sad.oldEnd } }

/-! ### The hard trip (R153, R154) -/

/-- The BUDGET that the trip compares with: the larger of old and new while a lowering is planned. -/
def State.tripBudget (s : State) : Nat := max (s.live pBudget) (s.sad.oldBudget.getD 0)

/-- A trip now is a repeat (R154). -/
def State.tripIsRepeat (s : State) : Bool :=
  s.tripHolds || (match s.sad.tripClear with
    | some t => decide (s.clk - t ≤ s.live pTripWindow * 10 ^ 9)
    | none => false)

/-- Every tile's DAC that drives goes to half scale. -/
def State.halveDacs (s : State) : State :=
  (List.range 16).foldl (fun s t => s.modTile t fun x => { x with dac := if x.dac = .off then .off else .half }) s

/-- The hard trip. -/
def State.hardTrip (s : State) (shuntMa : Nat) : State :=
  let rep := s.tripIsRepeat
  let s := { s with
    sad := { s.sad with tripHeld := true, tripRelease := false }
    pix := { s.pix with forced := 16 } }
  let s := (s.halveDacs.forceVfb).bump pTripCount 1
  let s := s.evt 0x0403 3 0xFF (b2n rep) (s.live pBudget) shuntMa s.frm.frame.toNat
  let s := s.addCause 7
  if rep then s.addCause 8 else s

def execHardTrip (dt shuntMa : Nat) (s : State) : Host.Outcome State Fault Refusal :=
  let s := s.elapse dt
  .next (if 11 * s.tripBudget ≤ 10 * shuntMa ∧ s.frm.running ∧ s.diag.safe ≠ 4 then s.hardTrip shuntMa else s)

/-! ### BUDGET_SET -/

/-- The values that a BUDGET_SET leaves: BUDGET, TILE_CAP, GUARD. -/
def budgetAfter (p : Pkt) (s : State) : Nat × Nat × Nat :=
  (p.u16 16, if p.u16 18 = 0 then s.live pTileCap else p.u16 18,
   if p.u16 20 = 0xFFFF then s.live pGuard else p.u16 20)

def budgetSetDef : OpDef :=
  { rlen := fun _ => 2
    len := fun p => decide (p.plen = 2)
    bad := fun p s =>
      let b := budgetAfter p s
      need (prmValueOk pBudget b.1 && prmValueOk pTileCap b.2.1 && prmValueOk pGuard b.2.2
        && decide (p.u16 22 ≤ 1) && shuntOk b.1 (s.live pRsense) && guardOk b.1 b.2.2)
    gate := fun p s => stop (s.tripHolds && decide (s.live pBudget < p.u16 16)) stWrongState
    run := fun _ p s =>
      let b := budgetAfter p s
      let old := s.live pBudget
      let s := ((s.budgetWrite b.1).setLive pTileCap b.2.1).setLive pGuard b.2.2
      let s := if bitOf (p.u16 22) 0 then { s with sad := { s.sad with k := 4096, kRun := 0 } } else s
      okOut s [halves old (b.1 * s.thm.tf / 4096), w32 s.thm.tf] }

def execBudgetSet (p : Pkt) (s : State) : Host.Outcome State Fault Refusal :=
  .next (serveOp 0x0403 budgetSetDef p false s)

/-! ### SADDLE_STATUS -/

/-- A list of half-words as words. -/
def pairWords : List Nat → List Word
  | a :: b :: r => halves a b :: pairWords r
  | [a] => [halves a 0]
  | [] => []

/-- The STATE of SADDLE_STATUS. -/
def saddleState (s : State) : Nat :=
  let p := s.lastPlan
  ofFlags [s.tripHolds, s.hasCause 8, s.sad.inHome, decide (p.zD < 12288), s.sad.prioScaled,
    p.zT.any fun z => decide (z < p.zD)]

/-- The results of SADDLE_STATUS. -/
def saddleWords (s : State) (windows : Bool) : List Word :=
  let p := s.lastPlan
  [halves (s.live pBudget) s.sad.bEff, halves (twos 16 s.sad.target) s.sad.tfLat, halves p.zD s.sad.zMin,
   halves s.sad.peakUnsc s.sad.peakPred,
   halves (twos 16 (s.sad.target - s.sad.peakPred)) (twos 16 s.sad.headMin),
   halves s.sad.measMean s.sad.measPeak, halves s.sad.k (saddleState s),
   w32 s.sad.clamps, w32 s.sad.slews]
    ++ pairWords ((List.range 16).map fun t => p.zT.getD t 12288)
    ++ pairWords ((List.range 16).map fun t => s.sad.tilePeak.getD t 0)
    ++ (if windows then pairWords ((List.range 64).map fun w => bin s.sad.winLast w) else [])

def saddleStatusDef : OpDef :=
  { jnl := jnlNone
    rlen := fun p => if bitOf (p.u32 16) 1 then 57 else 25
    len := fun p => decide (p.plen = 1)
    bad := fun p _ => need (decide (p.u32 16 ≤ 3))
    run := fun _ p s =>
      let r := saddleWords s (bitOf (p.u32 16) 1)
      okOut (if bitOf (p.u32 16) 0 then
        { s with sad := { s.sad with zMin := 12288, clamps := 0, slews := 0
                                     headMin := 32767 } } else s) r }

def execSaddleStatus (p : Pkt) (s : State) : Host.Outcome State Fault Refusal :=
  .next (serveOp 0x0404 saddleStatusDef p false s)

end Sys2Proof.Machine
end

