-- ==== Sys2Proof/Machine/Diag.lean ====
section
/-! DEFINITION. Pixel diagnostics (10_pixel_diagnostics_safe_state.md R229 to R237): the probe's
classification, the entries of the status map, confirmations and clusters; and the opcodes 0x0601 to
0x0605. -/

namespace Sys2Proof.Machine

/-! ### The probe and the entry of a pixel -/

/-- OPEN_TH in mV. -/
def State.openTh (s : State) : Nat := s.fld pProbeTh 11 0
/-- SHORT_TH in mV. -/
def State.shortTh (s : State) : Nat := s.fld pProbeTh 27 16
/-- WIN_COUNT. -/
def State.winTh (s : State) : Nat := s.fld pClusterTh 7 0
/-- TILE_COUNT. -/
def State.tileTh (s : State) : Nat := s.fld pClusterTh 23 8
/-- ROW_MAX. -/
def State.rowMax (s : State) : Nat := s.fld pClusterTh 31 24

/-- The result of a probe: 0 pass, 1 open, 2 short (R229). -/
def probeResult (openTh shortTh vled node : Nat) : Nat :=
  if node < openTh then 1 else if vled < node + shortTh then 2 else 0

/-- The entry after a probe (R233). -/
def nextEntry (e res : Nat) : Nat :=
  let h := e - e % 8
  if mapConf e then e
  else if e % 4 = 0 then (if res = 0 then e else h + res)
  else if res = 0 then h
  else if res = e % 4 then h + 4 + res
  else h + res

/-- A probe confirms a pixel (R233). -/
def confirms (e res : Nat) : Bool := !mapConf e && mapConf (nextEntry e res)

/-- The row-group of a device pixel, and the cell's number in it. -/
def groupOf (x y : Nat) : Nat := 16 * tileOf x y + y % 256 / 16
/-- See `groupOf`. -/
def cellOf (x y : Nat) : Nat := x % 256 + 256 * (y % 16)

/-- Cells of a row-group where none was ever loaded: CODE 0 and MASK 1 (R63). -/
def blankCells : List PixCode := List.replicate 4096 {}

/-- The cells of a row-group as a list. -/
def RowGroup.list (r : RowGroup) : List PixCode := if r.cells.isEmpty then blankCells else r.cells

/-! ### The step counters (R67) -/

/-- The instant at which the lit part of the sub-frame in progress ends and its notch begins (R66, R74). -/
def State.litEndNow (s : State) : Nat := s.frm.subStart + (s.pwmPs - 4000000) / 1000

/-- The PTB is in a notch: the step counters halt and every sink is off (R67, R74). -/
def State.inNotch (s : State) : Bool := decide (s.litEndNow ≤ s.clk)

/-- The lit time in ns between two instants of the sub-frame in progress and the one before: the notch
between them does not count. -/
def State.litSpan (s : State) (a b : Nat) : Nat :=
  if s.frm.subStart ≤ a then min b s.litEndNow - a
  else if s.frm.subStart ≤ b then (s.frm.litEnd - a) + (min b s.litEndNow - s.frm.subStart)
  else min b s.frm.litEnd - a

/-- The step counter of a row-group (R67): the steps of lit time since its slot start, halted in the notch. -/
def State.counter (s : State) (g : Nat) : Nat := 1000 * s.litSpan (s.rg g).startClk s.clk / stepPs s.pwmPs

/-- A cell of a row-group is lit (R67): MASK 0, outside the notch, and the counter below CODE. -/
def State.cellLit (s : State) (g n : Nat) : Bool :=
  let c := (s.rg g).list.getD n {}
  !c.mask && !s.inNotch && decide (s.counter g < c.code.toNat)

/-- The ns for which a cell with these contents is lit between two instants, its counter restarted at `from_`. -/
def State.pulseNs (s : State) (c : PixCode) (from_ a b : Nat) : Nat :=
  if c.mask then 0 else min (s.litSpan a b) (c.code.toNat * stepPs s.pwmPs / 1000 - s.litSpan from_ a)

/-- The ns for which a cell has been lit in the sub-frame in progress (R67, R79): its pulse since the slot
start, and before that the rest of the pulse that the sub-frame before left. -/
def State.litNs (s : State) (g n : Nat) : Nat :=
  let r := s.rg g
  let now := s.pulseNs (r.list.getD n {}) r.startClk (max r.startClk s.frm.subStart) s.clk
  if r.startClk ≤ s.frm.subStart then now
  else now + s.pulseNs (r.before.getD n {}) r.beforeClk s.frm.subStart r.startClk

/-- MASK is set in one cell (R75). -/
def State.maskCell (s : State) (x y : Nat) : State :=
  s.modRg (groupOf x y) fun r =>
    if r.cells.isEmpty then r
    else { r with cells := r.cells.modify (cellOf x y) fun (c : PixCode) => { c with mask := true } }

/-! ### Clusters (R237) -/

/-- The top-left coordinates of the 8-wide windows inside `n` that hold `x`. -/
def windowStarts (n x : Nat) : List Nat :=
  (List.range 8).filterMap fun i =>
    if i ≤ 7 ∧ 7 ≤ x + i ∧ x + i - 7 + 8 ≤ n then some (x + i - 7) else none

/-- The windows that hold a pixel: by y, then by x. -/
def windowsOf (x y : Nat) : List (Nat × Nat) :=
  (windowStarts 512 y).flatMap fun y0 => (windowStarts 2048 x).map fun x0 => (x0, y0)

/-- The window with the largest count; ties go to the lowest y, then the lowest x (R237). -/
def State.worstWindow (s : State) (x y : Nat) : Nat × Nat × Nat :=
  (windowsOf x y).foldl (fun b w =>
    let n := s.winCount w.1 w.2
    if b.2.2 < n then (w.1, w.2, n) else b) (0, 0, 0)

/-- A second has passed since an instant. -/
def State.secondSince (s : State) : Option Nat → Bool
  | none => true
  | some t => decide (10 ^ 9 ≤ s.clk - t)

/-- CLUSTER (R237, R249): the class is latched; at most one event of each kind per tile and second. -/
def State.cluster (s : State) (x y : Nat) : State :=
  let t := tileOf x y
  let w := s.worstWindow x y
  let n := s.tileCount t mapConf
  let s1 :=
    if s.winTh ≤ w.2.2 then
      let s := s.latchFault 1
      if s.secondSince (tget (fun _ => none) s.diag.clWin t) then
        ({ s with diag := { s.diag with clWin := tput (fun _ => none) s.diag.clWin t (some s.clk) } }).evt
          0x0603 3 0xFF t 0 (w.1 + 2048 * w.2.1) w.2.2
      else s
    else s
  if s1.tileTh ≤ n then
    let s := s1.latchFault 1
    if s.secondSince (tget (fun _ => none) s.diag.clTile t) then
      ({ s with diag := { s.diag with clTile := tput (fun _ => none) s.diag.clTile t (some s.clk) } }).evt
        0x0603 3 0xFF t 1 0 n
    else s
  else s1

/-! ### Confirmations (R233) -/

/-- PIXEL_FAULT, at most 64 in any second (R233, R249). -/
def State.pixelFault (s : State) (x y cls : Nat) (lit : Bool) : State :=
  let l := s.diag.pfTimes.filter fun t => decide (s.clk < t + 10 ^ 9)
  if l.length < 64 then
    ({ s with diag := { s.diag with pfTimes := s.clk :: l } }).evt 0x0602 1 0xFF (tileOf x y)
      (cls + 4 * b2n lit) (x + 2048 * y) (s.tileCount (tileOf x y) mapConf)
  else s.bump pPfeSuppressed 1

/-- Passes in progress do not compensate for a fault confirmed after they started (R240). -/
def State.tellPasses (s : State) (x y : Nat) : State :=
  { s with comp := { s.comp with passes := s.comp.passes.map fun (e : Nat × Pass) =>
    (e.1, { e.2 with newFaults := (2048 * y + x) :: e.2.newFaults }) } }

/-- A pixel fault is confirmed. -/
def State.confirm (s : State) (x y cls : Nat) (lit : Bool) : State :=
  let s := ((s.maskCell x y).tellPasses x y).modTile (tileOf x y) fun t => { t with lastConf := s.frm.frame }
  (((s.pixelFault x y cls lit).cluster x y).latchFault 0).degrade

/-- LIT of a confirmation (R236): CFLAG was set at this access, or at an earlier failing one of the
same pending class. -/
def State.litFor (s : State) (x y res : Nat) (lit : Bool) : Bool :=
  lit || (mapPend (s.mapAt x y) && decide (s.mapAt x y % 4 = res)
    && tget (fun _ => false) s.diag.litSeen (2048 * y + x))

/-- One probed cell: its entry moves, unless its map line is poisoned (R233, R277; DEDUCED, log 21). -/
def State.probeCell (s : State) (x y res : Nat) (lit : Bool) : State :=
  let e := s.mapAt x y
  if s.mem.poison.contains (mapLine x y) then s
  else
    let s1 := if nextEntry e res = e then s else
      { s.setMapAt x y (nextEntry e res) with
        diag := { s.diag with
          litSeen := tput (fun _ => false) s.diag.litSeen (2048 * y + x)
            (mapPend (nextEntry e res) && s.litFor x y res lit) } }
    if confirms e res then s1.confirm x y res (s.litFor x y res lit)
    else if res = 0 ∧ lit then
      s1.modTile (tileOf x y) fun t => { t with weak := satAdd 16 t.weak 1 }
    else s1

/-- A probed row of a tile: `res` is the result of each column, `lit` its CFLAG (R231). -/
def State.probeRow (s : State) (t row : Nat) (res : Nat → Nat) (lit : Nat → Bool) : State :=
  let x0 := 256 * (t % 8)
  let y := 256 * (t / 8) + row
  let k := 256 * t + row
  let fails := ((List.range 256).filter fun i => decide (res i ≠ 0)).length
  let mark := fun (s : State) (b : Bool) =>
    { s with diag := { s.diag with rowBad := tput (fun _ => false) s.diag.rowBad k b } }
  if s.rowMax < fails then
    let again := tget (fun _ => false) s.diag.rowBad k
    let s := mark (s.bump pRowDiscards 1) true
    if again then s.evt 0x0605 2 0xFF t row fails s.frm.frame.toNat else s
  else (List.range 256).foldl (fun s i => s.probeCell (x0 + i) y (res i) (lit i)) (mark s false)

/-- Probe samples are discarded (R230, R299): in dark, outside ACTIVE, or with the tile's
converters unusable. -/
def State.probeOff (s : State) (t : Nat) : Bool :=
  s.pixDark || decide (s.pwr.state ≠ .active) || s.marked (32 + t)

/-! ### DIAG_STATUS -/

/-- LOADER of a tile (DRIVE_STATUS): the limp loader while the engine is in limp. -/
def State.loaderCode (s : State) (t : Nat) : Nat :=
  if s.diag.safe = 3 then 3
  else match (s.tile t).loader with
    | .own => 0
    | .spur => 1
    | .held => 2
    | .limp => 3

/-- A window overlaps a tile. -/
def overlapsTile (t x0 y0 : Nat) : Bool :=
  decide (256 * (t % 8) < x0 + 8) && decide (x0 < 256 * (t % 8) + 256)
    && decide (256 * (t / 8) < y0 + 8) && decide (y0 < 256 * (t / 8) + 256)

/-- WIN_MAX of a tile (DIAG_STATUS). -/
def State.winMax (s : State) (t : Nat) : Nat :=
  maxOf ((s.mapList.filter fun e => mapConf e.2.2).flatMap fun e =>
    ((windowsOf e.1 e.2.1).filter fun w => overlapsTile t w.1 w.2).map fun w => s.winCount w.1 w.2)

/-- A count in a half-word, saturating. -/
def sat16 (n : Nat) : Nat := min n 65535

/-- The record of a tile. -/
def diagTile (s : State) (t : Nat) : List Word :=
  let cls := fun (c : Nat) (e : Nat) => mapConf e && decide (e % 4 = c)
  [halves (sat16 (s.tileCount t (cls 1))) (sat16 (s.tileCount t (cls 2))),
   halves (sat16 (s.tileCount t mapPend)) (sat16 (s.tileCount t mapHmask)),
   halves (s.tile t).weak (s.winMax t + 256 * s.loaderCode t), (s.tile t).lastConf]

/-- The results of DIAG_STATUS. -/
def diagWords (s : State) : List Word :=
  let susp := decide (s.diag.safe = 4) || decide (s.pwr.state ≠ .active) || !s.frm.running
  [w32 (s.diag.safe + 256 * ofFlags [s.faultn, s.alertn, s.exitPending, susp]),
   w32 s.diag.causes.toNat, halves s.diag.latch.toNat (s.live pFaultnEn), w32 s.pix.notch.toNat,
   w32 (s.mapCount mapConf), w32 (s.mapCount mapHmask), w32 (s.mapCount mapPend),
   w32 (s.live pRowDiscards)]
    ++ (List.range 16).flatMap (diagTile s)

/-- Every tile is changed. -/
def State.allTiles (s : State) (f : Tile → Tile) : State :=
  (List.range 16).foldl (fun s t => s.modTile t f) s

def diagStatusDef : OpDef :=
  { jnl := jnlNone
    rlen := fun _ => 72
    len := fun p => decide (p.plen = 1)
    bad := fun p _ => need (decide (p.u32 16 ≤ 1))
    run := fun _ p s =>
      okOut (if bitOf (p.u32 16) 0 then s.allTiles fun t => { t with weak := 0 } else s) (diagWords s) }

def execDiagStatus (p : Pkt) (s : State) : Host.Outcome State Fault Refusal :=
  .next (serveOp 0x0601 diagStatusDef p false s)

/-! ### DIAG_MAP_READ -/

/-- The number of array pixels. -/
def arrayEnd : Nat := 1048576

/-- The pixels of a list read: those examined from START, as (x, y, entry). -/
def State.mapScan (s : State) (start : Nat) (pend hmask : Bool) : List (Nat × Nat × Nat) :=
  s.mapList.filter fun e =>
    let i := 2048 * e.2.1 + e.1
    decide (start ≤ i) && decide (i < start + 131072)
      && (mapConf e.2.2 || (pend && mapPend e.2.2) || (hmask && mapHmask e.2.2))

/-- The records of a list read, and NEXT. -/
def State.mapRecords (s : State) (start count : Nat) (pend hmask : Bool) : List (Nat × Nat × Nat) × Nat :=
  let l := (s.mapScan start pend hmask).take count
  let stop := if l.length < count then start + 131072
    else match l.getLast? with
      | some e => 2048 * e.2.1 + e.1 + 1
      | none => start + 131072
  (l, if arrayEnd ≤ stop then 0xFFFFFFFF else stop)

/-- The address of a tile row's entries. -/
def mapRowAddr (t row : Nat) : Nat := 0x900000 + (2048 * (256 * (t / 8) + row) + 256 * (t % 8)) / 2

/-- The lines that a DIAG_MAP_READ reads. -/
def State.mapReadLines (s : State) (p : Pkt) : List Nat :=
  if p.u8 16 = 0 then
    (List.range (p.u16 22)).flatMap fun k => linesOf (mapRowAddr (p.u8 18) (p.u16 20 + k)) 128
  else
    let n := (s.mapRecords (p.u32 24) (p.u16 22) (bitOf (p.u8 17) 0) (bitOf (p.u8 17) 1)).2
    linesOf (0x900000 + p.u32 24 / 2) ((min n arrayEnd + 1) / 2 - p.u32 24 / 2)

def diagMapReadDef : OpDef :=
  { jnl := jnlNone
    rlen := fun p => if p.u8 16 = 0 then 32 * p.u16 22 else 2 + p.u16 22
    len := fun p => decide (p.plen = 3)
    bad := fun p _ => need (p.zero 19 1
      && (if p.u8 16 = 0 then
            decide (p.u8 17 = 0) && decide (p.u8 18 ≤ 15) && decide (1 ≤ p.u16 22) && decide (p.u16 22 ≤ 31)
              && decide (p.u16 20 + p.u16 22 ≤ 256) && decide (p.u32 24 = 0)
          else
            decide (p.u8 16 = 1) && decide (p.u8 17 ≤ 3) && decide (p.u8 18 = 0) && decide (p.u16 20 = 0)
              && decide (1 ≤ p.u16 22) && decide (p.u16 22 ≤ 1000) && decide (p.u32 24 < arrayEnd)))
    run := fun _ p s =>
      let r := s.readLines 5 (s.mapReadLines p)
      if r.2.isSome then { s := r.1, status := stMemFault, step := 0 }
      else if p.u8 16 = 0 then
        okOut r.1 (wordsOf ((List.range (p.u16 22)).flatMap fun k =>
          s.sramBytes (mapRowAddr (p.u8 18) (p.u16 20 + k)) 128))
      else
        let l := s.mapRecords (p.u32 24) (p.u16 22) (bitOf (p.u8 17) 0) (bitOf (p.u8 17) 1)
        okOut r.1 ([w32 l.2, w32 l.1.length]
          ++ l.1.map fun e => w32 (e.1 + 2048 * e.2.1 + 2 ^ 20 * e.2.2)) }

def execDiagMapRead (p : Pkt) (s : State) : Host.Outcome State Fault Refusal :=
  .next (serveOp 0x0602 diagMapReadDef p false s)

/-! ### PIXEL_MASK -/

/-- A rectangle in device coordinates, inclusive, at an offset: X0, Y0, X1, Y1. -/
def rectAt (p : Pkt) (o : Nat) : Nat × Nat × Nat × Nat := (p.u16 o, p.u16 (o + 2), p.u16 (o + 4), p.u16 (o + 6))

/-- A rectangle lies in the array. -/
def rectOk (r : Nat × Nat × Nat × Nat) : Bool :=
  decide (r.1 ≤ r.2.2.1) && decide (r.2.2.1 ≤ 2047) && decide (r.2.1 ≤ r.2.2.2) && decide (r.2.2.2 ≤ 511)

/-- The pixels of a rectangle. -/
def rectPixels (r : Nat × Nat × Nat × Nat) : List (Nat × Nat) :=
  (List.range (r.2.2.2 + 1 - r.2.1)).flatMap fun j =>
    (List.range (r.2.2.1 + 1 - r.1)).map fun i => (r.1 + i, r.2.1 + j)

/-- A map line of a rectangle is poisoned, so that nothing of it is written (R277). -/
def State.rectPoisoned (s : State) (r : Nat × Nat × Nat × Nat) : Bool :=
  (rectPixels r).any fun q => s.mem.poison.contains (mapLine q.1 q.2)

/-- The map lines of a rectangle are read before any of it is written (R272, R277): whether all can be. -/
def State.readRect (s : State) (r : Nat × Nat × Nat × Nat) : State × Bool :=
  if s.rectPoisoned r then (s, false)
  else
    let x := s.readEach 5 (s.troubled.filter fun a => (rectPixels r).any fun q => decide (mapLine q.1 q.2 = a))
    (x.1, x.2.isEmpty)

/-- Every entry of a rectangle is replaced: the state, and the number of entries that changed. -/
def State.mapRect (s : State) (r : Nat × Nat × Nat × Nat) (f : Nat → Nat) : State × Nat :=
  (rectPixels r).foldl (fun a q =>
    let e := a.1.mapAt q.1 q.2
    if f e = e then a else (a.1.setMapAt q.1 q.2 (f e), a.2 + 1)) (s, 0)

/-- HMASK of an entry set or cleared. -/
def putHmask (b : Bool) (e : Nat) : Nat := e % 8 + 8 * b2n b

def pixelMaskDef : OpDef :=
  { rlen := fun _ => 1
    len := fun p => decide (p.plen = 3)
    bad := fun p _ => need (decide (p.u8 16 ≤ 1) && p.zero 17 1 && rectOk (rectAt p 18) && p.zero 26 2)
    run := fun _ p s =>
      let x := s.readRect (rectAt p 18)
      let s := x.1
      if !x.2 then { s := s, status := stMemFault, step := 0 }
      else
        let r := s.mapRect (rectAt p 18) (putHmask (decide (p.u8 16 = 1)))
        okOut r.1 [w32 r.2] }

def execPixelMask (p : Pkt) (s : State) : Host.Outcome State Fault Refusal :=
  .next (serveOp 0x0603 pixelMaskDef p false s)

/-! ### FAULT_CLEAR (R250) -/

/-- The causes that FAULT_CLEAR may name. -/
def clearable : Nat := 0x65F8

/-- A named cause meets its condition of R239. -/
def State.causeClears (s : State) (b : Nat) : Bool :=
  match b with
  | 4 => (List.range 16).all fun t => !(s.freeze t).frozen
  | 5 => (List.range 16).all fun t => !(s.freeze t).frozen
  | 13 => (List.range 16).all fun t => decide ((s.tile t).loader ≠ .held)
  | _ => true

/-- A latch class has no cause that remains once the named causes are cleared, and SCENE0 is not
named while scene 0 is invalid. -/
def State.latchClears (s : State) (mask cls : Nat) : Bool :=
  (s.causeList.all fun b => bitOf mask b || decide (causeClass b ≠ some cls))
    && (decide (cls ≠ 11) || s.sceneValid 0)

/-- What clearing some causes does besides (R154, R250): the trip is released at the next seam, and
the host-stale timer restarts. -/
def State.clearExtras (s : State) (mask : Nat) : State :=
  let s := if bitOf mask 7 && s.tripHolds then
      { s with sad := { s.sad with tripRelease := true, tripClear := some s.clk } } else s
  if bitOf mask 6 then { s with frm := { s.frm with staleStart := some s.clk } } else s

/-- An entry with CLASS 0 and CONF 0, HMASK kept. -/
def clearEntry (e : Nat) : Nat := 8 * (e / 8 % 2)

def faultClearDef : OpDef :=
  { rlen := fun _ => 3
    len := fun p => decide (p.plen = 4)
    bad := fun p _ => need (decide (p.u32 16 &&& clearable = p.u32 16)
      && (!bitOf (p.u32 16) 8 || bitOf (p.u32 16) 7) && decide (p.u16 20 < 0x8000) && decide (p.u16 22 ≤ 1)
      && (if p.u16 22 = 1 then rectOk (rectAt p 24) else p.zero 24 8))
    gate := fun p s => stop (!((bitList (p.u32 16) 16).all s.causeClears
      && (bitList (p.u16 20) 15).all (s.latchClears (p.u32 16)))) stWrongState
    run := fun _ p s =>
      let x := if p.u16 22 = 1 then s.readRect (rectAt p 24) else (s, true)
      let s := x.1
      if !x.2 then { s := s, status := stMemFault, step := 0 }
      else
        let s := (s.clearExtras (p.u32 16)).clearCauses (p.u32 16)
        let s := { s with diag := { s.diag with latch := s.diag.latch &&& ~~~ BitVec.ofNat 16 (p.u16 20) } }
        let r := if p.u16 22 = 1 then s.mapRect (rectAt p 24) clearEntry else (s, 0)
        okOut r.1 [w32 r.1.diag.causes.toNat, w32 r.1.diag.latch.toNat, w32 r.2] }

def execFaultClear (p : Pkt) (s : State) : Host.Outcome State Fault Refusal :=
  .next (serveOp 0x0604 faultClearDef p false s)

/-! ### FAULT_CONFIG -/

/-- The values that a FAULT_CONFIG writes. -/
def faultEntries (p : Pkt) : List (Nat × Nat) :=
  [(pFaultnEn, p.u16 16), (pDiagCtrl, p.u16 18), (pProbeTh, p.u16 20 + 65536 * p.u16 22),
   (pClusterTh, p.u8 24 + 256 * p.u16 26 + 2 ^ 24 * p.u8 25)]

def faultConfigDef : OpDef :=
  { rlen := fun _ => 1
    len := fun p => decide (p.plen = 3)
    bad := fun p _ => need ((faultEntries p).all fun e => prmValueOk e.1 e.2)
    run := fun _ p s =>
      okOut (s.writeEntries (faultEntries p) false) [halves (s.live pFaultnEn) s.diag.latch.toNat] }

def execFaultConfig (p : Pkt) (s : State) : Host.Outcome State Fault Refusal :=
  .next (serveOp 0x0605 faultConfigDef p false s)

end Sys2Proof.Machine
end

