-- ==== Sys2Proof/Machine/Calib.lean ====
section
/-! DEFINITION. Calibration (11_calibration.md): the image in MRAM and how it is taken at start-up,
the notch row access with the trim loop and its sweeps, CAL_SWEEP and CAL_COMMIT step by step, and
the opcodes 0x0701 to 0x0705. -/

namespace Sys2Proof.Machine

/-! ### The image (R251 to R256) -/

/-- A CHECK word stands behind `n` bytes that it is right for, and no line of them is poisoned. -/
def State.checked (s : State) (a n : Nat) : Bool :=
  decide (s.mramLe (a + n) 4 = crc32 (s.mramBytes a n))
    && !(s.mem.poison.any fun l => decide (lineOf a ≤ l) && decide (l < a + n + 4))

/-- GEN of a copy's record. -/
def State.recGen (s : State) (c : Nat) : Nat := s.mramLe (calBase c) 4
/-- STATE of a copy's record. -/
def State.recState (s : State) (c : Nat) : Nat := s.mramLe (calBase c + 8) 1
/-- SWEEP_ID of a copy's record. -/
def State.recId (s : State) (c : Nat) : Nat := s.mramLe (calBase c + 12) 4
/-- BASE_GEN of a copy's record. -/
def State.recBase (s : State) (c : Nat) : Nat := s.mramLe (calBase c + 16) 4
/-- A copy's generation record carries a correct CHECK. -/
def State.recOk (s : State) (c : Nat) : Bool := s.checked (calBase c) 252

/-- The CHECK of a tile segment is correct. -/
def State.segOk (s : State) (c t : Nat) : Bool := s.checked (segBase c t) 0x1C03C
/-- The CHECK word of a tile segment. -/
def State.segCheck (s : State) (c t : Nat) : Nat := s.mramLe (segBase c t + 0x1C03C) 4
/-- SWEEP_ID of a tile segment. -/
def State.segId (s : State) (c t : Nat) : Nat := s.mramLe (segBase c t + 0x1C004) 4
/-- The CHECK word of a copy's map record. -/
def State.mapCheck (s : State) (c : Nat) : Nat := s.mramLe (mapBase c + 4 + 4 * s.mapCountOf c) 4
/-- The map record of a copy is correct. -/
def State.mapOk (s : State) (c : Nat) : Bool :=
  decide (s.mapCountOf c ≤ 47086) && s.checked (mapBase c) (4 + 4 * s.mapCountOf c)

/-- A copy is selectable (R257). -/
def State.selectable (s : State) (c : Nat) : Bool :=
  s.recOk c && decide (s.recState c = 2) && decide (s.recGen c ≠ 0)
    && ((List.range 16).all fun t => s.segOk c t && decide (s.mramLe (calBase c + 32 + 4 * t) 4 = s.segCheck c t))
    && s.checked (devBase c) 60 && decide (s.mramLe (calBase c + 96) 4 = s.mramLe (devBase c + 60) 4)
    && s.mapOk c && decide (s.mramLe (calBase c + 100) 4 = s.mapCheck c)

/-- The copy that start-up takes (R257). -/
def State.chosenCopy (s : State) : Option Nat :=
  match s.selectable 0, s.selectable 1 with
  | true, true => if s.recGen 0 < s.recGen 1 then some 1 else some 0
  | true, false => some 0
  | false, true => some 1
  | false, false => none

/-- The inactive copy (R265). -/
def State.inactive (s : State) : Nat :=
  match s.cal.copy with
  | some 0 => 1
  | _ => 0

/-- Four trims packed. -/
def packFour (a b c d : Nat) : List Byte := leBytes 3 (a % 64 + 64 * (b % 64) + 4096 * (c % 64) + 262144 * (d % 64))

/-- Trims packed four to a group (R252). -/
def packTrims : List Nat → List Byte
  | a :: b :: c :: d :: r => packFour a b c d ++ packTrims r
  | _ => []

/-- Row `r` of a tile in a working copy at `base`: its address. -/
def rowAddr (base t r : Nat) : Nat := base + 2048 * (256 * (t / 8) + r) + 256 * (t % 8)

/-! ### Taking the image at start-up (R235, R257, R258) -/

/-- A tile's gains and trims fill the working copies. -/
def State.fillTile (s : State) (c t : Nat) : State :=
  let trims := s.mramBytes (segBase c t + 0x10000) 0xC000
  (List.range 256).foldl (fun s r =>
    (s.setSram (rowAddr 0x600000 t r) (s.mramBytes (segBase c t + 256 * r) 256)).setSram
      (rowAddr 0x700000 t r) ((List.range 256).map fun i => BitVec.ofNat 8 (trimAt trims (256 * r + i)))) s

/-- REF of a tile record, or 767 where it is not valid (R85). -/
def State.segRef (s : State) (c t : Nat) : Nat :=
  let r := s.mramLe (segBase c t + 0x1C002) 2
  if 127 ≤ r ∧ r ≤ 1023 then r else 767

/-- A parameter takes a value in both copies (R208). -/
def State.setBoth (s : State) (id v : Nat) : State := (s.setLive id v).setShadow id v

/-- The status map from a copy's map record (R235). -/
def State.fillMap (s : State) (c : Nat) : State :=
  (List.range (s.mapCountOf c)).foldl (fun s k =>
    let w := s.mramLe (mapBase c + 4 + 4 * k) 4
    s.setMapAt (bits w 10 0) (bits w 19 11) (bits w 23 20)) s

/-- The lane trim seed of a device record (R255). -/
def State.laneSeed (s : State) (c l : Nat) : Option (List Nat) :=
  if bitOf (s.mramLe (devBase c + 18) 1) l then
    some ((s.mramBytes (devBase c + 20 + 4 * l) 4).map (·.toNat))
  else none

/-- The working copies and values from the active copy (R258). -/
def State.fillFrom (s : State) (c : Nat) : State :=
  let s := (List.range 16).foldl (fun s t => (s.fillTile c t).setBoth (pTileRef + t) (s.segRef c t)) s
  let s := (List.range 4).foldl (fun s q => s.setLive (pLimpGains + q) (s.mramLe (devBase c + 4 * q) 4)) s
  let s := (s.setLive pLimpLevel (s.mramLe (devBase c + 16) 2)).fillMap c
  { s with cal := { s.cal with seedA := s.laneSeed c 0, seedB := s.laneSeed c 1 } }

/-- A tile counts as checkpointed in a build (R266). -/
def State.tileDone (s : State) (id t : Nat) : Bool :=
  s.segOk s.inactive t && decide (s.segId s.inactive t = id)

/-- The inactive record is that of a build. -/
def State.building (s : State) : Bool := s.recOk s.inactive && decide (s.recState s.inactive = 1)

/-- What the inactive record says of a build: whether one is present, and whether it is complete (R270). -/
def State.findBuild (s : State) : State :=
  let id := s.recId s.inactive
  { s with cal := { s.cal with
    buildId := if s.building then some (w32 id) else none
    built := s.building && (List.range 16).all fun t => s.tileDone id t } }

/-- The engine judges the copies and takes one, with CAL_IMAGE (R257, R271). -/
def State.takeImage (s : State) : State :=
  let s := (s.readSpan 7 0x10000000 0x400000).1
  let c := s.chosenCopy
  let gen := match c with | some k => s.recGen k | none => 0
  let other := match c with | some k => (if s.recOk (1 - k) then s.recGen (1 - k) else 0) | none => 0
  let newer := (List.range 2).any fun k => s.recOk k && decide (gen < s.recGen k) && !s.selectable k
  let s := { s with cal := { s.cal with copy := c, gen := w32 gen } }
  let s := match c with | some k => s.fillFrom k | none => s
  s.findBuild.evt 0x0701 (if c.isNone || newer then 2 else 0) 0xFF
    (match c with | some k => k | none => 0xFF) (ofFlags [!s.selectable 0, !s.selectable 1]) gen other

/-! ### Step trims (R259) -/

/-- CAL_TRIM of a tile whose DAC code is `d` (R259, R271): at a rail, or far from its record. With no
active copy there is no record: a free value stands for it. -/
def State.calTrim (s : State) (t d : Nat) : State :=
  let x := match s.cal.copy with
    | some c => (s, some (s.mramLe (segBase c t + 0x1C012) 1))
    | none => (s, none)
  let rail := decide (d = 0) || decide (d = 255)
  let far := match x.2 with | some r => decide (8 < max d r - min d r) | none => false
  if rail then
    match x.2 with
    | some r => s.evt 0x0702 2 0xFF t d r 1
    | none => let f := s.freeW; f.1.evt 0x0702 2 0xFF t d f.2.toNat 1
  else if far then s.evt 0x0702 1 0xFF t d (x.2.getD 0) 0
  else s

/-- Every tile applies the codes that its SAR trims found. -/
def State.applyTrims (s : State) (dac : List Nat) (cmp : List (List Nat)) : State :=
  (List.range 16).foldl (fun s t =>
    let d := dac.getD t 128
    (s.modTile t fun x => { x with
      dacTrim := BitVec.ofNat 8 d
      cmpOff := (cmp.getD t []).map (BitVec.ofNat 6) }).calTrim t d) s

/-- TRIM of every cell from the trim working copy, and CFLAG cleared: the 128 start-up accesses of
R85. -/
def State.writeAllTrims (s : State) : State :=
  let r := s.readSpan 9 0x700000 0x100000
  let s := r.1
  let l := s.mem.sram.filter fun c => decide (0x700000 ≤ c.1) && decide (c.1 < 0x800000) && !r.2.contains (lineOf c.1)
  let t : Tab (BitVec 6) := l.foldl (fun t c =>
    tput (fun _ => (32 : BitVec 6)) t (c.1 - 0x700000) (BitVec.ofNat 6 c.2.toNat)) []
  { s with pix := { s.pix with trim := t, cflag := [] } }

/-! ### Sweeps (R261) -/

/-- A tile's sweep. -/
def State.sweep (s : State) (t : Nat) : Sweep := tget (fun _ => {}) s.cal.sweeps t
/-- Change a tile's sweep. -/
def State.modSweep (s : State) (t : Nat) (f : Sweep → Sweep) : State :=
  { s with cal := { s.cal with sweeps := tmod (fun _ => {}) s.cal.sweeps t f } }

/-- The square root of a number, rounded up. -/
def sqrtUp (n : Nat) : Nat := if isqrt n * isqrt n < n then isqrt n + 1 else isqrt n

/-- The median of readings (R261). -/
def medianOf (l : List Nat) : Nat := (sortNat l).getD ((l.length - 1) / 2) 0

/-- RES_MAX of readings about a median (R261). -/
def resMaxOf (l : List Nat) (m : Nat) : Nat :=
  ceilDiv (1000 * maxOf (l.map fun r => max r m - min r m)) m

/-- RES_RMS of readings about a median (R261). -/
def resRmsOf (l : List Nat) (m : Nat) : Nat :=
  sqrtUp (ceilDiv (1000000 * sumOf (l.map fun r => (max r m - min r m) * (max r m - min r m))) (l.length * m * m))

/-- A tile's sweep ends (R261). -/
def State.endSweep (s : State) (t : Nat) : State :=
  let w := s.sweep t
  let v := w.readings.length
  let few := decide (v < s.live pMedMin)
  if !w.open_ then s
  else if few || w.spoiled then
    let s1 := s.modSweep t fun w => { w with
      readings := []
      open_ := false
      median := none
      resMax := 0xFFFF
      resRms := 0xFFFF
      valid := v
      lostUp := w.lostUp || few }
    if few && !w.lostUp then s1.evt 0x0703 1 0xFF t 0 v s.frm.frame.toNat else s1
  else
    let m := medianOf w.readings
    s.modSweep t fun w => { w with
      readings := []
      open_ := false
      median := some m
      resMax := resMaxOf w.readings m
      resRms := resRmsOf w.readings m
      valid := v
      lostUp := false }

/-- Every tile's sweep begins at notch index 0; step 2 of a CAL_SWEEP begins with it (R265). -/
def State.startSweeps (s : State) : State :=
  let s := (List.range 16).foldl (fun s t => s.modSweep t fun w => { w with
    readings := []
    open_ := true
    spoiled := false }) s
  if s.cal.phase = .armed then { s with cal := { s.cal with phase := .running } } else s

/-- Every tile's sweep ends after notch index 127, and step 2 of a CAL_SWEEP has its figures. -/
def State.endSweeps (s : State) : State :=
  let s := (List.range 16).foldl (fun s t => s.endSweep t) s
  if s.cal.phase = .running then { s with cal := { s.cal with phase := .done, measure := s.cal.sweeps } } else s

/-- No sweep in progress yields a median (R263). -/
def State.spoilSweeps (s : State) : State :=
  (List.range 16).foldl (fun s t => s.modSweep t fun w => { w with spoiled := true }) s

/-! ### The notch row access (R75, R229 to R236, R260 to R263, R299) -/

/-- A cell's TRIM. -/
def State.trim (s : State) (x y : Nat) : Nat := (tget (fun _ => (32 : BitVec 6)) s.pix.trim (2048 * y + x)).toNat
/-- A cell's CFLAG. -/
def State.cflag (s : State) (x y : Nat) : Bool := tget (fun _ => false) s.pix.cflag (2048 * y + x)

/-- The trim working copy's byte of a pixel: its address. -/
def trimAddr (x y : Nat) : Nat := 0x700000 + 2048 * y + x

/-- One move of a trim (R262). -/
def movedTrim (deadband m rho trim : Nat) : Nat :=
  if m + deadband < rho ∧ 0 < trim then trim - 1
  else if rho + deadband < m ∧ trim < 63 then trim + 1
  else trim

/-- A sink ratio reading of one cell (R260, R262), at its map entry before this access. -/
def State.measureCell (s : State) (t x y rho : Nat) : State :=
  let e := s.mapAt x y
  if rho < 3072 ∨ 5119 < rho then s.bump pMeasInvalid 1
  else if mapMasked e || mapPend e then s
  else
    let med := (s.sweep t).median
    let s := s.modSweep t fun w => { w with readings := rho :: w.readings }
    let old := (s.sram (trimAddr x y)).toNat % 64
    match med with
    | some m =>
      let new := movedTrim (s.fld pCalCtrl 15 8) m rho old
      if !s.flag pCalCtrl 0 || decide (new = old) || s.mem.poison.contains (lineOf (trimAddr x y)) then s
      else (s.setSram (trimAddr x y) [BitVec.ofNat 8 new]).bump pTrimMoves 1
    | none => s

/-- TRIM of one cell is written, and its CFLAG cleared (R75); a poisoned trim line leaves the TRIM
(R276). -/
def State.accessCell (s : State) (x y : Nat) : State :=
  let k := 2048 * y + x
  let v : BitVec 6 := BitVec.ofNat 6 (s.sram (trimAddr x y)).toNat
  let trim := if s.mem.poison.contains (lineOf (trimAddr x y)) then s.pix.trim
    else tput (fun _ => (32 : BitVec 6)) s.pix.trim k v
  { s with pix := { s.pix with trim := trim, cflag := tput (fun _ => false) s.pix.cflag k false } }

/-- What a tile's probe senses of a cell: node and ratio, by column + 256 for row b. -/
def probeOf (pr : TileProbe) (k : Nat) : Nat × Nat :=
  match pr.odd.find? fun e => e.1 = k with
  | some e => e.2
  | none => (pr.node, pr.rho)

/-- The access of one row of a tile: `k0` is 0 for row a and 256 for row b. The lines of its trims, and of its
entries where it is probed, are read first: one that fails is poisoned from then on (R273, R276). -/
def State.accessRow (s : State) (pr : TileProbe) (t row k0 : Nat) : State :=
  let x0 := 256 * (t % 8)
  let y := 256 * (t / 8) + row
  let cols := List.range 256
  let off := s.probeOff t
  let s := (s.readSpan 9 (trimAddr x0 y) 256).1
  let s := if off then s else (s.readSpan 9 (mapRowAddr t row) 128).1
  let s :=
    if off ∨ !s.flag pCalCtrl 1 then s
    else cols.foldl (fun s i => s.measureCell t (x0 + i) y (probeOf pr (k0 + i)).2) s
  let lit := fun (i : Nat) => s.cflag (x0 + i) y
  let s := if off then s else
    s.probeRow t row (fun i => probeResult s.openTh s.shortTh pr.vled (probeOf pr (k0 + i)).1) lit
  cols.foldl (fun s i => s.accessCell (x0 + i) y) s

/-- The tile's 1.2 V check reference (R299): two readings off in a row mark its converters. -/
def State.checkRef (s : State) (t ref : Nat) : State :=
  if s.marked (32 + t) then s
  else
    let bad := decide (1220 < ref) || decide (ref < 1180)
    let n := (s.tile t).refBad
    let s := s.modTest 3 t fun r => { r with sig := r.sig + 1, state := 2 }
    let s := s.modTile t fun x => { x with refBad := if bad then x.refBad + 1 else 0 }
    if bad ∧ 1 ≤ n then
      ((s.mark (32 + t)).modTest 3 t fun r => { r with state := 5 }).evt 0x0901 3 0xFF 3 t (s.test 3 t).sig.toNat 0
    else s

/-- The CFLAGs that a sub-frame sets, and its flagged row-groups (R79, R80): a cell whose node was low and
which was lit for more than 2.0 us. -/
def State.setFlags (s : State) (low : List Nat) : State :=
  if s.flag pDriveCtrl 4 then
    let l := low.filter fun k =>
      decide (2000 < s.litNs (groupOf (k % 2048) (k / 2048)) (cellOf (k % 2048) (k / 2048)))
    { s with pix := { s.pix with
      cflag := l.foldl (fun t k => tput (fun _ => false) t k true) s.pix.cflag
      fNow := (l.map fun k => groupOf (k % 2048) (k / 2048)).eraseDups } }
  else { s with pix := { s.pix with fNow := [] } }

/-- The accesses of one notch in every tile; there is none before the first seam (R85; DEDUCED, log 25). -/
def State.notchAccess (s : State) (probes : List TileProbe) (low : List Nat) : State :=
  if s.pwr.boot = .firstSeam then s else
  let n := s.pix.notch.toNat
  let s := s.setFlags low
  let s := if n = 0 then s.startSweeps else s
  let s := (List.range 16).foldl (fun s t =>
    let pr := probes.getD t { vled := 0, refMv := 1200, node := 0, rho := 0, odd := [] }
    let s := if s.probeOff t then s.modSweep t fun w => { w with spoiled := true } else s
    ((s.accessRow pr t n 0).accessRow pr t (n + 128) 256).checkRef t pr.refMv) s
  if n = 127 then s.endSweeps else s

def execNotchRowAccess (dt : Nat) (probes : List TileProbe) (low : List Nat) (s : State) :
    Host.Outcome State Fault Refusal :=
  let s := s.elapse dt
  .next (if s.frm.running ∧ probes.length = 16 then s.notchAccess probes low else s)

/-! ### What a build writes (R252 to R256, R264, R265) -/

/-- Queue the writes of bytes of MRAM as whole lines, the last filled up with what stands there. -/
def State.queueBytes (s : State) (a : Nat) (l : List Byte) : State :=
  let n := 64 * ceilDiv l.length 64
  s.queueLines a (l ++ s.mramBytes (a + l.length) (n - l.length))

/-- A generation record, its CHECK at the end (R254). -/
def genRecord (gen state id base time : Nat) (dir : List Byte) : List Byte :=
  withCrc (leBytes 4 gen ++ leBytes 4 0x200000 ++ leBytes 1 state ++ leBytes 1 1 ++ leBytes 2 0
    ++ leBytes 4 id ++ leBytes 4 base ++ leBytes 4 0 ++ leBytes 8 time
    ++ dir ++ List.replicate (72 - dir.length) 0 ++ List.replicate 148 0)

/-- A tile record less its CHECK (R253). -/
def State.tileRecord (s : State) (t id : Nat) : List Byte :=
  let m : Sweep := tget (fun _ => {}) s.cal.measure t
  leBytes 1 t ++ leBytes 1 1 ++ leBytes 2 (bits (s.live (pTileRef + t)) 9 0) ++ leBytes 4 id
    ++ leBytes 4 s.frm.frame.toNat ++ leBytes 2 (m.median.getD 0xFFFF) ++ leBytes 2 m.resMax
    ++ leBytes 2 m.resRms ++ leBytes 1 (s.tile t).dacTrim.toNat ++ leBytes 1 0 ++ leBytes 4 m.valid
    ++ List.replicate 36 0

/-- A tile segment from the working copies (R265). -/
def State.workSegment (s : State) (t id : Nat) : List Byte :=
  let rows := fun (base : Nat) => (List.range 256).flatMap fun r => s.sramBytes (rowAddr base t r) 256
  withCrc (rows 0x600000 ++ packTrims ((rows 0x700000).map fun b => b.toNat % 64) ++ s.tileRecord t id)

/-- A tile segment of the active copy, its SWEEP_ID replaced (R265). -/
def State.copySegment (s : State) (c t id : Nat) : List Byte :=
  withCrc (s.mramBytes (segBase c t) 0x1C004 ++ leBytes 4 id ++ s.mramBytes (segBase c t + 0x1C008) 0x34)

/-- The source lines of a tile segment: working copies, or the active copy. -/
def State.segSource (s : State) (sel : Bool) (t : Nat) : List Nat :=
  match sel, s.cal.copy with
  | false, some c => linesOf (segBase c t) 0x1C040
  | _, _ => (List.range 256).flatMap fun r =>
      linesOf (rowAddr 0x600000 t r) 256 ++ linesOf (rowAddr 0x700000 t r) 256

/-- The tile segment that a build writes. -/
def State.newSegment (s : State) (sel : Bool) (t id : Nat) : List Byte :=
  match sel, s.cal.copy with
  | false, some c => s.copySegment c t id
  | _, _ => s.workSegment t id

/-- The lane part of a device record (R264): four bytes and whether they are valid. -/
def State.laneTrims (s : State) (l : Lane) : List Byte × Bool :=
  let x := s.lane l
  if x.everTrained then (leBytes 1 x.ctle ++ x.offsets.flatMap (leBytes 1), true)
  else match s.cal.copy with
    | some c => (s.mramBytes (devBase c + 20 + 4 * l.num) 4, bitOf (s.mramLe (devBase c + 18) 1) l.num)
    | none => (List.replicate 4 0, false)

/-- A device record (R255). -/
def State.deviceRecord (s : State) : List Byte :=
  let a := s.laneTrims .a
  let b := s.laneTrims .b
  withCrc ((List.range 4).flatMap (fun q => leBytes 4 (s.live (pLimpGains + q)))
    ++ leBytes 2 (s.live pLimpLevel) ++ leBytes 1 (ofFlags [a.2, b.2]) ++ leBytes 1 0 ++ a.1 ++ b.1
    ++ List.replicate 32 0)

/-- The entries of a map record: pending faults as CLASS 0 (R256). -/
def State.mapEntries (s : State) : List Nat :=
  (s.mapList.filter fun e => mapMasked e.2.2).map fun e =>
    e.1 + 2048 * e.2.1 + 2 ^ 20 * (if mapConf e.2.2 then e.2.2 else e.2.2 - e.2.2 % 8)

/-- A map record (R256). -/
def State.mapRecord (s : State) : List Byte :=
  withCrc (leBytes 4 s.mapEntries.length ++ s.mapEntries.flatMap (leBytes 4))

/-- The directory of a complete generation record (R254), from the inactive copy. -/
def State.directory (s : State) : List Byte :=
  let c := s.inactive
  (List.range 16).flatMap (fun t => leBytes 4 (s.segCheck c t)) ++ s.mramBytes (devBase c + 60) 4
    ++ leBytes 4 (s.mapCheck c)

/-! ### CAL_SWEEP step by step (R265, R266) -/

/-- The tiles of a build that are not checkpointed. -/
def State.tilesLeft (s : State) (id : Nat) : List Nat := (List.range 16).filter fun t => !s.tileDone id t

/-- The tile that a step of a CAL_SWEEP writes. -/
def State.sweepTile (s : State) (b : Job) (resume : Bool) (id : Nat) : Nat :=
  if resume then (s.tilesLeft id).headD 0 else b.step - 2

/-- A step of a job queues its writes and is in force when they have verified. A line that it writes only in part
is read first (R272, R277). -/
def State.jobWrites (s : State) (b : Job) (a : Nat) (l : List Byte) : State :=
  let r := s.readParts 7 a l.length
  if r.2 then (r.1.queueBytes a l).modJob b.jseq fun x => { x with writing := true }
  else r.1.endJob b stMemFault b.step true 0

/-- The step in which a CAL_SWEEP measures. -/
def sweepWait (resume : Bool) : Nat := if resume then 0 else 1

/-- One step of a CAL_SWEEP. -/
def State.calSweepStep (s : State) (b : Job) (tiles : Half) (resume : Bool) (id : Nat) : State :=
  if b.step = sweepWait resume then
    let s := { s with cal := { s.cal with phase := .off } }
    if b.steps ≤ b.step + 1 then s.endJob b stOk (b.step + 1) false 0
    else s.jobStep b
  else if b.step = 0 then
    let f := s.freeW
    let s := f.1
    s.jobWrites b (calBase s.inactive) (genRecord f.2.toNat 1 id
      (if s.cal.copy.isSome then s.cal.gen.toNat else 0) s.pwr.devtime.toNat [])
  else
    let t := s.sweepTile b resume id
    let l := s.segSource (bitOf tiles.toNat t) t
    let r := (s.abortMrams l).readLines 7 l
    if r.2.isSome then r.1.endJob b stMemFault b.step true 0
    else r.1.jobWrites b (segBase s.inactive t) (r.1.newSegment (bitOf tiles.toNat t) t id)

/-- The writes of a CAL_SWEEP step have verified. -/
def State.calSweepDone (s : State) (b : Job) (resume : Bool) : State :=
  if b.step = 0 ∧ !resume then ({ s with cal := { s.cal with phase := .armed } }).jobStep b
  else if b.steps ≤ b.step + 1 then s.endJob b stOk (b.step + 1) false 0
  else s.jobStep b

/-! ### CAL_COMMIT step by step (R267) -/

/-- The lines of the build that step 1 of a CAL_COMMIT checks. -/
def State.buildLines (s : State) : List Nat :=
  linesOf (calBase s.inactive) 256 ++ (List.range 16).flatMap fun t => linesOf (segBase s.inactive t) 0x1C040

/-- The build can be completed (R267 step 1). -/
def State.buildWhole (s : State) (expect : Word) : Bool :=
  let id := s.recId s.inactive
  s.building && (decide (expect = 0) || decide (expect.toNat = id))
    && decide (s.recBase s.inactive = if s.cal.copy.isSome then s.cal.gen.toNat else 0)
    && (List.range 16).all fun t => s.tileDone id t

/-- One step of a CAL_COMMIT. -/
def State.calCommitStep (s : State) (b : Job) (expect : Word) : State :=
  let c := s.inactive
  match b.step with
  | 0 =>
    let r := (s.abortMrams s.buildLines).readLines 7 s.buildLines
    if r.2.isSome then r.1.endJob b stMemFault 0 false 0
    else if !r.1.buildWhole expect then r.1.endJob b stWrongState 0 false 0
    else r.1.jobStep b
  | 1 => s.jobWrites b (devBase c) s.deviceRecord
  | 2 =>
    let r := s.readLines 7 (linesOf 0x900000 0x80000)
    if r.2.isSome then r.1.endJob b stMemFault 2 true 0
    else if 47086 < s.mapEntries.length then r.1.endJob b stWrongState 2 true 0
    else r.1.jobWrites b (mapBase c) r.1.mapRecord
  | _ =>
    let l := genRecord (s.recBase c + 1) 2 (s.recId c) (s.recBase c) s.pwr.devtime.toNat s.directory
    ((s.queueBytes (calBase c + 64) (l.drop 64)).queueBytes (calBase c) (l.take 64)).modJob b.jseq
      fun x => { x with writing := true }

/-- The writes of a CAL_COMMIT step have verified. -/
def State.calCommitDone (s : State) (b : Job) : State :=
  if b.step < 3 then s.jobStep b
  else
    let c := s.inactive
    ({ s with cal := { s.cal with
      copy := some c
      gen := w32 (s.recGen c) } }).endJob b stOk 4 false 0

/-- A CAL_COMMIT is in its step 4. -/
def inStepFour (b : Job) : Bool :=
  match b.kind with
  | .calCommit _ => decide (b.step = 3) && b.writing
  | _ => false

/-- CAL_ABORT and CAL_SWEEP wait until step 4 of a CAL_COMMIT has ended (R267). -/
def State.stepFour (s : State) (op : Nat) : Bool :=
  (decide (op = 0x0701) || decide (op = 0x0704)) && s.cmd.jobs.any inStepFour

/-- A CAL_SWEEP or a CAL_ABORT is served, or waits at the head of its ring. -/
def serveCal (op : Nat) (d : OpDef) (p : Pkt) (gap : Bool) (s : State) : State :=
  if s.stepFour op ∧ opPermitted op p.cls then s.putBack op p gap else serveOp op d p gap s

/-- A CAL_SWEEP or a CAL_COMMIT, the job if one runs. -/
def State.calJob (s : State) : Option Job :=
  s.cmd.jobs.find? fun b => match b.kind with
    | .calSweep _ _ _ => true
    | .calCommit _ => true
    | _ => false

/-! ### CAL_SWEEP -/

/-- The condition of R266 for RESUME. -/
def State.canResume (s : State) (id : Nat) : Bool :=
  s.building && decide (s.recId s.inactive = id)
    && decide (s.recBase s.inactive = if s.cal.copy.isSome then s.cal.gen.toNat else 0)

def calSweepDef : OpDef :=
  { jnl := jnlDurable
    len := fun p => decide (p.plen = 2)
    bad := fun p _ => need (decide (p.u16 16 ≠ 0) && decide (p.u16 18 ≤ 1)
      && (decide (p.u16 18 = 1) || decide (p.u32 20 = 0)))
    gate := fun p s => orElse9
      (stop (s.thm.inhibit || !s.flag pCalCtrl 1 || decide (s.diag.safe = 4)
        || (decide (p.u16 18 = 1) && !s.canResume (p.u32 20))) stWrongState)
      (stop s.calJob.isSome stBusy)
    run := fun j p s =>
      let tiles : Half := BitVec.ofNat 16 (p.u16 16)
      if p.u16 18 = 1 then
        let s := { s with cal := { s.cal with phase := .armed } }
        { s.startJob (.calSweep tiles true (w32 (p.u32 20))) 0x0701 p j (1 + (s.tilesLeft (p.u32 20)).length) with
          steps := 18
          begun := true }
      else s.startJob (.calSweep tiles false j) 0x0701 p j 18 }

def execCalSweep (p : Pkt) (s : State) : Host.Outcome State Fault Refusal :=
  .next (serveCal 0x0701 calSweepDef p false s)

/-! ### CAL_COMMIT -/

def calCommitDef : OpDef :=
  { jnl := jnlDurable
    len := fun p => decide (p.plen = 1)
    gate := fun _ s => orElse9 (mramGate s) (stop s.calJob.isSome stBusy)
    run := fun j p s => s.startJob (.calCommit (w32 (p.u32 16))) 0x0702 p j 4 }

def execCalCommit (p : Pkt) (s : State) : Host.Outcome State Fault Refusal :=
  .next (serveOp 0x0702 calCommitDef p false s)

/-! ### CAL_STATUS (R269) -/

/-- A tile passes. -/
def State.tilePasses (s : State) (t : Nat) : Bool :=
  let w := s.sweep t
  w.median.isSome && decide (w.resMax ≤ s.fld pQualTh 15 0) && decide (w.resRms ≤ s.fld pQualTh 31 16)

/-- Every eye of a scan meets EYE_GUARD. -/
def State.eyesOk (s : State) (h w : List Nat) : Bool :=
  h.all (fun x => decide (s.fld pEyeGuard 7 0 ≤ x)) && w.all fun x => decide (s.fld pEyeGuard 15 8 ≤ x)

/-- A lane passes. -/
def State.lanePasses (s : State) (l : Lane) : Bool :=
  let x := s.lane l
  !s.admits l || (decide (x.stage = .active) && s.eyesOk x.eyeH x.eyeW)

/-- The tile pass mask. -/
def State.passMask (s : State) : Nat := ofFlags ((List.range 16).map s.tilePasses)
/-- All admitted lanes pass. -/
def State.lanesPass (s : State) : Bool := s.lanePasses .a && s.lanePasses .b
/-- The engine passes. -/
def State.enginePasses (s : State) : Bool :=
  decide (s.passMask = 65535) && s.lanesPass && s.cal.copy.isSome

/-- The summary of CAL_STATUS. -/
def calSummary (s : State) : List Word :=
  [w32 (ofFlags [s.enginePasses, decide (s.passMask = 65535), s.lanesPass, s.cal.copy.isSome]
     + 65536 * s.passMask), w32 (s.prmRead pCalGen)]

/-- The lane figures of CAL_STATUS. -/
def calLane (s : State) (l : Lane) : List Word :=
  let x := s.lane l
  [halves (minOf (x.eyeH.headD 0) x.eyeH) (minOf (x.eyeW.headD 0) x.eyeW),
   w32 (x.ctle + 256 * stageCode x.stage + 65536 * b2n (s.lanePasses l))]

/-- The full figures of CAL_STATUS. -/
def calFull (s : State) : List Word :=
  let sweep := s.sweeping
  let step := match s.calJob with | some b => b.step | none => 0
  let id := match s.cal.buildId with | some i => i.toNat | none => 0
  let done := if s.cal.buildId.isSome then (List.range 16).filter fun t => s.tileDone id t else []
  [w32 (bits (s.prmRead pCalCopy) 1 0 + 256 * ofFlags [sweep, s.calJob.isSome && !sweep, s.cal.built,
      s.cal.buildId.isSome, s.flag pCalCtrl 0, s.enginePasses] + 65536 * step),
   w32 (s.prmRead pCalGen), w32 id, halves (ofBitList done) s.passMask, w32 (s.live pTrimMoves)]
    ++ (List.range 16).flatMap (fun t =>
      let w := s.sweep t
      [halves (w.median.getD 0xFFFF) w.resMax,
       w32 (w.resRms % 65536 + 65536 * (s.tile t).dacTrim.toNat + 2 ^ 24 * ((s.tile t).cmpOff.headD 32).toNat),
       w32 w.valid])
    ++ calLane s .a ++ calLane s .b

def calStatusDef : OpDef :=
  { jnl := jnlNone
    rlen := fun p => if bitOf (p.u32 16) 0 then 57 else 2
    len := fun p => decide (p.plen = 1)
    bad := fun p _ => need (decide (p.u32 16 ≤ 1))
    run := fun _ p s => okOut s (if bitOf (p.u32 16) 0 then calFull s else calSummary s) }

def execCalStatus (p : Pkt) (s : State) : Host.Outcome State Fault Refusal :=
  .next (serveOp 0x0703 calStatusDef p false s)

/-! ### CAL_ABORT -/

/-- A running store stops at the end of the line being written, with a status. A CAL_SWEEP with RESUME is in its
step 2 from the start (R268). -/
def State.stopStore (s : State) (b : Job) (status : Nat) : State :=
  let s := match s.mem.writes with
    | [] => s
    | w :: _ => if b.writing then
        { (s.writeMram w.addr w.bytes) with mem := { (s.writeMram w.addr w.bytes).mem with writes := [] } }
      else s
  let s := { s with cal := { s.cal with phase := match b.kind with | .calSweep _ _ _ => .off | _ => s.cal.phase } }
  let resumed := match b.kind with | .calSweep _ r _ => r | _ => false
  s.findBuild.endJob b status b.step (b.writing || decide (0 < b.step) || resumed) 0

/-- The build is discarded: STATE 0 in the inactive record; a line that cannot be read refuses it (R277). -/
def State.discardBuild (s : State) : State × Bool :=
  let a := calBase s.inactive
  let r := (s.abortMram a).readParts 7 (a + 8) 1
  if r.2 then ((r.1.setMram (a + 8) [0]).findBuild, true) else (r.1, false)

def calAbortDef : OpDef :=
  { rlen := fun _ => 1
    len := fun p => decide (p.plen = 1)
    bad := fun p _ => need (decide (p.u32 16 ≤ 1))
    gate := fun p s => if bitOf (p.u32 16) 0 then mramGate s else none
    run := fun _ p s =>
      let x := match s.calJob with
        | some b => (s.stopStore b stAbortHost, (match b.kind with | .calSweep _ _ _ => 1 | _ => 2) + 256 * b.step)
        | none => (s, 0)
      let present := s.cal.buildId.isSome || x.1.building
      if bitOf (p.u32 16) 0 && present then
        let d := x.1.discardBuild
        if d.2 then okOut d.1 [w32 (x.2 + 2 ^ 24)]
        else { s := d.1, status := stMemFault, step := 0, partly := decide (x.2 ≠ 0) }
      else okOut x.1 [w32 x.2] }

def execCalAbort (p : Pkt) (s : State) : Host.Outcome State Fault Refusal :=
  .next (serveCal 0x0704 calAbortDef p false s)

/-! ### FLUX_WRITE -/

/-- W and H of a FLUX_WRITE. -/
def fluxSize (p : Pkt) : Nat := p.u16 20 * p.u16 22

/-- The address of a row of a FLUX_WRITE. -/
def fluxRow (p : Pkt) (r : Nat) : Nat := 0x600000 + 2048 * (p.u16 18 + r) + p.u16 16

/-- The lines that the rows of a FLUX_WRITE write in part are read before any byte is written (R272, R277). -/
def State.readRows (s : State) (p : Pkt) : State × Bool :=
  let rows := List.range (p.u16 22)
  if rows.any fun r => s.partPoisoned (fluxRow p r) (p.u16 20) then (s, false)
  else rows.foldl (fun x r =>
    let y := x.1.readParts 5 (fluxRow p r) (p.u16 20)
    (y.1, x.2 && y.2)) (s, true)

def fluxWriteDef : OpDef :=
  { len := fun p => decide (p.plen = 4 + (fluxSize p + 3) / 4)
    bad := fun p _ => need (decide (1 ≤ p.u16 20) && decide (p.u16 16 + p.u16 20 ≤ 2048)
      && decide (1 ≤ p.u16 22) && decide (p.u16 18 + p.u16 22 ≤ 512) && decide (fluxSize p ≤ 4064)
      && decide (p.u32 24 ≤ 1) && p.zero (32 + fluxSize p) ((4 - fluxSize p % 4) % 4))
    gate := fun _ s => stop s.sweeping stBusy
    run := fun _ p s =>
      let d := p.bytes 32 (fluxSize p)
      let rows := List.range (p.u16 22)
      if bitOf (p.u32 24) 0 ∧ crc32 d ≠ p.u32 28 then { s := s, status := stCheckFail, step := 0 }
      else
        let x := s.readRows p
        if !x.2 then { s := x.1, status := stMemFault, step := 0 }
        else okOut (rows.foldl (fun s r =>
          s.writeSram (fluxRow p r) ((d.drop (p.u16 20 * r)).take (p.u16 20))) x.1) [] }

def execFluxWrite (p : Pkt) (s : State) : Host.Outcome State Fault Refusal :=
  .next (serveOp 0x0705 fluxWriteDef p false s)

end Sys2Proof.Machine
end

