-- ==== Sys2Proof/Machine/Integrity.lean ====
section
/-! DEFINITION. Memory integrity (12_memory_integrity.md): Talus, repairs, verified MRAM writes and
sector remaps, the check-value units, and the opcodes 0x0801 to 0x0806. -/

namespace Sys2Proof.Machine

/-- A request for a CVU cuts its slice short (13_self_test.md R293). -/
def State.abortCvu (s : State) (u : Nat) : State :=
  s.abortSlice fun ty tg => decide (ty = 7) && decide (tg = u)

/-! ### Check-value units (R285, R286) -/

/-- A unit's settings. -/
def State.cvu (s : State) (u : Nat) : Cvu := tget (fun _ => {}) s.mem.cvu u
/-- Change a unit's settings. -/
def State.setCvu (s : State) (u : Nat) (c : Cvu) : State :=
  { s with mem := { s.mem with cvu := tput (fun _ => {}) s.mem.cvu u c } }

/-- The CRC that a unit computes over bytes. -/
def Cvu.crc (c : Cvu) (l : List Byte) : Nat :=
  crcOf c.width c.poly.toNat c.init.toNat c.refIn c.refOut c.xorOut.toNat l

/-- The state of a CVU refuses a command that names it (R286, R301). -/
def State.cvuGate (s : State) (u : Nat) : Option (Nat × List Word) :=
  orElse9 (stop (s.marked (19 + u)) stWrongState) (stop (s.cvu u).run.isSome stBusy)

/-- ASCII "123456789". -/
def nineDigits : List Byte := (List.range 9).map fun i => BitVec.ofNat 8 (0x31 + i)

/-! ### MEM_READ -/

/-- MEM_READ may read a range, or it is marked LOCKED (R34). -/
def readLocked (a n : Nat) : Bool := match memRange a n with | some r => !r.2.2.1 | none => false
/-- MEM_WRITE may write a range, or it is marked LOCKED (R34). -/
def writeLocked (a n : Nat) : Bool := match memRange a n with | some r => !r.2.2.2 | none => false

/-- FLAGS of MEM_READ and MEM_WRITE: the CVU is used. -/
def usesCvu (p : Pkt) : Bool := bitOf (p.u16 22) 0
/-- FLAGS of MEM_READ and MEM_WRITE: the CVU. -/
def cvuOf (p : Pkt) : Nat := bits (p.u16 22) 2 1

/-- The layout rules that MEM_READ and MEM_WRITE share. -/
def memFields (p : Pkt) : Bool :=
  decide (p.u32 16 % 4 = 0) && decide (p.u16 20 % 4 = 0) && decide (4 ≤ p.u16 20)
    && decide (p.u16 20 ≤ 4064) && decide (p.u16 22 ≤ 7)

def memReadDef : OpDef :=
  { jnl := jnlNone
    rlen := fun p => p.u16 20 / 4 + b2n (usesCvu p)
    len := fun p => decide (p.plen = 2)
    bad := fun p _ => need (memFields p && (memRange (p.u32 16) (p.u16 20)).isSome)
    gate := fun p s => orElse9 (if usesCvu p then s.cvuGate (cvuOf p) else none)
      (stop (readLocked (p.u32 16) (p.u16 20)) stLocked)
    run := fun _ p s =>
      let lines := linesOf (p.u32 16) (p.u16 20)
      let s := if usesCvu p then s.abortCvu (cvuOf p) else s
      let r := (s.abortMrams lines).readLines 5 lines
      match r.2 with
      | some a => { s := r.1, status := stMemFault, results := [w32 a], step := 0 }
      | none =>
        let d := r.1.bytesAt (p.u32 16) (p.u16 20)
        okOut r.1 (wordsOf d ++ if usesCvu p then [w32 ((r.1.cvu (cvuOf p)).crc d)] else []) }

def execMemRead (p : Pkt) (ups : Upsets) (s : State) : Host.Outcome State Fault Refusal :=
  .next (serveOp 0x0801 memReadDef p false (s.arise ups))

/-! ### MEM_WRITE -/

/-- The bytes that a MEM_WRITE writes: with STRIP not the check. -/
def writeLen (p : Pkt) : Nat := p.u16 20 - (if usesCvu p then 4 else 0)

def memWriteDef : OpDef :=
  { len := fun p => decide (p.plen = 2 + p.u16 20 / 4)
    bad := fun p _ => need (memFields p && (!usesCvu p || decide (8 ≤ p.u16 20))
      && (memRange (p.u32 16) (writeLen p)).isSome)
    gate := fun p s => orElse9 (if usesCvu p then s.cvuGate (cvuOf p) else none)
      (stop (writeLocked (p.u32 16) (writeLen p)) stLocked)
    run := fun _ p s =>
      let s := if usesCvu p then s.abortCvu (cvuOf p) else s
      let d := p.bytes 24 (writeLen p)
      if usesCvu p ∧ (s.cvu (cvuOf p)).crc d ≠ p.u32 (24 + writeLen p) then
        { s := s, status := stCheckFail, step := 0 }
      else
        let r := s.readParts 5 (p.u32 16) (writeLen p)
        if r.2 then okOut (r.1.writeSram (p.u32 16) d) [] else { s := r.1, status := stMemFault, step := 0 } }

def execMemWrite (p : Pkt) (s : State) : Host.Outcome State Fault Refusal :=
  .next (serveOp 0x0802 memWriteDef p false s)

/-! ### CVU_CONFIG -/

/-- The settings that a CVU_CONFIG carries. -/
def cvuSettings (p : Pkt) : Cvu :=
  { width := p.u8 17
    poly := w32 (p.u32 20)
    init := w32 (p.u32 24)
    refIn := bitOf (p.u16 18) 0
    refOut := bitOf (p.u16 18) 1
    xorOut := w32 (p.u32 28) }

def cvuConfigDef : OpDef :=
  { rlen := fun _ => 1
    len := fun p => decide (p.plen = 4)
    bad := fun p _ => need (decide (p.u8 16 ≤ 3) && decide (1 ≤ p.u8 17) && decide (p.u8 17 ≤ 32)
      && decide (p.u16 18 ≤ 3) && decide (p.u32 20 < 2 ^ p.u8 17) && decide (p.u32 24 < 2 ^ p.u8 17)
      && decide (p.u32 28 < 2 ^ p.u8 17))
    gate := fun p s => s.cvuGate (p.u8 16)
    run := fun _ p s =>
      okOut ((s.abortCvu (p.u8 16)).setCvu (p.u8 16) (cvuSettings p)) [w32 ((cvuSettings p).crc nineDigits)] }

def execCvuConfig (p : Pkt) (s : State) : Host.Outcome State Fault Refusal :=
  .next (serveOp 0x0803 cvuConfigDef p false s)

/-! ### CVU_RUN and CVU_DONE -/

/-- The run that a CVU_RUN asks for. -/
def cvuRunOf (p : Pkt) : CvuRun :=
  { mode := p.u8 17
    elem := p.u16 18
    addr := p.u32 20
    stride := p.u32 24
    count := p.u32 28
    expect := w32 (p.u32 32)
    dest := p.u32 36 }

/-- The bytes of the whole span of a run (R286). -/
def CvuRun.span (r : CvuRun) : Nat := (r.count - 1) * r.stride + r.elem

/-- The fields of a run are in their ranges. -/
def CvuRun.ok (r : CvuRun) : Bool :=
  decide (r.mode ≤ 2) && decide (1 ≤ r.elem) && decide (r.elem ≤ 4096) && decide (r.elem ≤ r.stride)
    && decide (r.stride ≤ 0x200000) && decide (1 ≤ r.count) && decide (r.count ≤ 2 ^ 24)
    && (decide (r.mode = 1) || decide (r.expect = 0)) && (decide (r.mode = 2) || decide (r.dest = 0))
    && (memRange r.addr r.span).isSome
    && (decide (r.mode ≠ 2) || (decide (r.dest % 4 = 0) && (memRange r.dest 4).isSome))

def cvuRunDef : OpDef :=
  { len := fun p => decide (p.plen = 6)
    bad := fun p _ => need (decide (p.u8 16 ≤ 3) && (cvuRunOf p).ok)
    gate := fun p s => orElse9 (s.cvuGate (p.u8 16))
      (stop (readLocked (cvuRunOf p).addr (cvuRunOf p).span
        || (decide (p.u8 17 = 2) && writeLocked (p.u32 36) 4)) stLocked)
    run := fun j p s =>
      let s := s.abortCvu (p.u8 16)
      let s := s.setCvu (p.u8 16) { s.cvu (p.u8 16) with run := some (cvuRunOf p) }
      s.startJob (.cvuRun (p.u8 16)) 0x0804 p j 1 }

def execCvuRun (p : Pkt) (s : State) : Host.Outcome State Fault Refusal :=
  .next (serveOp 0x0804 cvuRunDef p false s)

/-- What a run reads, in order: each line with the bytes that the run takes of it. -/
def CvuRun.pieces (r : CvuRun) : List (Nat × Nat) :=
  (List.range r.count).flatMap fun i =>
    let a := r.addr + i * r.stride
    (linesOf a r.elem).map fun l => (l, min (l + 64) (a + r.elem) - max l a)

/-- Read pieces up to the first that fails: the bytes read, and whether all were read. -/
def State.readPieces (s : State) (n : Nat) : List (Nat × Nat) → State × Nat × Bool
  | [] => (s, n, true)
  | (a, k) :: r =>
    let x := (s.abortMram a).readLine 6 a
    if x.2 then x.1.readPieces (n + k) r else (x.1, n, false)

/-- The bytes of a run's elements. -/
def State.runBytes (s : State) (r : CvuRun) : List Byte :=
  (List.range r.count).flatMap fun i => s.bytesAt (r.addr + i * r.stride) r.elem

/-- The job of a unit's run. -/
def State.cvuJob (s : State) (u : Nat) : Option Job :=
  s.cmd.jobs.find? fun b => match b.kind with | .cvuRun k => decide (k = u) | _ => false

/-- A run ends: the unit is free, CVU_DONE and then CMD_DONE (R289, R345). -/
def State.endRun (s : State) (u : Nat) (b : Job) (status result bytes : Nat) : State :=
  let s := s.setCvu u { s.cvu u with run := none }
  let s := s.evt 0x0806 (if status = stOk then 0 else 1) b.pkt.ring u status result bytes
  s.endJob b status (if status = stOk then 1 else 0) false 0

/-- A run is complete (R286). On a line that fails, no result is stated: a free value (DESIGN CHOICE, log 3). -/
def State.finishRun (s : State) (u : Nat) (b : Job) (r : CvuRun) : State :=
  let x := s.readPieces 0 r.pieces
  if !x.2.2 then
    let f := x.1.freeW
    f.1.endRun u b stMemFault f.2.toNat x.2.1
  else
    let v := (x.1.cvu u).crc (x.1.runBytes r)
    if r.mode = 1 ∧ v ≠ r.expect.toNat then x.1.endRun u b stCheckFail v x.2.1
    else if r.mode = 2 then
      let y := x.1.readParts 6 r.dest 4
      if y.2 then (y.1.writeSram r.dest (leBytes 4 v)).endRun u b stOk v x.2.1
      else y.1.endRun u b stMemFault v x.2.1
    else x.1.endRun u b stOk v x.2.1

/-- A unit's run reaches its end; at CRIT no run goes on (R313). -/
def State.cvuDone (s : State) (u : Nat) : State :=
  match (s.cvu u).run, s.cvuJob u with
  | some r, some b => if s.thm.jInhibit then s else s.finishRun u b r
  | _, _ => s

/-! ### ERRLOG_READ -/

/-- The four words of an error-table entry. -/
def errWords (e : ErrEntry) : List Word :=
  [w32 e.addr, w32 (e.region + 256 * e.kind + 65536 * e.req + 2 ^ 24 * e.source), w32 e.count, w32 e.time]

/-- The results of ERRLOG_READ. -/
def errlogWords (s : State) : List Word :=
  [w32 (s.live pCorrCount), w32 (s.live pUncCount), w32 s.poisonedWord, w32 (s.live pRepairCount),
   w32 (s.live pRepairFail), w32 (s.live pLogLost), halves s.mem.repairQ.length s.mem.table.length, 0]
    ++ s.mem.table.flatMap errWords ++ List.replicate (4 * (32 - s.mem.table.length)) 0

def errlogReadDef : OpDef :=
  { jnl := jnlNone
    rlen := fun _ => 136
    len := fun p => decide (p.plen = 1)
    bad := fun p _ => need (decide (p.u32 16 ≤ 1))
    run := fun _ p s =>
      let s := s.ringsWritten
      okOut (if bitOf (p.u32 16) 0 then { s with mem := { s.mem with table := [] } } else s) (errlogWords s) }

def execErrlogRead (p : Pkt) (s : State) : Host.Outcome State Fault Refusal :=
  .next (serveOp 0x0805 errlogReadDef p false s)

/-! ### Talus (R281 to R283) -/

/-- Talus runs: in ACTIVE and IDLE, from step 7 of R31 on, below CRIT (R281, R287, R313). -/
def State.talusOn (s : State) : Bool :=
  (decide (s.pwr.state = .active) || decide (s.pwr.state = .idle))
    && (decide (s.pwr.boot = .firstSeam) || decide (s.pwr.boot = .up)) && !s.thm.jInhibit
    && !s.quiesced 4

/-- The cursor after a line of MRAM, as an offset: spare sectors in use are passed over, and after the
last it wraps to 0 (R281). -/
def State.nextMram (s : State) (off : Nat) : Nat :=
  let n := off + 64
  if n < 0x780000 ∨ (n % 65536 ≠ 0 ∧ n < 0x800000) then n
  else match (List.range 8).find? fun i =>
      decide ((n - 0x780000) / 65536 ≤ i) && decide (tget (fun _ => 0) s.nvm.spares i ≠ 1) with
    | some k => 0x780000 + 65536 * k
    | none => 0

/-- An MRAM line that Talus corrected by RETRY is rewritten, once per lap; held while MRAM writes are
inhibited (R282). -/
def State.refresh (s : State) (a : Nat) : State :=
  if !s.flag pScrubCtrl 2 ∨ s.mem.refreshed.contains a then s
  else
    let s := { s with mem := { s.mem with refreshed := sortIns a s.mem.refreshed } }
    if s.thm.inhibit then { s with mem := { s.mem with toRefresh := s.mem.toRefresh ++ [a] } }
    else s.bump pMramRefresh 1

/-- A lap ends: `k` is 0 for SRAM and 1 for MRAM (R281). -/
def State.lapEnd (s : State) (k ms limit : Nat) : State :=
  if limit < ms then s.evt 0x0805 1 0xFF k 0 ms (s.live pLapWarn) else s

/-- The SRAM cursor reads one line. -/
def State.talusSram (s : State) (o : LineRead) : State :=
  let a := s.mem.sramPos
  let s := ((s.arise [(a, o)]).readLine 0 a).1
  if a + 64 < 0xB80000 then { s with mem := { s.mem with sramPos := a + 64 } }
  else
    let ms := s.since s.mem.sramStart / 1000000
    ({ s with mem := { s.mem with sramPos := 0, sramLap := ms, sramStart := s.clk } }).lapEnd 0 ms (s.fld pLapWarn 15 0)

/-- The MRAM cursor reads one line. -/
def State.talusMram (s : State) (o : LineRead) : State :=
  let a := 0x10000000 + s.mem.mramPos
  let poisoned := s.mem.poison.contains a
  let s := (((s.arise [(a, o)]).abortMram a).readLine 0 a).1
  let s := if o = .retry ∧ !poisoned then s.refresh a else s
  let n := s.nextMram s.mem.mramPos
  if n ≠ 0 then { s with mem := { s.mem with mramPos := n } }
  else
    let ms := s.since s.mem.mramStart / 1000000
    ({ s with mem := { s.mem with mramPos := 0, mramLap := ms, mramStart := s.clk, refreshed := [] } }).lapEnd 1 ms
      (100 * s.fld pLapWarn 31 16)

def execTalusRead (dt : Nat) (mram : Bool) (outcome : LineRead) (s : State) :
    Host.Outcome State Fault Refusal :=
  let s := s.elapse dt
  .next (if !s.talusOn then s
    else if mram then (if s.flag pScrubCtrl 1 then s.talusMram outcome else s)
    else if s.flag pScrubCtrl 0 then s.talusSram outcome else s)

/-! ### Repairs (R278) -/

/-- A line is repaired (R278): written whole, its entry KIND 4, REPAIRED, and MAP_REBUILT for a
status-map line. -/
def State.repairGood (s : State) (a : Nat) : State :=
  let s := (s.abortMram a).restoreLine a
  let s := { s with mem := { s.mem with
    poison := s.mem.poison.filter fun x => x ≠ a
    table := s.mem.table.map fun (e : ErrEntry) =>
        if e.addr = a then { e with kind := 4, source := s.sourceOf a } else e } }
  let s := (s.bump pRepairCount 1).evt 0x0803 0 0xFF (regionOf a) (s.sourceOf a) a 0
  if regionOf a = 6 then
    (s.evt 0x0807 1 0xFF (mapLineTile a) (s.recordIn a).length a s.frm.frame.toNat).degrade
  else s

/-- A repair finds no usable source (R278, R283). -/
def State.repairBad (s : State) (a : Nat) : State := (s.bump pRepairFail 1).reportLost a 0 1

/-- The line at the front of the repair queue is dealt with; MRAM repair writes are held while MRAM
writes are inhibited (R282). -/
def State.repairFront (s : State) (sourceGood : Bool) : State :=
  match s.mem.repairQ with
  | [] => s
  | a :: r =>
    if 0x10000000 ≤ a ∧ s.thm.inhibit then s
    else
      let s := { s with mem := { s.mem with repairQ := r } }
      if sourceGood && s.sourceStands a then
        let v := if 0x10000000 ≤ a then s.verifyLine a else (s, true)
        if v.2 then v.1.repairGood a else v.1.repairBad a
      else s.repairBad a

def execRepaired (dt : Nat) (sourceGood : Bool) (s : State) : Host.Outcome State Fault Refusal :=
  let s := s.elapse dt
  .next (if s.talusOn then s.repairFront sourceGood else s)

/-! ### Verified MRAM writes and remaps (R284) -/

/-- The job whose step waits for MRAM writes. -/
def State.writer (s : State) : Option Job := s.cmd.jobs.find? fun b => b.writing

/-- The writes of a job's step have all verified. -/
def State.writesDone (s : State) (b : Job) : State :=
  match b.kind with
  | .calSweep _ resume _ => s.calSweepDone b resume
  | .calCommit _ => s.calCommitDone b
  | _ => s.jobStep b

/-- No spare sector is free: the command that wrote the line ends (R284). -/
def State.writeLost (s : State) (w : LineWrite) : State :=
  let s := ({ s with mem := { s.mem with writes := [] } }).writeFails w.addr
  match s.writer with
  | some b =>
    let s := match b.kind with
      | .calSweep _ _ _ => { s with cal := { s.cal with phase := .off } }
      | _ => s
    s.endJob b stNvmFault b.step true 0
  | none => s

/-- A line write has verified: the step whose last it was is in force. Of a build, the record says what stands. -/
def State.lineStands (s : State) (w : LineWrite) (r : List LineWrite) : State :=
  let s := s.writeMram w.addr w.bytes
  let s := { s with mem := { s.mem with writes := r } }
  let t := match r, s.writer with
    | [], some b => s.writesDone b
    | _, _ => s
  if w.addr < 0x10400000 ∧ (r = [] ∨ w.addr < calBase s.inactive + 256) then t.findBuild else t

/-- The MRAM line write in progress completes: verified, retried, or its sector remapped. -/
def State.lineWritten (s : State) (verified : Bool) : State :=
  match s.mem.writes with
  | [] => s
  | w :: r =>
    let s := s.abortMram w.addr
    if verified then s.lineStands w r
    else if w.fails < 2 then
      { s with mem := { s.mem with writes := { w with fails := w.fails + 1 } :: r } }
    else match s.freeSpare 0 with
      | some k => ({ s with mem := { s.mem with writes := { w with fails := 0 } :: r } }).remapSector w.addr k
      | none => s.writeLost w

/-! ### SCRUB_STATUS -/

/-- The logical sector that a spare sector stands for. -/
def State.spareMap (s : State) (k : Nat) : Nat :=
  match (List.range 120).find? fun n => decide (tget (fun _ => none) s.nvm.remap n = some k) with
  | some n => n
  | none => 0xFFFF

/-- The results of SCRUB_STATUS. -/
def scrubWords (s : State) : List Word :=
  [w32 s.mem.sramPos, w32 (0x10000000 + s.mem.mramPos), w32 s.mem.sramLap, w32 s.mem.mramLap,
   w32 (s.live pMramRefresh),
   w32 (s.spareFree + 256 * ofFlags [s.talusOn && s.flag pScrubCtrl 0, s.talusOn && s.flag pScrubCtrl 1, s.thm.inhibit])]
    ++ wordsOf ((List.range 8).flatMap fun k =>
      leBytes 2 (s.spareMap k) ++ leBytes 1 (tget (fun _ => 0) s.nvm.spares k))

def scrubStatusDef : OpDef :=
  { jnl := jnlNone
    rlen := fun _ => 12
    len := fun p => decide (p.plen = 0)
    run := fun _ _ s => okOut s (scrubWords s) }

def execScrubStatus (p : Pkt) (s : State) : Host.Outcome State Fault Refusal :=
  .next (serveOp 0x0806 scrubStatusDef p false s)

end Sys2Proof.Machine
end

