-- ==== Sys2Proof/Machine/Pixel.lean ====
section
/-! DEFINITION. Pixel drive (03_pixel_drive.md, and R20 to R26 of 01_architecture.md): composition
passes from start token to ready codes, loads, slot starts, the limp loads (R117), the end of a notch,
scan faults and Spur (13_self_test.md R296 to R298), and the opcodes 0x0401 and 0x0402. -/

namespace Sys2Proof.Machine

/-! ### Sub-frames to come -/

/-- What is known of a sub-frame to come: whether it lies in the next frame, its index in its frame,
its frame's timing and its length. -/
structure Coming where
  next   : Bool
  index  : Nat
  timing : Timing
  pwmPs  : Nat
  deriving DecidableEq, Repr

/-- The sub-frame `d` after the one in progress (R185, R195 to R197). -/
def State.coming (s : State) (d : Nat) : Coming :=
  let k := s.frm.index + d
  if k < s.frameSubs then
    { next := false
      index := k
      timing := s.frm.timing
      pwmPs := match s.frm.change with
        | some c => if c.inBridge ∧ c.oldSubs ≤ k then c.bridgePs else timingPwmPs s.frm.timing
        | none => timingPwmPs s.frm.timing }
  else
    let i := k - s.frameSubs
    let t := s.timingNext.getD s.frm.timing
    { next := true
      index := i
      timing := t
      pwmPs := match s.bridgeNext with
        | some c => if c.oldSubs ≤ i then c.bridgePs else timingPwmPs t
        | none => timingPwmPs t }

/-- A pair spans sub-frames of different lengths or timings (R26). -/
def pairBroken (a b : Coming) : Bool := decide (a.timing ≠ b.timing) || decide (a.pwmPs ≠ b.pwmPs)

/-- The plan instant of the coming seam lies after the clear of the last limp cause, so that passes
that serve its sub-frame 0 compose fallback (R241). -/
def State.limpEnds (s : State) : Bool :=
  decide (s.frm.ret = some .limpToFallback) && (s.frm.retArmed || decide (s.clk + 40000 < s.nextLatchClk))

/-- Composed codes of a tile are loaded in a sub-frame to come (R73, R240, R241): from the seam that
ends limp or lights the array, its own sub-frame 0 included (R31, R334). -/
def State.composes (s : State) (t : Nat) (c : Coming) : Bool :=
  s.frm.running && decide ((s.tile t).loader ≠ .held)
    && ((!s.pwr.pixOff && decide (s.diag.safe < 3)) || (c.next && s.lightDue)
      || (c.next && !s.pwr.pixOff && decide (s.diag.safe = 3) && s.limpEnds))

/-- A pass for the seam's frame composes in fallback: as the return scheduled for the seam leaves the
engine (R193, R241). -/
def State.provFallback (s : State) : Bool :=
  match s.frm.ret with
  | some .toNormal => (match s.frm.seam with | some x => !x.ret | none => false)
  | some .limpToFallback => true
  | _ => decide (s.diag.safe = 2) || s.lightDue

/-! ### A pass begins (R20, R24, R95, R105, R130) -/

/-- A context line is read by the rasteriser at a pass start: an object that cannot be read times out,
an overlay that cannot be read is left out (R276). -/
def State.readCtx (s : State) (a : Nat) : State :=
  let r := s.readLine 8 a
  if r.2 then r.1
  else if a < 0x20002000 then
    let n := (a - 0x20000000) / 64
    if (r.1.ctx n).active then r.1.ctxTimeout n (r.1.ctx n) else r.1
  else
    let m := (a - 0x20002000) / 64
    { r.1 with comp := { r.1.comp with
      ovlLost := if r.1.comp.ovlLost.contains m then r.1.comp.ovlLost else sortIns m r.1.comp.ovlLost } }

/-- The context register file is read whole at a pass start (R274, R276). -/
def State.readContexts (s : State) : State :=
  (s.troubledIn 0x20000000 0x2800).foldl (fun s a => s.readCtx a) s

/-- No load of composed codes is due in these sub-frames of a row-group; those past are forgotten. -/
def State.excuse (s : State) (g : Nat) (subs : List Nat) : State :=
  s.modRg g fun r => { r with skips := subs ++ r.skips.filter fun k => decide (s.frm.sub ≤ k) && !subs.contains k }

/-- A row-group's pass begins, `d` sub-frames before the one it serves. -/
def State.beginPass (s : State) (tok : Token) : State :=
  let g := tok.g
  let t := rgTile g
  let sub := tok.sub
  let s := s.readContexts
  let d := sub - s.frm.sub
  let c := s.coming d
  let c2 := s.coming (d + 1)
  let paired := timingPaired c.timing
  let only := paired && pairBroken c c2
  let fb := fun (x : Coming) => if x.next then s.provFallback else decide (s.diag.safe = 2)
  let gen := fun (x : Coming) => if x.next ∧ s.frm.seam.isNone then some s.frm.gen else none
  let plan := s.planFor sub
  let slot := plan.slots.getD g (homeSlot g)
  let slot2 := (s.planFor (sub + 1)).slots.getD g (homeSlot g)
  let start2 := tok.tS + (c.pwmPs + slotPs c2.pwmPs slot2) / 1000 - slotPs c.pwmPs slot / 1000
  let p : Pass :=
    { g := g
      sub := sub
      index := c.index
      slot := slot
      paired := paired
      index2 := c2.index
      slot2 := slot2
      serves := s.composes t c
      serves2 := paired && !only && s.composes t c2
      fallback := fb c
      fallback2 := fb c2
      prov := c.next
      prov2 := c2.next
      gen := gen c
      gen2 := gen c2
      subs := timingN c.timing
      pwmPs := c.pwmPs
      tS := tok.tS
      tS2 := start2
      slotClk := tok.slotClk
      tag := (if s.pwr.boot = .firstSeam then c.index else s.pix.notch.toNat + d) % 128
      dx := s.comp.shiftX
      dy := s.comp.shiftY
      ctx := s.activeCtx
      force := s.shd.force
      crest := (List.range 8).map fun k => (s.crest k).c
      lostOvl := s.comp.ovlLost }
  { s with comp := { s.comp with passes := tins s.comp.passes t p } }

/-- A row-group's start token (R20, R24): its pass starts now, or waits for the tile's previous pass. -/
def State.startToken (s : State) (g : Nat) : State :=
  let t := rgTile g
  let sub := max ((s.rg g).token + 1) s.frm.sub
  if !s.frm.running ∨ s.frm.sub + 1 < sub then s
  else
    let s := s.modRg g fun r => { r with token := sub }
    let c := s.coming (sub - s.frm.sub)
    let c2 := s.coming (sub - s.frm.sub + 1)
    let paired := timingPaired c.timing
    if paired ∧ c.index % 2 ≠ rgIdx g % 2 then s
    else if !(s.composes t c || (paired && s.composes t c2)) || (s.rg g).skips.contains sub then
      s.excuse g (if paired then [sub, sub + 1] else [sub])
    else
      let s := if paired && pairBroken c c2 then (s.excuse g [sub + 1]).bump pSeamRepeat 1 else s
      let tok : Token :=
        { g := g, sub := sub, tS := s.pwr.devtime.toNat + 26000, slotClk := s.clk + 26000 }
      if s.comp.passes.any fun e => e.1 = t then
        { s with comp := { s.comp with tokens := s.comp.tokens ++ [tok] } }
      else s.beginPass tok

def execStartToken (dt : Nat) (g : Fin 256) (ups : Upsets) (s : State) : Host.Outcome State Fault Refusal :=
  .next (((s.elapse dt).arise ups).startToken g)

/-- The composer of a tile is free: its next waiting pass begins (R20). -/
def State.nextToken (s : State) (t : Nat) : State :=
  match s.comp.tokens.find? fun k => rgTile k.g = t with
  | none => s
  | some k =>
    let s := { s with comp := { s.comp with tokens := s.comp.tokens.filter fun x => x ≠ k } }
    if s.comp.passes.any fun e => e.1 = t then s else s.beginPass k

/-! ### What a pass reads (R112, R273 to R275) -/

/-- The texels that the filter of R94 reads at a shifted position. -/
def sceneTaps (u v : Int) : List (Nat × Nat) :=
  let i := (2 * u - 3) / 8
  let j := (2 * v - 3) / 8
  let cx := fun (i : Int) => (clampI 0 511 i).toNat
  let cy := fun (j : Int) => (clampI 0 127 j).toNat
  [(cx i, cy j), (cx (i + 1), cy j), (cx i, cy (j + 1)), (cx (i + 1), cy (j + 1))]

/-- One sub-frame of a pass: whether it reads the seam set to come, whether it is a fallback pass. -/
structure Half2 where
  prov : Bool
  fb   : Bool
  deriving DecidableEq, Repr

/-- The lines that a pixel reads in a pass. -/
def State.pixelLines (s : State) (ps : Pass) (h : Half2) (x y : Nat) : List Nat :=
  let win := s.passPrm h.prov pWinCtrl
  let i := imageOf win x y
  let ctrl := s.passPrm h.prov pCompCtrl
  let taps := sceneTaps ((i.1 : Int) - ps.dx) ((i.2 : Int) - ps.dy)
  let scene := fun (n : Nat) => taps.map fun q => lineOf (texelAddr n q.1 q.2)
  let cfg := s.passPrm h.prov pMixCfg
  let base :=
    if h.fb then scene 0
    else if bitOf ctrl 0 then scene (bits cfg 3 0) ++ scene (bits cfg 7 4)
    else [lineOf (s.passBase h.prov + 4096 * i.2 + 2 * i.1)]
  let winX := signed 32 (s.passPrm h.prov pWinX)
  let winY := signed 32 (s.passPrm h.prov pWinY)
  let ovl :=
    if h.fb ∨ !bitOf ctrl 2 then []
    else (List.range 32).filterMap fun m =>
      let o := s.passOvl h.prov m
      if ovlEn o && !ps.lostOvl.contains m then
        (ovlTexel o winX winY i.1 i.2).map fun q => lineOf (symAddr o q)
      else none
  let flux := if bitOf ctrl 4 then [lineOf (0x600000 + 2048 * y + x)] else []
  let near := if bitOf ctrl 3 then (neighbours x y).map fun n => mapLine n.1 n.2 else []
  base ++ ovl ++ flux ++ [mapLine x y] ++ near

/-- The sub-frames that a pass still serves. -/
def passHalves (ps : Pass) : List Half2 :=
  (if ps.serves then [{ prov := ps.prov, fb := ps.fallback }] else [])
    ++ (if ps.serves2 then [{ prov := ps.prov2, fb := ps.fallback2 }] else [])

/-- The cell numbers of a row-group. -/
def allCells : List Nat := List.range 4096

/-- The troubled lines that a pass reads. -/
def State.passUpsets (s : State) (ps : Pass) : List Nat :=
  s.troubled.filter fun a => allCells.any fun n =>
    (passHalves ps).any fun h => (s.pixelLines ps h (rgPixel ps.g n).1 (rgPixel ps.g n).2).contains a

/-- The region that SUBSTITUTE names (R119). -/
def substRegion (a : Nat) : Nat :=
  if a < 0x400000 then 0 else if a < 0x600000 then 2 else if a < 0x700000 then 3
  else if a < 0x900000 then 1 else 4

/-- A line that a pass could not read is substituted: counted, and at most one SUBSTITUTE per region
and frame (R112). -/
def State.substitute (s : State) (tile a : Nat) : State :=
  let r := substRegion a
  if s.comp.substSeen.contains r then s.bump pSubstCount 1
  else
    let s := s.substEvt r tile a
    { s with comp := { s.comp with substSeen := sortIns r s.comp.substSeen } }

/-- A line that a pass could not read is substituted. A frame buffer line is replaced by that of the other
buffer, which is read in its turn: the lines that failed are answered (R112). -/
def State.passLost (s : State) (tile a : Nat) : State × List Nat :=
  let s := s.substitute tile a
  match otherBuf a with
  | some b =>
    let x := s.readLine 1 b
    (x.1, if x.2 then [a] else [a, b])
  | none => (s, [a])

/-- The reads of a pass: the state, and the lines that it substitutes. -/
def State.passReads (s : State) (ps : Pass) : State × List Nat :=
  (s.passUpsets ps).foldl (fun r a =>
    let x := r.1.readLine 1 a
    if x.2 then (x.1, r.2)
    else
      let y := x.1.passLost (rgTile ps.g) a
      (y.1, r.2 ++ y.2)) (s, [])

/-! ### Stages 1 to 7 of one pixel (R88, R76, R77, R68, R69) -/

/-- What stages 1 to 5 leave of a pixel: its components, SH, whether it is masked, and whether stage
4 raised it. -/
structure Staged where
  c      : Nat × Nat × Nat
  sh     : Bool
  mask   : Bool
  raised : Bool
  deriving DecidableEq, Repr

/-- The intensity of a pixel (R89). -/
def Staged.sum (p : Staged) : Nat := p.c.1 + p.c.2.1 + p.c.2.2

/-- Stages 1 to 5 of the n-th cell of a pass (R88, R113). -/
def State.stages (s : State) (ps : Pass) (h : Half2) (boxes : List (ObjCtx × Box)) (bad : List Nat)
    (cells : List PixCode) (n : Nat) : Staged :=
  let q := rgPixel ps.g n
  let i := imageOf (s.passPrm h.prov pWinCtrl) q.1 q.2
  let ctrl := s.passPrm h.prov pCompCtrl
  let mask := s.passMasked bad cells q.1 q.2 n
  let b := if h.fb then s.baseFallback h.prov ps.dx ps.dy bad i.1 i.2
    else s.baseNormal h.prov ps.dx ps.dy bad i.1 i.2
  let c2 := if h.fb then (b, 0, 0) else s.overlays ps h.prov bad i.1 i.2 (b, 0, 0)
  let lim := if h.fb then 65535
    else ceilingOf (s.passPrm h.prov pShdCtrl) boxes (forceOf ps.force (rgTile ps.g)) i.1 i.2
  let c3 := ceil3 lim c2
  let sh := decide (lim < 65535)
  let nf := if bitOf ctrl 3 && !sh && !mask then s.failedNear ps.newFaults bad q.1 q.2 else 0
  let c4 := if 0 < nf then raise3 nf (s.passPrm h.prov pCompStep) (s.passPrm h.prov pCompMax) c3 else c3
  let c5 := if bitOf ctrl 4 then flux3 (s.fluxAt bad q.1 q.2) c4 else c4
  { c := c5, sh := sh, mask := mask, raised := decide (c4 ≠ c3) }

/-- `f` bits in reverse order (R77). -/
def bitRev : Nat → Nat → Nat
  | 0, _ => 0
  | f + 1, j => j % 2 * 2 ^ f + bitRev f (j / 2)

/-- The number of bits of N. -/
def log2N (n : Nat) : Nat := if n = 4 then 2 else if n = 8 then 3 else if n = 16 then 4 else 5

/-- The code that dither gives (R76, R77): `ctrl` is DRIVE_CTRL, `k` the sub-frame's index. -/
def ditherCode (ctrl n k x y i : Nat) : Nat :=
  if bitOf ctrl 0 then
    let e := (i * 1023 * n + 32767) / 65535
    let j := if bitOf ctrl 1 then (k + x + 2 * y) % n else k % n
    if bitRev (log2N n) j < e % n then e / n + 1 else e / n
  else (i * 1023 + 32767) / 65535

/-- The steps of a pulse of code c that a move of `m` slots earlier cuts short (R68). -/
def cutSteps (pwmPs m c : Nat) : Nat := c - (1024 - ceilDiv (m * pwmPs) (64 * stepPs pwmPs))

/-- A class factor applied to the components (R149), summed. -/
def scaled (f : Nat × Nat × Nat) (c : Nat × Nat × Nat) : Nat :=
  c.1 * f.1 / 4096 + c.2.1 * f.2.1 / 4096 + c.2.2 * f.2.2 / 4096

/-- The code of a pixel before the running check, and the steps lost to saturation (R69). -/
def pixelCode (ctrl : Nat) (f : Nat × Nat × Nat) (subs k pwmPs m : Nat) (old : PixCode) (x y : Nat)
    (p : Staged) : Nat × Nat :=
  if p.mask then (0, 0)
  else
    let c := ditherCode ctrl subs k x y (scaled f p.c)
    let l := if bitOf ctrl 3 && !p.sh then cutSteps pwmPs m old.code.toNat else 0
    (min 1023 (c + l), c + l - min 1023 (c + l))

/-- The current weight of a cell: 224 + TRIM, or 256 while TRIM_EN is 0 (R65). -/
def State.weight (s : State) (ctrl x y : Nat) : Nat := if bitOf ctrl 2 then 224 + s.trim x y else 256

/-- The profile of codes by weight: bin b sums the weights of codes above 16 b (R141). -/
def profileOf (l : List (Nat × Nat)) : List Nat :=
  (List.range 64).map fun b => sumOf ((l.filter fun e => decide (16 * b < e.1)).map (·.2))

/-! ### A pass completes -/

/-- The boxes of a pass in one of its sub-frames (R125 to R127). -/
def State.passBoxes (s : State) (ps : Pass) (h : Half2) (second : Bool) : List (ObjCtx × Box) :=
  let adj := signed 32 (s.passPrm h.prov pEmitAdj)
  let te := emissionUs (if second then ps.tS2 else ps.tS) ps.pwmPs (if second then ps.slot2 else ps.slot) adj
  let winX := signed 32 (s.passPrm h.prov pWinX)
  let winY := signed 32 (s.passPrm h.prov pWinY)
  (ps.ctx.map fun e => (e.2, boxOf e.2 te (bitOf (s.passPrm h.prov pShdCtrl) 1) winX winY)).filter
    fun e => !e.2.off

/-- Stages 1 to 5 of a whole pass. -/
def State.passStages (s : State) (ps : Pass) (h : Half2) (second : Bool) (bad : List Nat) : List Staged :=
  let boxes := s.passBoxes ps h second
  let cells := (s.rg ps.g).list
  allCells.map fun n => s.stages ps h boxes bad cells n

/-- The profile and the sums that a pass gives Saddle (R141). -/
def State.passProfile (s : State) (g ctrl : Nat) (l : List Staged) : State :=
  let ws := allCells.map fun n => s.weight ctrl (rgPixel g n).1 (rgPixel g n).2
  let lit := (l.zip ws).filter fun e => !e.1.mask
  let sum := fun (f : Staged → Nat) => sumOf (lit.map fun e => e.2 * f e.1)
  s.modProfile g fun x => { x with
    demand := profileOf (lit.map fun e => (e.1.sum * 1023 / 65535, e.2))
    sumB := sum fun p => p.c.1
    sumO := sum fun p => p.c.2.1
    sumP := sum fun p => p.c.2.2
    total := sumOf (lit.map (·.2)) }

/-- What a row-group's cells hold, and the slot they hold it from, before a sub-frame (R68): the codes on
their way to the sub-frame before, else those loaded. -/
def State.codesBefore (s : State) (g sub : Nat) : List PixCode × Nat :=
  let r := s.rg g
  match (r.ready ++ r.pending.toList).find? fun y => y.sub + 1 = sub with
  | some y => (y.codes, y.slot)
  | none => (r.list, s.prevSlot g)

/-- The codes of one sub-frame of a pass, with the carry (R69) and the steps lost, each scaled by the factor q
of the running check (R150): one check is made for a pass, on the first sub-frame that it serves (R141), and
`q` is that factor for the second. Answers the factor too. -/
def State.passCodes (s : State) (ps : Pass) (h : Half2) (second : Bool) (q : Option Nat) (l : List Staged) :
    State × List PixCode × Nat :=
  let ctrl := s.passPrm h.prov pDriveCtrl
  let sub := if second then ps.sub + 1 else ps.sub
  let k := if second then ps.index2 else ps.index
  let f := classFactors ((s.planFor sub).level ps.g)
  let before := s.codesBefore ps.g sub
  let m := before.2 - (if second then ps.slot2 else ps.slot)
  let raw := (allCells.zip (l.zip before.1)).map fun e =>
    pixelCode ctrl f ps.subs k ps.pwmPs m e.2.2 (rgPixel ps.g e.1).1 (rgPixel ps.g e.1).2 e.2.1
  let ws := allCells.map fun n => s.weight ctrl (rgPixel ps.g n).1 (rgPixel ps.g n).2
  let ha := profileOf ((raw.zip ws).map fun e => (e.1.1, e.2))
  let lost := sumOf (raw.map (·.2))
  let r := match q with
    | some q => (s, q)
    | none => s.runningCheck ps.g sub (if second then ps.slot2 else ps.slot) ha
  let s := (r.1.bump pTruncLost lost).modTile (rgTile ps.g) fun t => { t with trunc := satAdd 32 t.trunc lost }
  (s, (raw.zip l).map fun e => { code := BitVec.ofNat 10 (e.1.1 * r.2 / 4096), mask := e.2.mask }, r.2)

/-- The least slack of a tile since the last DRIVE_STATUS (R21): the ready instant is now. -/
def State.recordSlack (s : State) (t slotClk : Nat) : State :=
  let v := 1000 * (slotClk - 400 - s.clk) / 25600
  s.modTile t fun x => { x with slackMin := min x.slackMin v }

/-- The codes of a pass's first sub-frame stand ready: the state, and the factor of its running check. -/
def State.readyFirst (s : State) (ps : Pass) (l : List Staged) : State × Option Nat :=
  if ps.serves then
    let old := (s.profile ps.g).committed
    let r := s.passCodes ps { prov := ps.prov, fb := ps.fallback } false none l
    let y : Ready :=
      { sub := ps.sub, codes := r.2.1, tag := ps.tag, fallback := ps.fallback, gen := ps.gen, slot := ps.slot,
        prior := old }
    (r.1.modRg ps.g fun x => { x with ready := x.ready ++ [y] }, some r.2.2)
  else (s, none)

/-- The codes of a pass's second sub-frame stand in the tile's code buffer (R24, R72); `q` is the factor of
the check that the first has had. -/
def State.readySecond (s : State) (ps : Pass) (q : Option Nat) (l : List Staged) : State :=
  if ps.serves2 then
    let old := (s.profile ps.g).committed
    let r := s.passCodes ps { prov := ps.prov2, fb := ps.fallback2 } true q l
    let y : Ready :=
      { sub := ps.sub + 1, codes := r.2.1, tag := ps.tag, fallback := ps.fallback2, gen := ps.gen2,
        slot := ps.slot2, prior := old }
    r.1.modRg ps.g fun x => { x with ready := x.ready ++ [y] }
  else s

/-- A tile's composition pass ends. It gives Saddle the profile of the first sub-frame that it serves
(R141); one that has been cut from every sub-frame was not complete and gives none (R144, R193). COMP_PIX
counts the pixels that stage 4 raised, those of the first sub-frame of a pair in the sub-frame in which the
pass ends (DESIGN CHOICE: R118 does not say in which sub-frame a pass that serves two counts; log 39). -/
def State.passDone (s : State) (t : Nat) (ps : Pass) : State :=
  let rd := s.passReads ps
  let s := rd.1
  let h1 : Half2 := { prov := ps.prov, fb := ps.fallback }
  let h2 : Half2 := { prov := ps.prov2, fb := ps.fallback2 }
  let l1 := s.passStages ps h1 false rd.2
  let l2 := if ps.serves2 then s.passStages ps h2 true rd.2 else []
  let s := { s with comp := { s.comp with
    compPixNow := s.comp.compPixNow + (l1.filter fun (p : Staged) => p.raised).length } }
  let s := if ps.serves then s.passProfile ps.g (s.passPrm h1.prov pDriveCtrl) l1
    else if ps.serves2 then s.passProfile ps.g (s.passPrm h2.prov pDriveCtrl) l2 else s
  let r := (s.recordSlack t ps.slotClk).readyFirst ps l1
  let s := r.1.readySecond ps r.2 l2
  { s with comp := { s.comp with passes := tdel s.comp.passes t } }

def execPassComplete (dt : Nat) (t : Fin 16) (ups : Upsets) (s : State) : Host.Outcome State Fault Refusal :=
  let s := (s.elapse dt).arise ups
  match s.comp.passes.find? fun e => e.1 = t.val with
  | none => .next s
  | some e => .next ((s.passDone t e.2).nextToken t)

/-! ### The limp loader and held tiles (R116, R117, R18) -/

/-- A row-group is loaded by the limp loader and has not been. -/
def State.limpDue (s : State) (g : Nat) : Bool :=
  let l := s.comp.limp
  !s.pwr.pixOff && decide (l.stage = .loading) && bitOf l.tiles (rgTile g) && !l.loaded.contains g && !l.failed.contains (rgTile g)

/-- The reset of the pixel pipelines ends: its cause is cleared (R239 bit 12, R355). -/
def State.pipeResetEnd (s : State) : State :=
  if s.hasCause 12 && !s.jrn.pipeBusy && decide (s.comp.limp.stage = .done) then s.clearCauses 4096 else s

/-- The limp loader ends once every row-group that it loads is loaded or its tile has failed:
LIMP_DONE (R117). -/
def State.limpDone (s : State) : State :=
  let l := s.comp.limp
  let left := (List.range 256).any fun g => bitOf l.tiles (rgTile g) && !l.loaded.contains g
    && !l.failed.contains (rgTile g)
  if l.stage = .loading ∧ !left then
    let tiles := ofFlags ((List.range 16).map fun t => bitOf l.tiles t && !l.failed.contains t)
    let s := s.evt 0x0304 2 0xFF tiles l.level.toNat l.substLines 0
    { s with comp := { s.comp with limp := { s.comp.limp with stage := .done } } }.pipeResetEnd
  else s

/-- A tile's write port cannot be used: it keeps its codes, LIMP_FAIL once (R116, R244). -/
def State.limpFail (s : State) (t : Nat) : State :=
  if s.comp.limp.failed.contains t then s
  else
    let s := (s.latchFault 10).evt 0x0305 3 0xFF t 0 0 0
    { s with comp := { s.comp with limp := { s.comp.limp with failed := sortIns t s.comp.limp.failed } } }.limpDone

/-- The limp loader is asked for one tile more, alone (R116): it latches its settings and reads again. -/
def State.limpTile (s : State) (t : Nat) : State :=
  if s.diag.safe = 3 then s
  else
    let old := if s.comp.limp.tiles = 65535 then 0
      else match s.comp.limp.stage with
        | .done => 0
        | _ => s.comp.limp.tiles
    let s := s.limpRequest
    { s with comp := { s.comp with limp := { s.comp.limp with tiles := setBit old t } } }

/-! ### Scan faults and Spur (R244, R297, R298) -/

/-- The tile that Spur serves now, or 0xFF. -/
def State.spurTile (s : State) : Nat :=
  match s.bist.spur with
  | .testing t => t
  | .serving t => t
  | _ => 0xFF

/-- Spur's state changes, with SPUR_MOVED (13_self_test.md). -/
def State.spurMove (s : State) (n : SpurState) (why : Nat) : State :=
  let old := s.spurTile
  let s := { s with bist := { s.bist with spur := n, move := none, movedIn := false } }
  s.evt 0x0905 1 0xFF s.spurTile old why s.frm.frame.toNat

/-- A tile's loader changes. -/
def State.setLoader (s : State) (t : Nat) (l : Loader) : State := s.modTile t fun x => { x with loader := l }

/-- A self-test target is marked unusable (R302): its mark, and STATE 5 in its result. -/
def State.markTest (s : State) (type target bit : Nat) : State :=
  (s.mark bit).modTest type target fun r => { r with state := 5 }

/-- The parity failures of a tile's row-groups are forgotten: another engine loads it. -/
def State.freshLoads (s : State) (t : Nat) : State :=
  (tileGroups t).foldl (fun s g => s.modRg g fun r => { r with parityFails := 0 }) s

/-- Spur takes a tile whose own engine has failed (R298). -/
def State.spurTakes (s : State) (t g : Nat) : State :=
  let s := ((s.markTest 2 t t).latchFault 2).freshLoads t
  let s := (s.setLoader t .spur).evt 0x0604 2 0xFF t 0 g s.frm.frame.toNat
  (s.spurMove (.serving t) 1).degrade

/-- A tile holds limp codes (R18, R298). -/
def State.holdTile (s : State) (t g : Nat) : State :=
  let s := ((s.markTest 2 t t).latchFault 3).freshLoads t
  let s := (s.setLoader t .held).evt 0x0604 3 0xFF t 1 g s.frm.frame.toNat
  (s.addCause 13).limpTile t

/-- The scan check finds a fault in the own engine of a tile (R298). -/
def State.ownFault (s : State) (t g : Nat) : State :=
  match s.bist.spur with
  | .idle => s.spurTakes t g
  | .underTest => (s.abortSlice fun ty _ => decide (ty = 2)).spurTakes t g
  | .testing u =>
    let s := s.abortSlice fun ty _ => decide (ty = 2)
    ((s.setLoader u .own).freshLoads u).spurTakes t g
  | _ => s.holdTile t g

/-- A fault in Spur's own loads (R298). -/
def State.spurFault (s : State) (t g : Nat) : State :=
  let test := match s.bist.spur with | .testing _ => true | _ => false
  let s := s.abortSlice fun ty _ => decide (ty = 2)
  let s := ((s.markTest 2 16 16).latchFault 2).spurMove .unusable 1
  if test then (s.setLoader t .own).freshLoads t else s.holdTile t g

/-- Two failed loads in a row of one row-group make a scan engine fault (R244). -/
def State.scanFault (s : State) (t g : Nat) : State :=
  match (s.tile t).loader with
  | .own => s.ownFault t g
  | .spur => s.spurFault t g
  | _ => s

/-! ### The load deadline (R22, R70, R234) -/

/-- The sub-frame that a row-group's next slot start lies in: each sub-frame has one (R67). -/
def State.dueSub (s : State) (g : Nat) : Nat := max ((s.rg g).started + 1) s.frm.sub

/-- The codes that stand ready for a row-group's sub-frame. -/
def readyFor (r : RowGroup) (sub : Nat) : Option Ready := r.ready.find? fun y => y.sub = sub

/-- The codes of a sub-frame and of those before it are used up. -/
def usedUp (sub : Nat) (l : List Ready) : List Ready := l.filter fun y => decide (sub < y.sub)

/-- The mask bits that a load writes: those of the pass, and those of the entries now (R234). -/
def State.loadMasks (s : State) (g : Nat) (l : List PixCode) : List PixCode :=
  (allCells.zip l).map fun e =>
    let q := rgPixel g e.1
    if !s.mem.poison.contains (mapLine q.1 q.2) && mapMasked (s.mapAt q.1 q.2) then
      { e.2 with mask := true }
    else e.2

/-- PENDING is written, or the row parity mismatches: the row-group repeats, its committed profile that of
before (R70, R150, R244; DEDUCED, log 23). -/
def State.loadPending (s : State) (g : Nat) (x : Ready) (parityBad : Bool) : State :=
  let s := s.modRg g fun r => { r with ready := usedUp x.sub r.ready }
  if parityBad then
    let s := ((s.modRg g fun r => { r with parityFails := r.parityFails + 1 }).uncommit g x).commitRepeat g x.sub
    if 2 ≤ (s.rg g).parityFails then s.scanFault (rgTile g) g else s
  else
    s.modRg g fun r => { r with
      parityFails := 0
      pending := some { x with codes := s.loadMasks g x.codes } }

/-- The late pass of a row-group is abandoned, and the composer is free (R22). -/
def State.abandon (s : State) (g sub : Nat) : State :=
  let t := rgTile g
  let mine := s.comp.passes.any fun e => decide (e.1 = t) && decide (e.2.g = g) && decide (e.2.sub ≤ sub)
  let s := { s with comp := { s.comp with
    tokens := s.comp.tokens.filter fun k => decide (k.g ≠ g) || decide (sub < k.sub)
    passes := if mine then tdel s.comp.passes t else s.comp.passes } }
  if mine then s.nextToken t else s

/-- A row-group is late (R22, R87): SLACK at most once per tile and frame. -/
def State.late (s : State) (g sub : Nat) : State :=
  let t := rgTile g
  let c := s.coming (sub - s.frm.sub)
  let first := !(s.tile t).slackRaised
  let s := (s.bump pLateRg 1).modTile t fun x => { x with
    late := satAdd 16 x.late 1
    slackMin := 0
    slackRaised := true }
  if first then
    s.evt 0x0401 1 0xFF t g (s.frm.frame.toNat + b2n c.next) (c.index % 256)
  else s

/-- The limp loader writes PENDING of a row-group (R73). -/
def State.limpPending (s : State) (g sub : Nat) : State :=
  s.modRg g fun r => { r with pending := (some {
      sub := sub
      codes := tget (fun _ => []) s.comp.limp.codes g
      slot := r.slot.getD (homeSlot g) } : Option Ready) }

/-- The load deadline of a row-group. In limp no composed codes are loaded (R73). -/
def State.deadline (s : State) (g : Nat) (parityBad : Bool) : State :=
  let t := rgTile g
  let sub := s.dueSub g
  if s.limpDue g then (if parityBad then s.limpFail t else s.limpPending g sub)
  else if s.pixDark && !((s.coming (sub - s.frm.sub)).next && s.lightDue) then s.commitDark g sub
  else if s.diag.safe = 3 ∧ !((s.coming (sub - s.frm.sub)).next && s.limpEnds) then s.abandon g sub
  else match readyFor (s.rg g) sub with
    | some x =>
      if (s.tile t).loader = .held then (s.uncommit g x).commitRepeat g sub else s.loadPending g x parityBad
    | none =>
      let s := s.abandon g sub
      if (s.rg g).skips.contains sub || decide ((s.tile t).loader = .held) then s.commitRepeat g sub
      else (s.late g sub).commitRepeat g sub

def execLoadDeadline (dt : Nat) (g : Fin 256) (parityBad : Bool) (s : State) : Host.Outcome State Fault Refusal :=
  let s := s.elapse dt
  .next (if s.frm.running then s.deadline g parityBad else s)

/-! ### The slot start (R67, R70, R73) -/

/-- The transfer strobe: PENDING becomes CODE and MASK. -/
def State.transfer (s : State) (g : Nat) (x : Ready) : State :=
  let t := rgTile g
  let s := s.modRg g fun r => { r with
    cells := x.codes
    slot := some x.slot
    pending := none }
  let s := if x.fallback ∧ s.comp.fbCheck.running ∧ !s.comp.fbCheck.loaded.contains g then
      { s with comp := { s.comp with fbCheck := { s.comp.fbCheck with loaded := g :: s.comp.fbCheck.loaded } } }
    else s
  if s.frm.index = 0 then
    { s with frm := { s.frm with freeze := tmod (fun _ => {}) s.frm.freeze t fun (f : Freeze) =>
      { f with loads := f.loads ++ [(g, x)] } } }
  else s

/-- The limp codes of a row-group are transferred (R73). -/
def State.limpTransfer (s : State) (g : Nat) (x : Ready) : State :=
  let s := s.modRg g fun r => { r with cells := x.codes, pending := none }
  { s with comp := { s.comp with limp := { s.comp.limp with loaded := g :: s.comp.limp.loaded } } }.limpDone

/-- The step counter of a row-group restarts (R67). -/
def State.restart (s : State) (g : Nat) : State :=
  s.modRg g fun r => { r with
    started := s.frm.sub
    startClk := s.clk
    before := r.cells
    beforeClk := r.startClk
    token := max r.token s.frm.sub
    ready := usedUp s.frm.sub r.ready }

/-- The slot start of a row-group: its step counter restarts. -/
def State.slotStart (s : State) (g : Nat) : State :=
  let s := s.restart g
  let home := homeSlot g
  if s.pixDark then
    s.modRg g fun r => { r with
      cells := []
      pending := none
      slot := some (if s.diag.safe = 3 then limpSlot g else (s.planFor s.frm.sub).slots.getD g home) }
  else
    let s := if s.diag.safe = 3 then s.modRg g fun r => { r with slot := some (limpSlot g) } else s
    if s.limpDue g then
      match (s.rg g).pending with
      | some x => if x.sub = s.frm.sub then s.limpTransfer g x else s
      | none => s
    else if s.diag.safe = 3 then s
    else match (s.rg g).pending with
      | some x => if x.sub = s.frm.sub then s.transfer g x else s.modRg g fun r => { r with pending := none }
      | none => if (s.rg g).slot.isNone then s.modRg g fun r => { r with slot := some home } else s

def execSlotStart (dt : Nat) (g : Fin 256) (s : State) : Host.Outcome State Fault Refusal :=
  let s := s.elapse dt
  .next (if s.frm.running then s.slotStart g else s)

/-! ### The notch end (R75, R80 to R82, R95, R152, R338) -/

/-- ALLOW of VFB_CTRL. -/
def State.vfbAllow (s : State) : Nat := s.fld pVfbCtrl 31 24

/-- The compliance count of the sub-frame just ended (R80), and COMPLIANCE (R82). -/
def State.compliance (s : State) : State :=
  let l := s.pix.fNow
  let f := l.length
  let s := s.bump pCompRg f
  let s := l.foldl (fun s g => s.modTile (rgTile g) fun t => { t with compSf := satAdd 32 t.compSf 1 }) s
  let atMin := decide (s.pix.vfb.toNat = s.fld pVfbLimits 7 0)
  let above := decide (s.vfbAllow < f)
  let run := if above && atMin then s.pix.compRun + 1 else 0
  let raise := decide (16 ≤ run) && !s.pix.compDone
  let s := { s with pix := { s.pix with
    fLast := f
    fNow := []
    compRun := run
    compDone := above && (s.pix.compDone || raise) } }
  if raise then s.evt 0x0402 1 0xFF f s.pix.vfb.toNat (s.live pCompRg) 0 else s

/-- One update of the VFB loop with F (R81). -/
def State.vfbLoop (s : State) (f : Nat) : State :=
  let lo := s.fld pVfbLimits 7 0
  let hi := s.fld pVfbLimits 15 8
  let code := s.pix.vfb.toNat
  if s.vfbAllow < f then
    { s with pix := { s.pix with vfb := BitVec.ofNat 8 (max (code - s.fld pVfbCtrl 19 16) lo), quiet := 0 } }
  else if s.fld pVfbCtrl 15 8 ≤ s.pix.quiet + 1 then
    { s with pix := { s.pix with vfb := BitVec.ofNat 8 (min (code + 1) hi), quiet := 0 } }
  else { s with pix := { s.pix with quiet := s.pix.quiet + 1 } }

/-- VFB_CODE at a notch end (R81, R420): the 16 sub-frames after a trip count down, the one in which it fell
as the first (DESIGN CHOICE: R81 does not say whether that one counts; log 39). -/
def State.vfbTick (s : State) : State :=
  if s.pix.wasForced then
    { s with pix := { s.pix with forced := s.pix.forced - 1 } }.vfbRelease
  else if s.flag pVfbCtrl 0 then s.vfbLoop s.pix.fLast
  else s

/-- The stress integrals of a sub-frame (R338): lit ns, and nA x ns; in limp, ISENSE / 16 (DEDUCED, log 25). -/
def State.stressTick (s : State) (measured : List Nat) : State :=
  let lit := (s.pwmPs - 4000000) / 1000
  let limp := decide (s.diag.safe = 3)
  let sum := fun (t : Nat) =>
    if limp then sumOf measured * 62500 / 64
    else sumOf (s.sad.cur.tileWindows t) * 15625 / maUnit
  { s with pwr := (List.range 16).foldl (fun (p : Pwr) t =>
      if (s.tile t).dac = .off ∨ sum t = 0 then p
      else { p with
        lit := tmod (fun _ => 0) p.lit t (· + lit)
        charge := tmod (fun _ => 0) p.charge t (· + sum t * lit) }) s.pwr }

/-- The next sub-frame begins, and the notch row index advances: it is 0 when the sub-frame of the first
seam begins (R75, R85; DEDUCED, log 25). A limp loader whose codes are ready loads in it (R117). -/
def State.nextSub (s : State) : State :=
  { s with
    comp := { s.comp with
      compPix := s.comp.compPixNow
      compPixNow := 0
      limp := if s.comp.limp.stage = .ready then { s.comp.limp with stage := .loading } else s.comp.limp }
    pix := { s.pix with notch := if s.pwr.boot = .firstSeam then s.pix.notch else s.pix.notch + 1 }
    frm := { s.frm with
      sub := s.frm.sub + 1
      index := s.frm.index + 1
      litEnd := s.litEndNow
      subStart := s.clk } }

/-- The notch ends: the counters resume and the next sub-frame begins. Before the first seam there is
no notch: the PTB only plans (R85; DEDUCED, log 25). -/
def State.notchEnd (s : State) (measured : List Nat) : State :=
  if s.pwr.boot = .firstSeam then s.nextPlan.nextSub
  else
    let s := s.compliance.vfbTick
    (((s.stressTick measured).kUpdate measured).nextPlan.bendTick).nextSub

def execNotchEnd (dt : Nat) (measured : List Nat) (s : State) : Host.Outcome State Fault Refusal :=
  let s := s.elapse dt
  .next (if !s.frm.running then s
    else if measured.length = 64 then s.notchEnd measured else s)

/-! ### TILE_REF_SET -/

/-- The tiles that a TILE_REF_SET names. -/
def refTiles (p : Pkt) : List Nat := bitList (p.u16 16) 16

/-- CODE of a tile. -/
def refCode (p : Pkt) (t : Nat) : Nat := p.u16 (20 + 2 * t)

def tileRefSetDef : OpDef :=
  { rlen := fun _ => 1
    words := fun _ _ _ => [0]
    len := fun p => decide (p.plen = 9)
    bad := fun p _ => if decide (p.u16 16 ≠ 0) && decide (p.u16 18 ≤ 1)
      && ((List.range 16).all fun t =>
        if bitOf (p.u16 16) t then decide (127 ≤ refCode p t) && decide (refCode p t ≤ 1023)
        else decide (refCode p t = 0)) then none else some [0]
    gate := fun _ s => if s.sweeping then some (stBusy, [0]) else none
    run := fun _ p s =>
      okOut (s.writeEntries ((refTiles p).map fun t => (pTileRef + t, refCode p t)) (bitOf (p.u16 18) 0))
        [w32 (p.u16 16)] }

def execTileRefSet (p : Pkt) (s : State) : Host.Outcome State Fault Refusal :=
  .next (serveOp 0x0401 tileRefSetDef p false s)

/-! ### DRIVE_STATUS -/

/-- The record of a tile. -/
def driveTile (s : State) (t : Nat) : List Word :=
  let x := s.tile t
  let loader := if s.loaderCode t = 3 then 3 else s.loaderCode t
  [halves (bits (s.live (pTileRef + t)) 9 0) x.slackMin, halves x.late loader, w32 x.compSf, w32 x.trunc]

/-- The results of DRIVE_STATUS. -/
def driveWords (s : State) : List Word :=
  let t := s.frm.timing
  [w32 (timingN t + 256 * b2n s.paired + 65536 * s.pix.notch.toNat), w32 (stepPs s.pwmPs),
   halves s.pix.vfb.toNat s.pix.fLast, w32 (s.live pLateRg)]
    ++ (List.range 16).flatMap (driveTile s)

def driveStatusDef : OpDef :=
  { jnl := jnlNone
    rlen := fun _ => 68
    len := fun p => decide (p.plen = 1)
    bad := fun p _ => need (decide (p.u32 16 ≤ 1))
    run := fun _ p s =>
      let c := bitOf (p.u32 16) 0
      okOut (s.allTiles fun t => { t with
        slackMin := 0xFFFF
        late := if c then 0 else t.late
        compSf := if c then 0 else t.compSf
        trunc := if c then 0 else t.trunc }) (driveWords s) }

def execDriveStatus (p : Pkt) (s : State) : Host.Outcome State Fault Refusal :=
  .next (serveOp 0x0402 driveStatusDef p false s)

end Sys2Proof.Machine
end

