-- ==== Sys2Proof/Machine/Link.lean ====
section
/-! DEFINITION. The Plokam Link (07_plokam_link.md) above its blocks: the stages of bring-up, leaving ACTIVE, adaptation and eyes, sleep of each direction, and the opcodes 0x0D01 to
0x0D04. -/

namespace Sys2Proof.Machine

/-! ### Lanes -/

/-- A lane carries (R174, R178). -/
def State.carries (s : State) (l : Lane) : Bool :=
  let x := s.lane l
  decide (x.stage = .active) && decide (x.fwd = .l0) && s.admits l && !x.retrainReq && !s.pwr.linkOff

/-- CARRY. -/
def State.carryMask (s : State) : Nat := ofFlags [s.carries .a, s.carries .b]

/-- A lane that runs: its PHY is on, the mode admits it, and the logic is up (R173). -/
def State.laneRuns (s : State) (l : Lane) : Bool :=
  (s.lane l).phyOn && s.admits l && s.logicUp && !s.pwr.linkOff

/-- RETRAIN (R183). -/
def State.retrainEvt (s : State) (l : Lane) (kind what : Nat) : State :=
  s.evt 0x0D04 0 0xFF l.num kind what (if what = 0 then 0 else s.since (s.lane l).retrainAt / 1000)

/-- What the link was building is lost with the lane that alone carried it (R172, R41). -/
def State.linkCut (s : State) : State :=
  let s := if s.link.cmd.isSome then s.bump pCrcDropsLink 1 else s
  let s := if s.link.line.isSome then s.bump pLinesBad 1 else s
  { s with link := { s.link with cmd := none, line := none, recent := [], lastBseq := none } }

/-- A lane with its bring-up undone: what TRAIN found and the eyes are kept. -/
def laneIdle (x : LaneSt) : LaneSt :=
  { x with
    stage := .detect
    fwd := .l0
    ret := .l0
    term := false
    tries := 0
    activeSince := none
    rxReady := false
    hostReady := 0
    retReady := false
    retTrain := false
    retAsked := false
    fresh := true
    preFwd := false
    preRet := false
    capsRx := false
    capsTx := false
    hostFlags := 0
    validRun := 0
    badWindow := []
    bseq := none
    lagRun := 0
    lowScans := [0, 0, 0]
    inService := false
    reseatReq := false
    reseatLeft := 0
    reseatTries := 0
    retrainReq := false }

/-- The next backoff (R170). -/
def nextBackoff (b : Nat) : Nat := if b = 0 then 1 else min 64 (2 * b)

/-- A lane leaves for DETECT (R168, R170, R172): LANE_DOWN with its cause. -/
def State.laneDown (s : State) (l : Lane) (cause : Nat) : State :=
  let x := s.lane l
  let s := if x.inService ∨ x.retrainReq then s.retrainEvt l 0 2 else s
  let s := if x.reseatLeft = 0 then s else s.retrainEvt l 1 2
  let s := if x.retTrain ∧ x.retAsked then s.retrainEvt l 2 2 else s
  let alone := s.carries l && !s.carries (partner l)
  let s := if alone then s.linkCut else s
  let s := s.setLane l { laneIdle x with
    backoff := nextBackoff x.backoff
    backoffRun := true
    cause := cause }
  s.evt 0x0D02 (if s.carryMask = 0 then 2 else 1) 0xFF l.num cause (stageCode x.stage) (s.lane l).backoff

/-- A lane enters TRAIN (R168, R169): the offset trims start from the calibration image's. -/
def State.startTrain (s : State) (l : Lane) : State :=
  let seed := match l with | .a => s.cal.seedA | .b => s.cal.seedB
  let s := s.abortSlice fun ty tg => decide (ty = 5) && decide (tg = l.num)
  s.modLane l fun x => { x with
    stage := .train
    trainStart := s.clk
    retNext := max x.retNext (s.clk * 1000)
    rxReady := false
    hostReady := 0
    offsets := match seed with | some t => t.drop 1 | none => [32, 32, 32] }

/-- Termination sensed in DETECT, once the backoff has elapsed: TRAIN. -/
def State.tryTrain (s : State) (l : Lane) : State :=
  let x := s.lane l
  if s.laneRuns l ∧ x.stage = .detect ∧ x.term ∧ !x.backoffRun then s.startTrain l else s

def execDetectPoll (dt : Nat) (lane : Lane) (present : Bool) (s : State) : Host.Outcome State Fault Refusal :=
  let s := (s.elapse dt).lines
  .next (if s.laneRuns lane ∧ (s.lane lane).stage = .detect then
    let s := if present then s.abortSlice fun ty tg => decide (ty = 5) && decide (tg = lane.num) else s
    (s.modLane lane fun x => { x with term := present }).tryTrain lane
  else s)

def execBackoffExpiry (dt : Nat) (lane : Lane) (s : State) : Host.Outcome State Fault Refusal :=
  let s := (s.elapse dt).lines
  .next ((s.modLane lane fun x => { x with backoffRun := false }).tryTrain lane)

/-- The lane leaves TRAIN once both receivers have adapted: four TRAIN blocks with LAST (R168). -/
def State.leaveTrain (s : State) (l : Lane) : State :=
  let x := s.lane l
  if x.stage = .train ∧ x.rxReady ∧ 3 ≤ x.hostReady then
    s.setLane l { sendLast l x with stage := .lock, validRun := 0, badWindow := [] }
  else s

/-- A value moves toward another by at most one. -/
def oneStep (cur target : Int) : Int :=
  if cur < target then cur + 1 else if target < cur then cur - 1 else cur

/-- One quantity of the equaliser moves, in rotation, by at most one LSB (R176). DESIGN CHOICE, log 40: the LSB of a
threshold is 1 mV, the unit of THR; the manual gives none. -/
def adaptMove (x : LaneSt) (w : AdaptWindow) : LaneSt :=
  let k := x.rotation % 6
  let mu := fun (i : Nat) => w.mu.getD i 0
  let x := if k < 3 then
      { x with thr := x.thr.modify k fun t => oneStep t ((mu k + mu (k + 1)) / 2) }
    else
      { x with taps := x.taps.modify (k - 3) fun t => t + (w.tapDir.getD (k - 3) 0).sign }
  { x with rotation := (k + 1) % 6, frozenLast := false }

/-- A receiver adapts over windows: the receiver after each, the last first (R169: no richness gate). -/
def adaptAll (x : LaneSt) (l : List AdaptWindow) : List LaneSt :=
  l.foldl (fun a w => adaptMove (a.headD x) w :: a) [x]

/-- The six quantities of the equaliser. -/
def quantities (x : LaneSt) : List Int := x.thr ++ x.taps

/-- No tap or threshold has moved more than 1 LSB over the last 16 windows (R169). -/
def settled (l : List LaneSt) : Bool :=
  let q := (l.take 17).map quantities
  decide (17 ≤ l.length) && (List.range 6).all fun k =>
    q.all fun a => q.all fun b => decide (a.getD k 0 - b.getD k 0 ≤ 1)

/-- The CTLE code that gives the largest least eye height; of equal ones the first (DESIGN CHOICE, log 40). -/
def bestCtle (eyes : List Nat) : Nat :=
  (List.range 16).foldl (fun c k => if eyes.getD c 0 < eyes.getD k 0 then k else c) 0

/-- The receiver has adapted (R169): thresholds, taps and eyes are those that the adapt phase left. -/
def adapted (x : LaneSt) (f : TrainResult) : LaneSt :=
  { (adaptAll x f.windows).headD x with
    rxReady := true
    everTrained := true
    eyeH := f.eye.height
    eyeW := f.eye.width }

/-- The trim phase (R169): the CTLE code and the offset trims found. -/
def trimmed (x : LaneSt) (f : TrainResult) : LaneSt := { x with ctle := bestCtle f.ctleEyes, offsets := f.offsets }

/-- The adapt phase ends: all has settled, and the eyes are at or above EYE_GUARD (R169). -/
def State.adaptEnds (s : State) (x : LaneSt) (f : TrainResult) : Bool :=
  settled (adaptAll x f.windows) && s.eyesOk f.eye.height f.eye.width

/-- RX_READY of a forward direction that resumes from L2 (R180) is told in a TRAIN block on a return that is in L0
(DEDUCED, log 40); one that trains carries it in its training units. -/
def tellReady (l : Lane) (x : LaneSt) : LaneSt :=
  if returnOpen x then sendBlock x 5 false (trainPayload l x (readyBit x)) else x

def execRxReady (dt : Nat) (lane : Lane) (found : TrainResult) (s : State) : Host.Outcome State Fault Refusal :=
  let s := (s.elapse dt).lines
  let x := s.lane lane
  .next (if s.adaptEnds x found ∧ !x.rxReady then
    if x.stage = .train then (s.setLane lane (trimmed (adapted x found) found)).leaveTrain lane
    else if x.stage = .active ∧ x.fwd = .l2 then s.setLane lane (tellReady lane (adapted x found))
    else s
  else s)

def execTrainTimeout (dt : Nat) (lane : Lane) (s : State) : Host.Outcome State Fault Refusal :=
  let s := (s.elapse dt).lines
  .next (if (s.lane lane).stage = .train then s.laneDown lane 3 else s)

def execLockTimeout (dt : Nat) (lane : Lane) (s : State) : Host.Outcome State Fault Refusal :=
  let s := (s.elapse dt).lines
  .next (if (s.lane lane).stage = .lock then s.laneDown lane 4 else s)

/-- A CAPS try ends: another, or after three DETECT (R168). -/
def execCapsTimeout (dt : Nat) (lane : Lane) (s : State) : Host.Outcome State Fault Refusal :=
  let s := (s.elapse dt).lines
  let x := s.lane lane
  .next (if x.stage = .caps then
    if 3 ≤ x.tries + 1 then s.laneDown lane 5
    else s.setLane lane { x with tries := x.tries + 1, capsRx := false, capsTx := false }
  else s)

/-- A stage from TRAIN to ACTIVE. -/
def LaneSt.up (x : LaneSt) : Bool := decide (x.stage ≠ .detect)

def execLossOfSignal (dt : Nat) (lane : Lane) (s : State) : Host.Outcome State Fault Refusal :=
  let s := (s.elapse dt).lines
  let x := s.lane lane
  .next (if x.up ∧ x.fwd = .l0 then s.laneDown lane 1 else s)

def execTerminationLost (dt : Nat) (lane : Lane) (s : State) : Host.Outcome State Fault Refusal :=
  let s := (s.elapse dt).lines
  .next (if (s.lane lane).up then s.laneDown lane 6 else s)

/-! ### ACTIVE -/

/-- A lane reaches ACTIVE: LANE_UP, or RETRAIN after a retrain in service (R168, R178, R183). -/
def State.laneActive (s : State) (l : Lane) : State :=
  let x := s.lane l
  let s := s.setLane l { x with
    stage := .active
    activeSince := some s.clk
    everActive := true
    backoff := 0
    backoffRun := false
    inService := false
    retrainReq := false
    lowScans := [0, 0, 0]
    retIdleAt := s.clk }
  let s := s.joinReturn l
  if x.inService then s.retrainEvt l 0 1
  else s.evt 0x0D01 0 0xFF l.num (ofFlags [x.preFwd, x.preRet]) (s.since x.trainStart / 1000000) x.ctle

/-- The partner's CAPS has come (R171): the engine answers with ACK in the next block of its return and in every one
after it while the lane is in CAPS, and the precoders are agreed. -/
def State.capsIn (s : State) (l : Lane) (b : List Byte) : State :=
  let x := s.lane l
  let f := (byteAt b 4).toNat
  let y := if x.capsTx then x else
    { sendBlock x 6 false (s.capsPayload l true) with
      capsTx := true
      preFwd := s.flag pLinkCtrl 2 && bitOf f 0
      preRet := s.flag pLinkCtrl 3 && bitOf f 1 }
  let s := s.setLane l { y with capsRx := true, hostFlags := BitVec.ofNat 8 f }
  if bitOf f 3 then s.laneActive l else s

/-- 64 consecutive valid headers (R168): CAPS, or ACTIVE after a retrain in service. CAPS with ACK clear leave in
every block time until the partner's CAPS comes (R171). -/
def State.locked (s : State) (l : Lane) : State :=
  let x := s.lane l
  if x.inService then s.laneActive l
  else s.setLane l { x with
    stage := .caps
    tries := 0
    capsRx := false
    capsTx := false }

/-! ### Adaptation and eyes (R176 to R179) -/

/-- A window of 65,536 symbols ends in ACTIVE, or one of 4,096 in a reseat window (R176, R177, R179). -/
def execAdaptWindowEnd (dt : Nat) (lane : Lane) (w : AdaptWindow) (s : State) : Host.Outcome State Fault Refusal :=
  let s := (s.elapse dt).lines
  let x := s.lane lane
  .next (if x.stage = .active ∧ x.fwd = .l0 then
    let x := { x with rich := w.rich, trans := w.trans }
    if s.fld pRichMin 7 0 ≤ w.rich ∧ s.fld pRichMin 15 8 ≤ w.trans then s.setLane lane (adaptMove x w)
    else (s.bump pAdaptFrozen 1).setLane lane { x with frozen := satAdd 32 x.frozen 1, frozenLast := true }
  else s)

/-- An eye is below EYE_GUARD. -/
def State.eyeLow (s : State) (e : EyeScan) (k : Nat) : Bool :=
  decide (e.height.getD k 0 < s.fld pEyeGuard 7 0) || decide (e.width.getD k 0 < s.fld pEyeGuard 15 8)

/-- EYE_LOW, at most one per lane and second (R183). -/
def State.eyeLowEvt (s : State) (l : Lane) (sev k : Nat) : State :=
  let x := s.lane l
  if s.secondSince x.eyeLowAt then
    (s.setLane l { x with eyeLowAt := some s.clk }).evt 0x0D03 sev 0xFF l.num k (x.eyeH.getD k 0) (x.eyeW.getD k 0)
  else s

/-- The engine asks for a retrain in service (R178). -/
def State.askRetrain (s : State) (l : Lane) : State :=
  if (s.lane l).retrainReq then s
  else (s.modLane l fun x => { x with retrainReq := true, retrainAt := s.clk }).retrainEvt l 0 0

/-- An eye has stayed below guard for four scans (R178, R179). -/
def State.eyeAction (s : State) (l : Lane) (k : Nat) : State :=
  let x := s.lane l
  let mirrored := s.mirror && s.carries (partner l)
  if mirrored && s.flag pLinkCtrl 5 then s.askRetrain l
  else if !mirrored && s.flag pLinkCtrl 4 then
    if x.noAsk then s
    else if 3 ≤ x.reseatTries then
      (s.setLane l { x with reseatReq := false, reseatTries := 0, noAsk := true }).eyeLowEvt l 2 k
    else s.setLane l { x with reseatReq := true }
  else s.eyeLowEvt l 1 k

def execEyeScanDone (dt : Nat) (lane : Lane) (eye : EyeScan) (s : State) : Host.Outcome State Fault Refusal :=
  let s := (s.elapse dt).lines
  let x := s.lane lane
  .next (if x.stage = .active ∧ x.fwd = .l0 then
    let low := (List.range 3).map fun k => if s.eyeLow eye k then x.lowScans.getD k 0 + 1 else 0
    let ok := (List.range 3).all fun k => !s.eyeLow eye k
    let s := s.setLane lane { x with
      eyeH := eye.height
      eyeW := eye.width
      eyeAt := some s.clk
      lowScans := low
      reseatReq := x.reseatReq && !ok
      reseatTries := if ok then 0 else x.reseatTries
      noAsk := x.noAsk && !ok }
    match (List.range 3).find? fun k => 4 ≤ low.getD k 0 with
    | some k => s.eyeAction lane k
    | none => s
  else s)

/-! ### Control blocks on the forward direction (R165, R167, R178 to R180) -/

/-- The return direction has been retrained, or resumed from L2 (R181). -/
def State.returnTrained (s : State) (l : Lane) : State :=
  let x := s.lane l
  if x.stage = .active ∧ x.retTrain then
    let s := (s.setLane l { sendLast l x with
      ret := .l0, retTrain := false, retAsked := false, retReady := true, retIdleAt := s.clk }).joinReturn l
    if x.retAsked then s.retrainEvt l 2 1 else s
  else s

/-- The engine retrains the return direction of a lane (R165, LINK_RETRAIN KIND 2). -/
def State.retrainReturn (s : State) (l : Lane) : State :=
  if (s.lane l).retTrain then s
  else
    (s.modLane l fun x => { x with
      retTrain := true, retAsked := true, retReady := false, retrainAt := s.clk }).retrainEvt l 2 0

/-- An IDLE block in ACTIVE (R165): codes of the host. -/
def State.idleIn (s : State) (l : Lane) (code : Nat) : State :=
  match code with
  | 1 => s.modLane l fun x => { x with fwd := .l1 }
  | 2 => s.modLane l fun x => { x with fwd := .l2, rxReady := false }
  | 3 => s.returnTrained l
  | 6 => s.retrainReturn l
  | _ => s

/-- The forward stream starts afresh after a LAST (R161, R175). -/
def streamSeeded (x : LaneSt) : LaneSt := { x with fresh := true, bseq := none, badWindow := [] }

/-- A TRAIN block in ACTIVE: the answer to a retrain request, a unit of a reseat window, or the end
of a sleep (R178 to R180). -/
def State.trainActive (s : State) (l : Lane) (b : List Byte) : State :=
  let x := s.lane l
  if x.retrainReq then
    let s := (s.bump pRetrains 1).setLane l { x with
      stage := .train
      inService := true
      trainStart := s.clk
      rxReady := false
      hostReady := if trainFlag b 0 then 1 else 0
      retrains := satAdd 8 x.retrains 1 }
    if s.carries (partner l) then s else s.linkCut
  else if trainFlag b 2 then
    let s := if x.reseatLeft = 0 then
        (s.setLane l { x with reseatLeft := 32, retrainAt := s.clk }).retrainEvt l 1 0 else s
    if trainFlag b 1 then
      let s := (s.bump pRetrains 1).modLane l fun y => { streamSeeded y with
        reseatLeft := 0
        reseatReq := false
        reseatTries := y.reseatTries + 1
        retrains := satAdd 8 y.retrains 1 }
      s.retrainEvt l 1 1
    else s.modLane l fun y => { y with reseatLeft := y.reseatLeft - 1 }
  else if trainFlag b 1 ∧ (x.fwd = .l1 ∨ (x.fwd = .l2 ∧ x.rxReady)) then
    s.setLane l { streamSeeded x with fwd := .l0 }
  else s

/-- A TRAIN block of the host (R167, R168). -/
def State.trainIn (s : State) (l : Lane) (b : List Byte) : State :=
  let x := s.lane l
  match x.stage with
  | .detect => s
  | .train =>
    let y := { x with hostReady := if trainFlag b 0 then x.hostReady + 1 else 0 }
    let s := s.setLane l (if trainFlag b 1 then streamSeeded y else y)
    s.leaveTrain l
  | .active => s.trainActive l b
  | _ => if trainFlag b 1 then s.setLane l (streamSeeded x) else s

def execL2Resume (dt : Nat) (lane : Lane) (s : State) : Host.Outcome State Fault Refusal :=
  let s := (s.elapse dt).lines
  let x := s.lane lane
  .next (if x.stage = .active ∧ x.fwd = .l2 ∧ !s.pwr.linkOff then
    s.setLane lane { x with rxReady := false, trainStart := s.clk }
  else s)

/-! ### Sleep of the return direction (R181) -/

def execReturnIdleTimeout (dt : Nat) (lane : Lane) (s : State) : Host.Outcome State Fault Refusal :=
  let s := (s.elapse dt).lines
  let x := s.lane lane
  let pol := s.fld pRetSleep 1 0
  .next (if x.stage = .active ∧ x.ret = .l0 ∧ !x.retTrain ∧ !s.recordWaits ∧ (pol = 1 ∨ pol = 2) then
    let y := sendBlock x 0 false [BitVec.ofNat 8 pol]
    s.setLane lane { y with ret := if pol = 1 then .l1 else .l2 }
  else s)

/-- A sleeping return resumes, for a record or because RET_POLICY is 0 (R181): from L1 with 1.0 us of PRBS13 and four
TRAIN blocks (R180), from L2 with training units until RET_READY. -/
def execReturnResume (dt : Nat) (lane : Lane) (s : State) : Host.Outcome State Fault Refusal :=
  let s := (s.elapse dt).lines
  let x := s.lane lane
  .next (if x.stage = .active ∧ (s.recordWaits ∨ s.fld pRetSleep 1 0 = 0) ∧ !x.retTrain ∧ s.pwr.state ≠ .standby then
    match x.ret with
    | .l0 => s
    | .l1 => (s.setLane lane { sendLast lane (sendPrbs x 800) with ret := .l0, retIdleAt := s.clk }).joinReturn lane
    | .l2 => s.setLane lane { x with retTrain := true, retReady := false, retrainAt := s.clk }
  else s)

def execRetReadyTimeout (dt : Nat) (lane : Lane) (s : State) : Host.Outcome State Fault Refusal :=
  let s := (s.elapse dt).lines
  let x := s.lane lane
  .next (if x.stage = .active ∧ x.retTrain then s.laneDown lane 9 else s)

/-! ### LINK_STATUS -/

/-- HDR_BAD of a lane. -/
def hdrBadId (l : Lane) : Nat := pHdrBadA + l.num
/-- BLK_CRC of a lane. -/
def blkCrcId (l : Lane) : Nat := pBlkCrcA + l.num

/-- The code of a sleep state. -/
def sleepCode : SleepL → Nat
  | .l0 => 0 | .l1 => 1 | .l2 => 2

/-- The record of a lane. -/
def linkLane (s : State) (l : Lane) : List Word :=
  let x := s.lane l
  let flags := ofFlags [x.preFwd, x.preRet, x.inService || x.retrainReq, x.reseatReq, x.frozenLast, x.term]
  let up := match x.activeSince with | some t => s.since t / 1000000 | none => 0
  [w32 (stageCode x.stage + 256 * sleepCode x.fwd + 65536 * sleepCode x.ret + 2 ^ 24 * flags),
   halves x.backoff (minOf 0 x.eyeH), w32 up, w32 (s.live (hdrBadId l)), w32 (s.live (blkCrcId l)),
   w32 (x.cause + 256 * x.retrains), w32 x.frozen]

def linkStatusDef : OpDef :=
  { jnl := jnlNone
    rlen := fun _ => 15
    len := fun p => decide (p.plen = 0)
    run := fun _ _ s =>
      okOut s ([w32 (s.fld pLinkCtrl 1 0 + 256 * s.carryMask)] ++ linkLane s .a ++ linkLane s .b) }

def execLinkStatus (p : Pkt) (s : State) : Host.Outcome State Fault Refusal :=
  .next (serveOp 0x0D01 linkStatusDef p false s)

/-! ### LINK_RETRAIN -/

/-- The lane that a packet names. -/
def laneOf (n : Nat) : Lane := if n = 0 then .a else .b

/-- The lane is training or reseating. -/
def State.laneBusy (s : State) (l : Lane) : Bool :=
  let x := s.lane l
  (x.up && decide (x.stage ≠ .active)) || x.retrainReq || x.retTrain || decide (0 < x.reseatLeft)

/-- LINK_RETRAIN starts, after its reply. -/
def State.linkRetrain (s : State) (l : Lane) (kind : Nat) : State :=
  let s := s.modLane l fun x => { x with noAsk := false }
  let s := s.abortSlice fun ty tg => decide (ty = 5) && decide (tg = l.num)
  match kind with
  | 0 => s.askRetrain l
  | 1 => if (s.lane l).up then s.laneDown l 7 else s
  | _ => s.retrainReturn l

def linkRetrainDef : OpDef :=
  { len := fun p => decide (p.plen = 1)
    bad := fun p _ => need (decide (p.u8 16 ≤ 1) && decide (p.u8 17 ≤ 2) && decide (p.u16 18 ≤ 1))
    gate := fun p s =>
      let l := laneOf (p.u8 16)
      let k := p.u8 17
      orElse9
        (stop ((decide (k ≠ 1) && decide ((s.lane l).stage ≠ .active))
          || (decide (k = 0) && !s.mirror)
          || (decide (k = 1) && s.carries l && !s.carries (partner l) && !bitOf (p.u16 18) 0)) stWrongState)
        (stop (s.laneBusy l) stBusy)
    run := fun _ p s =>
      { s := s, post := fun s => (s.replyLeaves p (laneOf (p.u8 16))).linkRetrain (laneOf (p.u8 16)) (p.u8 17) } }

def execLinkRetrain (p : Pkt) (s : State) : Host.Outcome State Fault Refusal :=
  .next (serveOp 0x0D02 linkRetrainDef p false s)

/-! ### LANE_MODE (R174) -/

/-- A lane comes under a new mode: dropped with its PHY off, or admitted from DETECT with backoff 0. -/
def State.laneUnder (s : State) (was : Bool) (l : Lane) : State :=
  let x := s.lane l
  if was && !s.admits l then
    s.setLane l { laneIdle x with phyOn := false, backoff := 0, backoffRun := false }
  else if !was && s.admits l then
    (s.setLane l { laneIdle x with phyOn := true, backoff := 0, backoffRun := false }).abortSlice
      fun ty tg => decide (ty = 5) && decide (tg = l.num)
  else s

/-- The lane mode changes. -/
def State.laneMode (s : State) (m : Nat) : State :=
  let a := s.admits .a
  let b := s.admits .b
  let old := s.live pLinkCtrl
  let s := s.setLive pLinkCtrl (old - old % 4 + m)
  let s := (s.laneUnder a .a).laneUnder b .b
  if s.carryMask = 0 then s.linkCut else { s with link := { s.link with recent := [] } }

def laneModeDef : OpDef :=
  { rlen := fun _ => 1
    len := fun p => decide (p.plen = 1)
    bad := fun p _ => need (decide (p.u8 16 ≤ 2) && p.zero 17 3)
    gate := fun p s =>
      let l := laneOf (p.u8 16 - 1)
      stop (decide (p.u8 16 ≠ 0) && (decide ((s.lane l).stage ≠ .active) || decide ((s.lane l).fwd ≠ .l0)
        || s.marked (17 + l.num))) stWrongState
    run := fun _ p s =>
      { s := s
        results := [w32 (s.fld pLinkCtrl 1 0 + 256 * (s.laneMode (p.u8 16)).carryMask)]
        post := fun s => (s.replyLeaves p .a).laneMode (p.u8 16) } }

def execLaneMode (p : Pkt) (s : State) : Host.Outcome State Fault Refusal :=
  .next (serveOp 0x0D03 laneModeDef p false s)

/-! ### EYE_READ -/

/-- The results of EYE_READ. -/
def eyeWords (s : State) (l : Lane) : List Word :=
  let x := s.lane l
  let t := fun (i : Nat) => twos 16 (x.thr.getD i 0)
  let p := fun (i : Nat) => twos 16 (x.taps.getD i 0)
  let age := match x.eyeAt with | some t => min (s.since t / 1000000) 65535 | none => 65535
  ((List.range 3).map fun k => halves (x.eyeH.getD k 0) (x.eyeW.getD k 0))
    ++ [w32 (x.ctle + 65536 * age), halves (t 0) (t 1), halves (t 2) (p 0), halves (p 1) (p 2),
        w32 (x.rich % 256 + 256 * (x.trans % 256))]

def eyeReadDef : OpDef :=
  { jnl := jnlNone
    rlen := fun _ => 8
    len := fun p => decide (p.plen = 1)
    bad := fun p _ => need (decide (p.u8 16 ≤ 1) && p.zero 17 3)
    gate := fun p s => stop (!(s.lane (laneOf (p.u8 16))).everActive) stWrongState
    run := fun _ p s => okOut s (eyeWords s (laneOf (p.u8 16))) }

def execEyeRead (p : Pkt) (s : State) : Host.Outcome State Fault Refusal :=
  .next (serveOp 0x0D04 eyeReadDef p false s)

end Sys2Proof.Machine
end

