-- ==== Sys2Proof/Machine/Strings.lean ====
section
/-! DEFINITION. String channels and Crest pattern engines (09_strings_crest.md): levels and edges,
faults, FB codes, the steps of a Crest program, and the opcodes 0x0501 to 0x0505. -/

namespace Sys2Proof.Machine

/-! ### Channels -/

/-- A position of a channel. -/
def Channel.at_ (c : Channel) (p : Nat) : Position := tget (fun _ => {}) c.pos p
/-- Change a position. -/
def Channel.modPos (c : Channel) (p : Nat) (f : Position → Position) : Channel :=
  { c with pos := tmod (fun _ => {}) c.pos p f }
/-- The fitted positions (R212). -/
def Channel.fitted (c : Channel) : List Nat := List.range c.count
/-- A position has failed to switch. -/
def Channel.switchFailed (c : Channel) : Bool := c.fitted.any fun p => (c.at_ p).switch
/-- Every fitted position is OPEN (R218). -/
def Channel.everyOpen (c : Channel) : Bool := c.fitted.all fun p => (c.at_ p).opened

/-- The state admits string drive (R222): none in dark and at the thermal levels SHUTDOWN and CRIT. -/
def State.strAdmits (s : State) : Bool :=
  decide (s.diag.safe ≠ 4) && decide (s.thm.level < 3) && decide (s.pwr.state = .active) && decide (s.pwr.boot = .up) && !s.str.shut

/-- EN_n is high (R213, R218, R219). -/
def State.strEn (s : State) (c : Channel) : Bool := c.enable && s.strAdmits && !c.allOpen && !c.failed

/-- I_eff (R213). -/
def Channel.iEff (c : Channel) : Nat := c.iSet * c.d / 4096
/-- FB_CODE while EN_n is high (R213). -/
def Channel.fb (c : Channel) : Nat := min 1023 (c.iEff * 1023 / c.fsMa)

/-- D at a lamp-board temperature in whole degrees (R221). -/
def Channel.derating (c : Channel) (t : Int) : Nat :=
  (min 4096 (max (c.drFloor : Int) (4096 - c.drSlope * (t - c.drStart)))).toNat

/-! ### Faults (R218 to R220, R228) -/

/-- V_OPEN, V_SHORT and V_SW in mV. -/
def State.vOpenMv (s : State) : Nat := 100 * s.fld pStrThresh 7 0
/-- See `State.vOpenMv`. -/
def State.vShortMv (s : State) : Nat := 100 * s.fld pStrThresh 15 8
/-- See `State.vOpenMv`. -/
def State.vSwMv (s : State) : Nat := 100 * s.fld pStrThresh 23 16

/-- STR_FAULT (R228), counted, its class latched. -/
def State.strFault (s : State) (n pos kind mv : Nat) : State :=
  ((s.latchFault 12).bump pStrFaultCount 1).evt 0x0501 2 0xFF n pos kind mv

/-- A position raises each kind of STR_FAULT once until its faults are cleared. -/
def State.posFault (s : State) (n p kind mv : Nat) : State :=
  if ((s.chan n).at_ p).raised.contains kind then s
  else (s.modChan n fun c => c.modPos p fun x => { x with raised := sortIns kind x.raised }).strFault n p kind mv

/-- The drive of a channel whose fitted positions are all OPEN goes low, with its STR_FAULT once (R218). -/
def State.openCheck (s : State) (n mv : Nat) : State :=
  let c := s.chan n
  if !c.everyOpen then s
  else
    let s := s.modChan n fun c => { c.off with allOpen := true, allOpenRaised := true }
    if c.allOpenRaised then s else s.strFault n 0xFF 4 mv

/-- An open interval's comparator finds a position OPEN (R218). -/
def State.markOpen (s : State) (n p mv : Nat) : State :=
  let s := s.modChan n fun c => c.modPos p fun x => { x with opened := true, lit := none, before := none }
  (s.posFault n p 1 mv).openCheck n mv

/-- The string step of the period in progress (R214). -/
def State.strStep (s : State) : Nat := min 1023 (1024000 * (s.clk - s.str.startClk) / s.pwmPs)

/-- The switch of position `p` is open at a string step (R216, R217): up to its start step 64p as the interval of the
period before has it, from then on as this period's. -/
def Position.isOpen (x : Position) (p step : Nat) : Bool :=
  match (if 64 * p ≤ step then x.lit else x.before) with
  | none => false
  | some (a, b) =>
    let off := fun (k : Nat) => (k + 1024 - 64 * p) % 1024
    decide (a = b) || (decide (off a ≤ off step) && (decide (off b = 0) || decide (off step < off b)))

def execOpenDetected (dt : Nat) (pos : Fin 64) (mv : Nat) (s : State) : Host.Outcome State Fault Refusal :=
  let s := s.elapse dt
  let n := pos.val / 16
  let p := pos.val % 16
  .next (if (s.chan n).en ∧ p < (s.chan n).count ∧ !((s.chan n).at_ p).opened
      ∧ ((s.chan n).at_ p).isOpen p s.strStep ∧ s.vOpenMv < mv then s.markOpen n p mv else s)

/-- The least distance of edges in string steps (R214). -/
def edgeGap (pwmPs : Nat) : Nat := ceilDiv (2000000 * 1024) pwmPs
/-- The length of a probe in string steps (R220). -/
def probeLen (pwmPs : Nat) : Nat := ceilDiv (4000000 * 1024) pwmPs

/-- The steps for which an interval keeps a switch open. -/
def litSteps : Option (Nat × Nat) → Nat
  | none => 0
  | some (a, b) => if a = b then 1024 else (b + 1024 - a) % 1024

/-- The interval of the period before runs past the start of a period. -/
def Position.carries (x : Position) (p : Nat) : Bool := x.before.isSome && x.isOpen p 0

/-- The samples that the period just ended can give (R219): of an open or a closed interval in it, this period's or
one that ran into it, of at least 4.0 us. -/
def Position.samples (x : Position) (p len : Nat) (v : StrSample) : StrSample :=
  let into := decide (0 < p)
  let ran := x.carries p
  { v with
    opened := if len ≤ litSteps x.lit ∨ (into ∧ ran ∧ len ≤ litSteps x.before) then v.opened else none
    closed := if len ≤ 1024 - litSteps x.lit ∨ (into ∧ !ran ∧ len ≤ 1024 - litSteps x.before) then v.closed else none }

/-- The samples of one position over the period just ended (R219). -/
def State.samplePos (s : State) (n p : Nat) (v : StrSample) : State :=
  let x := ((s.chan n).at_ p).samples p (probeLen s.pwmPs) v
  let low : Bool := match x.opened with | some v => decide (v < s.vShortMv) | none => false
  let high : Bool := match x.closed with | some v => decide (s.vSwMv < v) | none => false
  let s := s.modChan n fun c => c.modPos p fun y => { y with
    lowRun := if x.opened.isSome then (if low then y.lowRun + 1 else 0) else y.lowRun
    highRun := if x.closed.isSome then (if high then y.highRun + 1 else 0) else y.highRun
    vOpen := match x.opened with | some v => v | none => y.vOpen
    sinceOpen := if x.opened.isSome then 0 else y.sinceOpen + 1
    sinceClosed := if x.closed.isSome then 0 else y.sinceClosed + 1 }
  let y := (s.chan n).at_ p
  let s := if 2 ≤ y.lowRun ∧ low then
      (s.modChan n fun c => c.modPos p fun z => { z with shorted := true }).posFault n p 2 (x.opened.getD 0)
    else s
  if 2 ≤ y.highRun ∧ high then
    (s.modChan n fun c => { (c.modPos p fun z => { z with switch := true }).off with failed := true }).posFault
      n p 3 (x.closed.getD 0)
  else s

/-- The samples of the period just ended. -/
def State.sampleAll (s : State) (l : List StrSample) : State :=
  (List.range 4).foldl (fun s n =>
    if (s.chan n).en then
      (s.chan n).fitted.foldl (fun s p =>
        s.samplePos n p ((l.find? fun x => x.pos = 16 * n + p).getD { pos := 16 * n + p, opened := none, closed := none })) s
    else s) s

/-! ### Levels and edges (R214 to R217) -/

/-- The level that is applied for a level (R215). -/
def levelApplied (de l : Nat) : Nat :=
  if l = 0 then 0 else if l < de then de else if 1024 < l + de then 1024 else l

/-- The level of a position by its entry (R226). -/
def State.entryLevel (s : State) (p : Nat) (e : StrEntry) : Nat :=
  if e.src = 0 then e.level
  else
    let k := s.crest (e.src - 1)
    if bitOf k.m.toNat p then k.c * e.level / 65535 else 0

/-- FAIL_LEVEL is applied (R222). -/
def State.failApplies (s : State) (c : Channel) : Bool :=
  (decide (s.diag.safe = 2) || decide (s.diag.safe = 3)) && !c.hold

/-- The level of a fitted position in this period (R218, R219, R222, R226). -/
def State.posLevel (s : State) (c : Channel) (de p : Nat) : Nat :=
  let x := c.at_ p
  if x.opened || (x.shorted && c.shortByp) then 0
  else levelApplied de (if s.failApplies c then c.failLvl else s.entryLevel p x.entry)

/-- What a position does from its start step on in this period: the switch opens there for so many steps, or closes
there for so many. A probe opens a dark position, or closes a lit one (R220; DEDUCED, log 26). -/
def probed (on : Bool) (len l : Nat) (x : Position) : Bool × Nat :=
  if on ∧ !x.opened ∧ 63 ≤ x.sinceOpen ∧ l < len then (true, len)
  else if on ∧ 63 ≤ x.sinceClosed ∧ 1024 < l + len then (false, len)
  else (true, l)

/-- The circular distance of two string steps. -/
def stepDist (a b : Nat) : Nat := min ((a + 1024 - b) % 1024) ((b + 1024 - a) % 1024)

/-- The first place of a close edge, in steps after its own start edge: at or after the target and at
least `de` from every other edge; past 1,024 - de the position stays lit (R216; DEDUCED, log 26). -/
def placeClose (edges : List Nat) (de start : Nat) (target : Int) : Nat :=
  let from_ := (max target (de : Int)).toNat
  match (List.range 1024).find? fun k => edges.all fun e => de ≤ stepDist ((start + from_ + k) % 1024) e with
  | some k => if 1024 < from_ + k + de then 1024 else from_ + k
  | none => 1024

/-- A position's interval in this period; the one of the period before is kept for the steps up to its start step. -/
def Position.take (x : Position) (lit : Option (Nat × Nat)) (residue : Int) : Position :=
  { x with lit := lit, before := x.lit, residue := residue }

/-- What the placement of one position leaves: the channel, the edges placed, edges moved. The start edge stands at
64p; the edge that ends an open interval, or a closing probe, is placed (R216, R220). -/
def placeOne (de : Nat) (plan : Nat → Bool × Nat) (st : Channel × List Nat × Nat) (p : Nat) :
    Channel × List Nat × Nat :=
  let x := st.1.at_ p
  let a := plan p
  let start := 64 * p
  let put := fun (lit : Option (Nat × Nat)) (r : Int) => st.1.modPos p fun y => y.take lit r
  if a.2 = 0 then (put none 0, st.2.1, st.2.2)
  else if 1024 ≤ a.2 then (put (some (start, start)) 0, st.2.1, st.2.2)
  else
    let target : Int := if a.1 then a.2 - x.residue else a.2
    let k := placeClose (st.2.1.filter fun e => e ≠ start) de start target
    let e := (start + k) % 1024
    (if a.1 then put (some (start, e)) (k - target) else put (if k = 1024 then none else some (e, start)) x.residue,
     st.2.1 ++ (if k = 1024 then [] else [e]),
     st.2.2 + b2n (decide ((k : Int) ≠ target)))

/-- The edges of a channel in this period: the channel and the edges moved (R216). -/
def State.placeEdges (s : State) (c : Channel) : Channel × Nat :=
  let de := edgeGap s.pwmPs
  let len := probeLen s.pwmPs
  let lvl := fun (p : Nat) => s.posLevel c de p
  let c := c.fitted.foldl (fun c p => c.modPos p fun x => { x with
    applied := lvl p
    residue := if x.applied = lvl p then x.residue else 0 }) c
  let plan := fun (p : Nat) => probed (s.flag pStrCtrl 0) len (lvl p) (c.at_ p)
  let starts := (c.fitted.filter fun p => decide ((plan p).2 ≠ 0) && decide ((plan p).2 < 1024)).map (64 * ·)
  let r := c.fitted.foldl (placeOne de plan) (c, starts, 0)
  (r.1, r.2.2)

/-- A configuration of STR_CONFIG takes effect (STR_CONFIG): flags, COUNT, NTC, I_SET, FS_MA,
FAIL_LEVEL, DR_START, DR_SLOPE, DR_FLOOR. -/
def Channel.configure (c : Channel) (l : List Nat) : Channel :=
  let v := fun (i : Nat) => l.getD i 0
  let c := { c with
    enable := bitOf (v 0) 0
    hold := bitOf (v 0) 1
    shortByp := bitOf (v 0) 2
    count := v 1
    ntc := v 2
    iSet := v 3
    fsMa := v 4
    failLvl := v 5
    drStart := v 6
    drSlope := v 7
    drFloor := v 8
    d := if v 2 = 0 ∨ c.d = 0 then 4096 else c.d
    nextCfg := none }
  if bitOf (v 0) 3 then
    { c with
      allOpen := false
      failed := false
      allOpenRaised := false
      pos := (List.range 16).foldl (fun t p => tmod (fun _ => {}) t p fun (x : Position) => { x with
        opened := false
        shorted := false
        switch := false
        lowRun := 0
        highRun := 0
        raised := [] }) c.pos }
  else c

/-- The levels written since the last period enter it. -/
def Channel.takeLevels (c : Channel) : Channel :=
  { (c.nextLvl.foldl (fun c e => c.modPos e.1 fun x => { x with entry := e.2 }) c) with nextLvl := [] }

/-- What a channel was told since its last period enters it. -/
def Channel.begin_ (c : Channel) : Channel :=
  let c := match c.nextCfg with | some l => c.configure l | none => c
  { c.takeLevels with allOpen := c.enable && c.everyOpen }

/-- A channel's string period starts. -/
def State.chanPeriod (s : State) (n : Nat) : State :=
  let s := s.modChan n fun c => c.begin_
  let s := if (s.chan n).enable ∧ s.strAdmits then s.openCheck n ((s.chan n).at_ 0).vOpen else s
  let c := s.chan n
  if s.strEn c then
    let r := s.placeEdges { c with en := true, fbCode := c.fb, failUsed := s.failApplies c }
    (s.modChan n fun _ => r.1).bump pEdgeMoves r.2
  else s.modChan n fun _ => { c.off with failUsed := false }

def execStringPeriodStart (dt : Nat) (samples : List StrSample) (s : State) : Host.Outcome State Fault Refusal :=
  let s := s.elapse dt
  .next (if s.frm.running then
    let s := s.sampleAll samples
    (List.range 4).foldl (fun s n => s.chanPeriod n) { s with str := { s.str with startClk := s.clk } }
  else s)

/-! ### STR_CONFIG -/

/-- The fields of STR_CONFIG; a CLEAR that still waits for the string period stays asked for. -/
def strFields (p : Pkt) (c : Channel) : List Nat :=
  [if bitOf ((c.nextCfg.getD []).getD 0 0) 3 then setBit (p.u8 17) 3 else p.u8 17, p.u8 18, p.u8 19, p.u16 20, p.u16 22, p.u16 24, p.u8 26, p.u16 28, p.u16 30]

def strConfigDef : OpDef :=
  { rlen := fun _ => 1
    len := fun p => decide (p.plen = 4)
    bad := fun p _ => need (decide (p.u8 16 ≤ 3) && decide (p.u8 17 ≤ 15) && decide (1 ≤ p.u8 18)
      && decide (p.u8 18 ≤ 16) && decide (p.u8 19 ≤ 2) && decide (p.u16 20 ≤ p.u16 22)
      && decide (100 ≤ p.u16 22) && decide (p.u16 22 ≤ 1500) && decide (p.u16 24 ≤ 1024)
      && decide (p.u8 26 ≤ 150) && p.zero 27 1 && decide (p.u16 28 ≤ 4096) && decide (p.u16 30 ≤ 4096))
    gate := fun p s => stop ((s.chan (p.u8 16)).enable && decide ((s.chan (p.u8 16)).count ≠ p.u8 18)) stWrongState
    run := fun _ p s =>
      okOut (s.modChan (p.u8 16) fun c => { c with nextCfg := some (strFields p c) }) [w32 (s.strFaults (p.u8 16))] }

def execStrConfig (p : Pkt) (s : State) : Host.Outcome State Fault Refusal :=
  .next (serveOp 0x0501 strConfigDef p false s)

/-! ### STR_LEVEL -/

/-- COUNT as configured. -/
def Channel.countNow (c : Channel) : Nat := match c.nextCfg with | some l => l.getD 1 0 | none => c.count

/-- An entry of STR_LEVEL. -/
def strEntry (v : Nat) : StrEntry := { level := bits v 10 0, src := bits v 14 11 }

def strLevelDef : OpDef :=
  { len := fun p => decide (p.plen = 9)
    bad := fun p s => need (decide (p.u8 16 ≤ 3) && decide (p.u8 17 ≤ 1)
      && decide (p.u16 18 < 2 ^ (s.chan (p.u8 16)).countNow)
      && (List.range 16).all fun i =>
        let v := p.u16 (20 + 2 * i)
        if bitOf (p.u16 18) i then
          decide (bits v 10 0 ≤ 1024) && decide (bits v 14 11 ≤ 8) && decide (v < 32768)
        else decide (v = 0))
    run := fun _ p s =>
      let l := (bitList (p.u16 18) 16).map fun i => (i, strEntry (p.u16 (20 + 2 * i)))
      let put := fun (t : Tab StrEntry) => l.foldl (fun t e => tins t e.1 e.2) t
      okOut (s.modChan (p.u8 16) fun c =>
        if bitOf (p.u8 17) 0 ∨ p.cls = 1 then { c with seamLvl := put c.seamLvl }
        else { c with nextLvl := put c.nextLvl }) [] }

def execStrLevel (p : Pkt) (s : State) : Host.Outcome State Fault Refusal :=
  .next (serveOp 0x0502 strLevelDef p false s)

/-- Levels that wait for the seam go to the string period that starts at it (STR_LEVEL). -/
def State.seamLevels (s : State) : State :=
  (List.range 4).foldl (fun s n =>
    if (s.chan n).seamLvl.isEmpty then s
    else s.modChan n fun c => { c with
      nextLvl := c.seamLvl.foldl (fun t e => tins t e.1 e.2) c.nextLvl
      seamLvl := [] }) s

/-! ### STR_STATUS -/

/-- T_NTC of a channel (STR_STATUS). -/
def State.chanTemp (s : State) (c : Channel) : Nat :=
  if c.ntc = 0 then 0x8000 else twos 16 (s.sensor (19 + c.ntc)).value

/-- The results of STR_STATUS. -/
def strWords (s : State) (n : Nat) : List Word :=
  let c := s.chan n
  let state := ofFlags [c.enable, c.en, c.failUsed, c.allOpen]
  let mask := fun (f : Position → Bool) => ofFlags ((List.range 16).map fun i => f (c.at_ i))
  [w32 (n + 256 * state + 65536 * c.count + 2 ^ 24 * c.ntc), halves c.iSet c.iEff, halves c.fbCode c.d,
   halves (mask fun x => x.opened) (mask fun x => x.shorted), halves (mask fun x => x.switch) (s.chanTemp c)]
    ++ (List.range 16).map fun i => halves (c.at_ i).vOpen ((c.at_ i).applied + 2048 * (c.at_ i).entry.src)

def strStatusDef : OpDef :=
  { jnl := jnlNone
    rlen := fun _ => 21
    len := fun p => decide (p.plen = 1)
    bad := fun p _ => need (decide (p.u8 16 ≤ 3) && p.zero 17 3)
    run := fun _ p s => okOut s (strWords s (p.u8 16)) }

def execStrStatus (p : Pkt) (s : State) : Host.Outcome State Fault Refusal :=
  .next (serveOp 0x0503 strStatusDef p false s)

/-! ### Crest programs (R224, R225) -/

/-- A step of an engine's program. -/
def Crest.at_ (k : Crest) (i : Nat) : Step := tget (fun _ => {}) k.prog i

/-- The step after one; the pointer has 6 bits (DEDUCED, log 26). -/
def nextStep (i : Nat) : Nat := (i + 1) % 64

/-- The value of a RAMP at tick t. -/
def rampAt (c0 a t b : Nat) : Nat := ((c0 : Int) + ((a : Int) - c0) * t / b).toNat

/-- One move of a CHASE. -/
def chase (m flags w : Nat) : Nat :=
  if bitOf flags 0 then
    if bitOf flags 1 then setBit (m / 2 % 2 ^ w) (w - 1) else m / 2 % 2 ^ w
  else (2 * m + b2n (bitOf flags 1)) % 2 ^ w

/-- The engine runs steps until one takes time, `fuel` of them at most that take none: what it leaves,
and whether it ended or ran out. -/
inductive Ran where
  | waits
  | ended
  | fault
  deriving DecidableEq, Repr

/-- See `Ran`. -/
def crestSteps : Nat → Crest → Crest × Ran
  | 0, k =>
    match (k.at_ k.step).op with
    | 0 => ({ k with state := .ended, timing := false }, .ended)
    | 1 => (k, .fault)
    | 5 => (k, .fault)
    | _ => startTimed k
  | n + 1, k =>
    let x := k.at_ k.step
    match x.op with
    | 0 => ({ k with state := .ended, timing := false }, .ended)
    | 1 =>
      crestSteps n { k with
        c := if bitOf x.flags 1 then k.c else x.a
        m := if bitOf x.flags 0 then BitVec.ofNat 16 x.b else k.m
        step := nextStep k.step }
    | 5 =>
      if x.b = 0 then crestSteps n { k with step := x.a }
      else
        let left := (tget (fun _ => none) k.loops k.step).getD x.b
        if 0 < left then
          crestSteps n { k with loops := tput (fun _ => none) k.loops k.step (some (left - 1)), step := x.a }
        else crestSteps n { k with loops := tput (fun _ => none) k.loops k.step none, step := nextStep k.step }
    | _ => startTimed k
where
  /-- A step that takes time begins. -/
  startTimed (k : Crest) : Crest × Ran :=
    let x := k.at_ k.step
    let k := { k with
      timing := true
      t := 0
      c0 := k.c
      seams := if x.op = 6 then x.b else 0
      m := if x.op = 4 then BitVec.ofNat 16 (chase k.m.toNat x.flags x.a) else k.m }
    (k, .waits)

/-- A tick advances the step that takes time; when it ends, whether the engine goes on. -/
def crestAdvance (k : Crest) : Crest × Bool :=
  let x := k.at_ k.step
  if !k.timing then (k, true)
  else if x.op = 6 then (k, false)
  else
    let t := k.t + 1
    let k := { k with t := t, c := if x.op = 2 then rampAt k.c0 x.a t x.b else k.c }
    if x.b ≤ t then ({ k with timing := false, step := nextStep k.step }, true) else (k, false)

/-- An engine runs steps from where it stands, with the events of R228. -/
def State.crestRun (s : State) (i : Nat) : State :=
  let r := crestSteps 16 (s.crest i)
  match r.2 with
  | .waits => s.modCrest i fun _ => r.1
  | .ended => (s.modCrest i fun _ => r.1).evt 0x0503 0 0xFF i r.1.step r.1.ticks 0
  | .fault =>
    (s.modCrest i fun _ => { r.1 with state := .stopped, timing := false }).evt 0x0504 1 0xFF i r.1.step 1 0

/-- A running engine whose tick is due ticks (R224). -/
def State.crestTick (s : State) (i : Nat) : State :=
  let k := s.crest i
  if k.state = .running ∧ k.tickAt ≤ s.clk then
    let a := crestAdvance { k with ticks := k.ticks + 1, tickAt := k.tickAt + 1000000 }
    let s := s.modCrest i fun _ => a.1
    if a.2 then s.crestRun i else s
  else s

def execCrestTick (dt : Nat) (s : State) : Host.Outcome State Fault Refusal :=
  .next ((List.range 8).foldl (fun s i => s.crestTick i) (s.elapse dt))

/-- A latch instant counts for the WAIT_SEAM steps (R225). -/
def State.crestSeam (s : State) : State :=
  (List.range 8).foldl (fun s i =>
    let k := s.crest i
    if k.state = .running ∧ k.timing ∧ (k.at_ k.step).op = 6 then
      s.modCrest i fun k =>
        if k.seams ≤ 1 then { k with seams := 0, timing := false, step := nextStep k.step }
        else { k with seams := k.seams - 1 }
    else s) s

/-! ### CREST_LOAD -/

/-- A step at an offset of a packet. -/
def stepAt (p : Pkt) (o : Nat) : Step := { op := p.u8 o, flags := p.u8 (o + 1), a := p.u16 (o + 2), b := p.u16 (o + 4) }

/-- A step is permitted (R225). -/
def stepOk (x : Step) : Bool :=
  match x.op with
  | 0 => decide (x.flags = 0) && decide (x.a = 0) && decide (x.b = 0)
  | 1 => decide (x.flags ≤ 3)
  | 2 => decide (x.flags = 0) && decide (1 ≤ x.b)
  | 3 => decide (x.flags = 0) && decide (x.a = 0) && decide (1 ≤ x.b)
  | 4 => decide (x.flags ≤ 3) && decide (1 ≤ x.a) && decide (x.a ≤ 16) && decide (1 ≤ x.b)
  | 5 => decide (x.flags = 0) && decide (x.a ≤ 63)
  | 6 => decide (x.flags = 0) && decide (x.a = 0) && decide (1 ≤ x.b)
  | _ => false

/-- The 8 bytes of a step. -/
def stepBytes (x : Step) : List Byte := leBytes 1 x.op ++ leBytes 1 x.flags ++ leBytes 2 x.a ++ leBytes 2 x.b ++ leBytes 2 0

/-- The 512 bytes of a program. -/
def Crest.bytes (k : Crest) : List Byte := (List.range 64).flatMap fun i => stepBytes (k.at_ i)

def crestLoadDef : OpDef :=
  { rlen := fun _ => 1
    len := fun p => decide (p.plen = 1 + 2 * p.u8 18)
    bad := fun p _ => need (decide (p.u8 16 ≤ 7) && decide (1 ≤ p.u8 18) && decide (p.u8 17 + p.u8 18 ≤ 64)
      && p.zero 19 1 && (List.range (p.u8 18)).all fun i =>
        stepOk (stepAt p (20 + 8 * i)) && p.zero (26 + 8 * i) 2)
    gate := fun p s => stop (decide ((s.crest (p.u8 16)).state = .running)
      || decide ((s.crest (p.u8 16)).state = .paused)) stBusy
    run := fun _ p s =>
      let s := s.modCrest (p.u8 16) fun k => { k with
        prog := tputs (fun _ => {}) k.prog (p.u8 17) ((List.range (p.u8 18)).map fun i => stepAt p (20 + 8 * i))
        loops := [] }
      okOut s [w32 (crc32 (s.crest (p.u8 16)).bytes)] }

def execCrestLoad (p : Pkt) (s : State) : Host.Outcome State Fault Refusal :=
  .next (serveOp 0x0504 crestLoadDef p false s)

/-! ### CREST_CONTROL -/

/-- Engines are paused: in IDLE, and while a negotiation has quiesced the strings (R222). -/
def State.crestWaits (s : State) : Bool := decide (s.pwr.state = .idle) || s.str.shut

/-- One engine takes an action (R224, CREST_CONTROL). Where engines are paused, one that is started or resumed is
paused too, and goes on with the others: a started one with a tick at once (DEDUCED, log 26). -/
def State.crestAct (s : State) (a : CrestAct) (i : Nat) : State :=
  let k := s.crest i
  let k := if a.init ∧ (a.action = 1 ∨ a.action = 3) then { k with c := a.level, m := a.mask } else k
  match a.action with
  | 0 => s.modCrest i fun _ => { k with state := .stopped }
  | 1 =>
    let k := { k with step := 0, timing := false, t := 0, loops := [], ticks := 0 }
    if s.crestWaits then s.modCrest i fun _ => { k with state := .paused, left := 0 }
    else (s.modCrest i fun _ => { k with state := .running, tickAt := s.clk + 1000000 }).crestRun i
  | 2 =>
    let k := if k.state = .paused then k else { k with left := 1000000 }
    if k.state = .running ∨ k.state = .ended then s
    else if s.crestWaits then s.modCrest i fun _ => { k with state := .paused }
    else s.modCrest i fun _ => { k with state := .running, tickAt := s.clk + k.left }
  | _ => s.modCrest i fun _ => { k with state := .stopped }

/-- Every named engine takes the action at the same instant. -/
def State.crestControl (s : State) (a : CrestAct) : State :=
  (bitList a.engines.toNat 8).foldl (fun s i => s.crestAct a i) s

/-- The actions that wait for the seam are taken. -/
def State.crestSeamActs (s : State) : State :=
  s.str.seamActs.foldl (fun s a => s.crestControl a) { s with str := { s.str with seamActs := [] } }

/-- The engines running. -/
def State.crestRunning (s : State) : Nat :=
  ofFlags ((List.range 8).map fun i => decide ((s.crest i).state = .running))

/-- The action of a packet. -/
def crestActOf (p : Pkt) : CrestAct :=
  { engines := BitVec.ofNat 8 (p.u8 16)
    action := p.u8 17
    init := bitOf (p.u8 18) 1
    level := p.u16 20
    mask := BitVec.ofNat 16 (p.u16 22) }

def crestControlDef : OpDef :=
  { rlen := fun _ => 1
    len := fun p => decide (p.plen = 2)
    bad := fun p _ => need (decide (p.u8 16 ≠ 0) && decide (p.u8 17 ≤ 3) && decide (p.u8 18 ≤ 3) && p.zero 19 1)
    gate := fun p s => stop (decide (p.u8 17 = 2)
      && (bitList (p.u8 16) 8).any fun i => decide ((s.crest i).state = .ended)) stWrongState
    run := fun _ p s =>
      let a := crestActOf p
      let r := [w32 (s.crestControl a).crestRunning]
      if bitOf (p.u8 18) 0 ∨ p.cls = 1 then
        okOut { s with str := { s.str with seamActs := s.str.seamActs ++ [a] } } r
      else okOut (s.crestControl a) r }

def execCrestStop (p : Pkt) (s : State) : Host.Outcome State Fault Refusal :=
  .next (serveOp 0x0505 crestControlDef (p.fix 17 0) false s)

def execCrestStart (p : Pkt) (s : State) : Host.Outcome State Fault Refusal :=
  .next (serveOp 0x0505 crestControlDef (p.fix 17 1) false s)

def execCrestResume (p : Pkt) (s : State) : Host.Outcome State Fault Refusal :=
  .next (serveOp 0x0505 crestControlDef (p.fix 17 2) false s)

def execCrestStopAndSet (p : Pkt) (s : State) : Host.Outcome State Fault Refusal :=
  .next (serveOp 0x0505 crestControlDef (p.fix 17 3) false s)

end Sys2Proof.Machine
end

