-- ==== Sys2Proof/Machine/SelfTest.lean ====
section
/-! DEFINITION. Self-test in service (13_self_test.md): slices and their results, bank migration,
Spur's handovers, unusable marks, and the opcodes 0x0901 to 0x0904. The runs of TILE tests, the scan
check and PIXEL stand in Pixel.lean and Calib.lean; cut slices in Safe.lean. -/

namespace Sys2Proof.Machine

/-! ### Targets (R290) -/

/-- A target of a type exists. -/
def targetOk (type target : Nat) : Bool :=
  match type with
  | 0 => decide (target ≤ 23)
  | 1 => decide (target ≤ 127)
  | 2 => decide (target ≤ 16)
  | 3 => decide (target ≤ 15)
  | 4 => decide (target = 0)
  | 5 => decide (target ≤ 1)
  | 6 => decide (target = 0)
  | 7 => decide (target ≤ 3)
  | _ => false

/-- Segments per test; none for the continuous types. -/
def segsOf (type : Nat) : Nat :=
  match type with
  | 0 => 320 | 1 => 4 | 2 => 64 | 4 => 1 | 5 => 16 | 7 => 1 | _ => 0

/-- The length of a segment in ns. -/
def segNs (type : Nat) : Nat :=
  match type with
  | 0 => 51200 | 1 => 102400 | 2 => 128000 | 4 => 20000 | 5 => 81920 | _ => 5000

/-- The whole segments that fit within SLICE_US. -/
def State.segsFit (s : State) (type : Nat) : Nat := 1000 * s.fld pBistTiming 15 0 / segNs type

/-- The bit of `nvm.unusable` that marks a target, for the types that have one (R302). -/
def markBit (type target : Nat) : Option Nat :=
  match type with
  | 2 => some target
  | 3 => some (32 + target)
  | 5 => some (17 + target)
  | 7 => some (19 + target)
  | _ => none

/-- A target is marked unusable (R295, R302): for MEM the bank left over once it has failed, for GOV
either unit. -/
def State.targetMarked (s : State) (type target : Nat) : Bool :=
  match type with
  | 0 => decide (target = 23) && s.nvm.spare.isNone
  | 4 => s.marked 23 || s.marked 24
  | _ => match markBit type target with
    | some b => s.marked b
    | none => false

/-- Spur is idle. -/
def State.spurIdle (s : State) : Bool :=
  match s.bist.spur with
  | .idle => true
  | _ => false

/-- A lane carries nothing (R301): in DETECT, or held off. -/
def State.laneFree (s : State) (l : Nat) : Bool :=
  decide ((if l = 0 then s.link.laneA else s.link.laneB).stage = .detect)

/-- The power state admits a type (R292). -/
def State.bistPower (s : State) (type : Nat) : Bool :=
  decide (s.pwr.boot = .up)
    && (decide (s.pwr.state = .active) || (decide (s.pwr.state = .idle) && decide (type ≠ 2)))
    && (decide (type ≠ 2) || s.frm.running) && !(s.quiesced 1 && (decide (type = 2) || s.sleeping))

/-- Spur serves a tile for its test. -/
def State.spurTests (s : State) (t : Nat) : Bool :=
  match s.bist.spur with
  | .testing u => decide (u = t)
  | _ => false

/-- A target can be tested now, marks apart (R292, R293, R295, R301). -/
def State.testable (s : State) (type target : Nat) : Bool :=
  s.bistPower type && !s.thm.jInhibit &&
  match type with
  | 0 => s.nvm.spare.isSome
  | 1 => !s.thm.inhibit
  | 2 => s.spurIdle || s.spurTests target
  | 5 => s.laneFree target
  | 7 => (s.cvu target).run.isNone
  | _ => true

/-- A scheduled target takes its turn (R292). -/
def State.inTurn (s : State) (i : Nat) : Bool :=
  let x := bistTargets.getD i (0, 0)
  s.flag pBistCtrl x.1 && !s.targetMarked x.1 x.2 && s.testable x.1 x.2 && (s.bistJob x.1 x.2).isNone

/-! ### Slices begin (R290, R292, R294, R297) -/

/-- The slice of a target starts; a lane's PHY is powered for it (R301). -/
def State.beginSlice (s : State) (type target : Nat) : State :=
  let s := (s.bump pSlicesRun 1).modTest type target fun r => { r with state := 1 }
  let s := if type = 5 then s.setLane (laneNo target) { s.lane (laneNo target) with phyOn := true } else s
  let s := { s with bist := { s.bist with slice := some (type, target) } }
  if type = 2 ∧ target = 16 ∧ s.spurIdle then { s with bist := { s.bist with spur := .underTest } } else s

/-- What a target needs before its slices run: a bank is migrated first, a tile is handed to Spur at a
seam; otherwise the slice starts. A marked block is not in service, and needs neither. -/
def State.startOn (s : State) (type target : Nat) : State :=
  if type = 0 ∧ target < 23 ∧ s.bist.marched ≠ some target then
    if s.bist.migrating.isSome then s else { s with bist := { s.bist with migrating := some target } }
  else if type = 2 ∧ target < 16 ∧ !s.marked target ∧ !s.spurTests target then
    if s.bist.move.isSome then s else { s with bist := { s.bist with move := some (.take target 0), movedIn := false } }
  else s.beginSlice type target

/-- The BIST_RUN in progress: its type, target and whether it retests. -/
def State.runTarget (s : State) : Option (Nat × Nat × Bool) :=
  s.cmd.jobs.findSome? fun b => match b.kind with
    | .bistRun ty tg re => some (ty, tg, re)
    | _ => none

/-- The rotation's next slice (R292): targets that cannot take their turn are passed over. -/
def State.rotate (s : State) : State :=
  let order := (List.range 176).map fun k => (s.bist.turn + k) % 176
  match order.find? s.inTurn with
  | some i =>
    let x := bistTargets.getD i (0, 0)
    (s.turnTo i).startOn x.1 x.2
  | none => s

/-- GAP_MS has passed since the end of the previous slice (R292, BIST_RUN). -/
def State.gapOver (s : State) : Bool :=
  match s.bist.lastEnd with
  | some t => decide (t + 1000000 * s.fld pBistTiming 31 16 ≤ s.clk)
  | none => true

/-- SAFE first read 2 at least 1 s ago (R292). -/
def State.safeFor1s (s : State) : Bool :=
  match s.diag.safeTwo with
  | some t => decide (t + 10 ^ 9 ≤ s.clk)
  | none => false

/-- A slice is due: GOV replays its vectors after a mismatch (R300), a BIST_RUN goes ahead of the
rotation, and the rotation runs while AUTO is 1, from 1 s after SAFE has first read 2. -/
def State.sliceDue (s : State) : State :=
  if s.bist.slice.isSome then s
  else if s.sad.replayGov ∧ s.bistPower 4 ∧ !s.thm.jInhibit ∧ !s.targetMarked 4 0 then s.beginSlice 4 0
  else if !s.gapOver then s
  else match s.runTarget with
    | some (ty, tg, re) =>
      if s.testable ty tg || (re && s.bistPower ty && !s.thm.jInhibit) then s.startOn ty tg else s
    | none => if s.flag pBistCtrl 8 && s.safeFor1s then s.rotate else s

def execBistSliceStart (dt : Nat) (s : State) : Host.Outcome State Fault Refusal :=
  .next ((s.elapse dt).sliceDue)

/-! ### Bank migration (R294, R295) -/

/-- The physical bank of a logical bank: by default its own number. -/
def State.bankOf (s : State) (l : Nat) : Nat := tget (fun n => n) s.nvm.bankMap l

/-- The migration cursor has passed the last line, each read as Talus reads: the map changes in both its copies
(R295), and BANK_MIGRATED. While MRAM writes are inhibited the map cannot change (R314). -/
def State.migrated (s : State) (l : Nat) : State :=
  let s := (s.readSpan 0 (0x80000 * l) 0x80000).1
  match s.nvm.spare with
  | none => s
  | some q =>
    if s.thm.inhibit then s else
    let p := s.bankOf l
    let s := { s with
      nvm := { s.nvm with
        bankMap := tput (fun n => n) s.nvm.bankMap l q
        bankTwin := tput (fun n => n) s.nvm.bankTwin l q
        spare := some p }
      bist := { s.bist with migrating := none, marched := some l } }
    s.evt 0x0903 0 0xFF l (q + 256 * p) 0 s.frm.frame.toNat

def execBankMigrated (dt : Nat) (s : State) : Host.Outcome State Fault Refusal :=
  let s := s.elapse dt
  .next (match s.bist.migrating with | some l => s.migrated l | none => s)

/-! ### Marks and returns (R298 to R302) -/

/-- An MRAM sector fails its margined read: a free spare sector replaces it (R303). The failing line
is not stated: a free value (DESIGN CHOICE, log 3). -/
def State.sectorFails (s : State) (n : Nat) : State :=
  let logical := if n < 120 then some n
    else (List.range 120).find? fun k => decide (tget (fun _ => none) s.nvm.remap k = some (n - 120))
  match logical with
  | none => { s with nvm := { s.nvm with spares := tput (fun _ => 0) s.nvm.spares (n - 120) 2 } }
  | some k =>
    let f := s.freeW
    match f.1.freeSpare 0 with
    | some q => f.1.remapSector (0x10000000 + 65536 * k + 64 * (f.2.toNat % 1024)) q
    | none => s

/-- A block fails its test: it is marked, and what replaces it takes over (R295, R298, R300 to R303). `unit` is the
mark of the Saddle unit that fails alone, or 0. -/
def State.blockFails (s : State) (type target : Nat) (unit : Nat) : State :=
  match type with
  | 0 =>
    let bad := match s.nvm.spare with
      | some p => sortIns p s.nvm.bankBad
      | none => s.nvm.bankBad
    let s := s.holdStored
    { s with
      nvm := { s.nvm with bankBad := bad, spare := none }
      bist := { s.bist with marched := none } }
  | 1 => s.sectorFails target
  | 2 =>
    if s.marked target then s
    else if target = 16 then
      let s := (s.mark 16).latchFault 2
      { s with bist := { s.bist with spur := .unusable } }
    else
      let f := ((s.mark target).latchFault 2).freeW
      let s := f.1.evt 0x0604 2 0xFF target 0 f.2.toNat s.frm.frame.toNat
      ({ s with bist := { s.bist with spur := .serving target, move := none, movedIn := false } }).degrade
  | 4 => if unit = 0 then s else s.mark unit
  | 5 => (s.mark (17 + target)).modLane (laneNo target) fun x =>
      { laneIdle x with phyOn := false, backoff := 0, backoffRun := false }
  | 7 => s.mark (19 + target)
  | _ => s

/-- A mark is cleared. -/
def State.unmark (s : State) (b : Nat) : State :=
  let s := s.holdStored
  { s with nvm := { s.nvm with unusable := s.nvm.unusable.filter fun x => x ≠ b } }

/-- A RETEST has passed: the block returns to service (R302). -/
def State.restored (s : State) (type target : Nat) : State :=
  let s := s.evt 0x0904 0 0xFF type target 0 0
  match type with
  | 0 =>
    let s := s.holdStored
    { s with nvm := { s.nvm with
      spare := match s.nvm.spare, s.nvm.bankBad with
        | none, p :: _ => some p
        | x, _ => x
      bankBad := if s.nvm.spare.isNone then s.nvm.bankBad.drop 1 else s.nvm.bankBad } }
  | 2 =>
    let s := s.unmark target
    if target = 16 then { s with bist := { s.bist with spur := .idle } }
    else if s.spurTile = target then
      { s with bist := { s.bist with move := some (.giveBack 0), movedIn := false } }
    else if (s.tile target).loader = .held then (s.setLoader target .own).freshLoads target
    else s
  | 4 => (s.unmark 23).unmark 24
  | 5 => (s.unmark (17 + target)).modLane (laneNo target) fun x => { x with phyOn := true }
  | 7 => s.unmark (19 + target)
  | _ => s

/-! ### Slices end (R291, R300) -/

/-- The severity of BIST_FAIL (R305). -/
def failSev (type target : Nat) : Nat :=
  if type = 3 ∨ type = 4 ∨ (type = 2 ∧ target = 16) then 3 else 2

/-- A segment has failed: the block is marked, BIST_FAIL, and a BIST_RUN of it ends. -/
def State.sliceFails (s : State) (type target unit : Nat) (r : SegResult) : State :=
  let s := s.bump pBistFails 1
  let s := s.modTest type target fun x => { x with
    state := 3
    fails := satAdd 16 x.fails 1
    seg := 0 }
  let s := s.turnOver type target
  let s := s.blockFails type target unit
  let s := s.evt 0x0901 (failSev type target) 0xFF type target r.signature.toNat r.expected.toNat
  match s.bistJob type target with
  | some b => s.endJob b stCheckFail b.step (decide (0 < b.step)) 0
  | none => s

/-- What a test that is over leaves of Spur and the bank: the tile goes back at a seam (R297). -/
def State.testLeaves (s : State) (type target : Nat) : State :=
  match type with
  | 0 => { s with bist := { s.bist with marched := none } }
  | 2 => if s.spurTests target then
      { s with bist := { s.bist with move := some (.giveBack 0), movedIn := false } } else s
  | _ => s

/-- Every segment of a test has passed (R291): a BIST_RUN of it ends, a RETEST restores the block. -/
def State.testPasses (s : State) (type target : Nat) : State :=
  let s := s.modTest type target fun x => { x with
    seg := 0
    lastPass := BitVec.ofNat 32 (s.pwr.devtime.toNat / 1000000) }
  let s := (s.turnOver type target).testLeaves type target
  match s.bistJob type target with
  | some b =>
    let retest := match b.kind with | .bistRun _ _ re => re | _ => false
    let s := if retest then s.restored type target else s
    s.endJob b stOk b.steps false 0
  | none => s

/-- One segment of the running slice ends: whether the slice goes on. -/
def State.segEnds (s : State) (type target : Nat) (r : SegResult) : State × Bool :=
  let s := s.modTest type target fun x => { x with
    sig := r.signature
    expected := r.expected
    patterns := r.patterns
    complete := r.complete }
  if !r.complete then ((s.sliceAborted type target).abortLeaves type target, false)
  else if r.signature ≠ r.expected then (s.sliceFails type target 0 r, false)
  else
    let s := s.modTest type target fun x => { x with
      state := 2
      aborts := 0
      starved := false
      seg := x.seg + 1 }
    let s := match s.bistJob type target with | some b => s.jobStep b | none => s
    if segsOf type ≤ (s.test type target).seg then (s.testPasses type target, false) else (s, true)

/-- The segments of a slice in order, up to the first that does not pass. -/
def State.segsEnd (s : State) (type target : Nat) : List SegResult → State
  | [] => s
  | r :: l =>
    let x := s.segEnds type target r
    if x.2 then x.1.segsEnd type target l else x.1

/-- A unit has passed its known vectors. -/
def unitPassed (r : SegResult) : Bool := r.complete && decide (r.signature = r.expected)

/-- A GOV slice fails with the result of a unit; `unit` is the mark of one that fails alone. -/
def State.govFails (s : State) (unit : Nat) (r : SegResult) : State :=
  (s.modTest 4 0 fun x => { x with
    sig := r.signature
    expected := r.expected
    patterns := r.patterns
    complete := true }).sliceFails 4 0 unit r

/-- A GOV slice ends (R300): the first result is the primary's, the second the duplicate's. A unit that fails
alone is marked; where both fail neither is, and the slice is a fail as R291 has it (DESIGN CHOICE: R300 does not
say what its result is; log 40). -/
def State.govEnds (s : State) (a b : SegResult) : State :=
  let s := { s with sad := { s.sad with replayGov := false } }
  if !a.complete ∨ !b.complete then (s.segEnds 4 0 { a with complete := false }).1
  else match unitPassed a, unitPassed b with
    | true, true => (s.segEnds 4 0 a).1
    | true, false => s.govFails 24 b
    | false, true => s.govFails 23 a
    | false, false => s.govFails 0 a

/-- A slice is over: Spur is no longer under test, and a lane held off is without power again. -/
def State.sliceOver (s : State) : State :=
  let s := match s.bist.slice with
    | some (5, n) => s.laneTested n
    | _ => s
  let s := { s with bist := { s.bist with slice := none, lastEnd := some s.clk } }
  match s.bist.spur with
  | .underTest => { s with bist := { s.bist with spur := .idle } }
  | _ => s

def execSliceEnd (dt : Nat) (segs : List SegResult) (s : State) : Host.Outcome State Fault Refusal :=
  let s := s.elapse dt
  .next (match s.bist.slice, segs with
    | some (ty, tg), r :: l =>
      let s := s.sliceOver
      if ty = 4 then s.govEnds r (l.headD r) else s.segsEnd ty tg ((r :: l).take (max 1 (s.segsFit ty)))
    | _, _ => s)

/-! ### TRAIN_TAP_MISMATCH (R301) -/

/-- The tap fails a lane as a LANE test would; no signature is stated: free values (DESIGN CHOICE, log 3). -/
def State.tapFails (s : State) (l : Lane) : State :=
  let f := s.freeW
  let g := f.1.freeW
  g.1.sliceFails 5 l.num 0 { signature := f.2, expected := g.2, patterns := 0, complete := true }

def execTrainTapMismatch (dt : Nat) (lane : Lane) (s : State) : Host.Outcome State Fault Refusal :=
  let s := (s.elapse dt).lines
  .next (if (s.lane lane).stage = .train ∧ !s.marked (17 + lane.num) then s.tapFails lane else s)

/-! ### Spur at a seam (R297, SPUR_ASSIGN) -/

/-- A tile that Spur leaves: its own engine takes it, or with that marked it holds limp codes. -/
def State.leftBySpur (s : State) (t : Nat) : State :=
  if s.marked t then
    (((s.setLoader t .held).freshLoads t).latchFault 3 |>.addCause 13).limpTile t
  else (s.setLoader t .own).freshLoads t

/-- The handover whose cutoff has passed takes effect at the latch instant. -/
def State.spurSeam (s : State) : State :=
  if !s.bist.movedIn then s
  else match s.bist.move with
    | none => s
    | some (.take t why) =>
      let old := s.spurTile
      let s := s.spurMove (if why = 0 then .testing t else .serving t) why
      let s := if old < 16 ∧ old ≠ t then s.leftBySpur old else s
      (s.setLoader t .spur).freshLoads t
    | some (.giveBack why) =>
      let old := s.spurTile
      let s := s.spurMove .idle why
      if old < 16 then s.leftBySpur old else s

/-- The marks at a full reset (R302): a tile whose engine is marked gets Spur if it is idle and
usable, a further one holds limp codes. -/
def State.assignMarked (s : State) : State :=
  let s := if s.marked 16 then { s with bist := { s.bist with spur := .unusable } } else s
  (List.range 16).foldl (fun s t =>
    if !s.marked t then s
    else if s.spurIdle then (s.setLoader t .spur).spurMove (.serving t) 1
    else (((s.setLoader t .held).latchFault 3).addCause 13).limpTile t) s

/-! ### BIST_CONFIG -/

def bistConfigDef : OpDef :=
  { rlen := fun _ => 1
    len := fun p => decide (p.plen = 2)
    bad := fun p _ => need (bitOf (p.u8 16) 3 && bitOf (p.u8 16) 6 && decide (p.u8 17 ≤ 1)
      && decide (150 ≤ p.u16 18) && decide (p.u16 18 ≤ 1000) && decide (1 ≤ p.u16 20)
      && decide (p.u16 20 ≤ 10000) && p.zero 22 2)
    run := fun _ p s =>
      okOut ((s.setLive pBistCtrl (p.u8 16 + 256 * p.u8 17)).setLive pBistTiming (p.u16 18 + 65536 * p.u16 20))
        [w32 (s.live pBistCtrl)] }

def execBistConfig (p : Pkt) (s : State) : Host.Outcome State Fault Refusal :=
  .next (serveOp 0x0901 bistConfigDef p false s)

/-! ### BIST_RUN -/

/-- The state refuses a BIST_RUN of a target. -/
def State.runRefused (s : State) (ty tg : Nat) (retest : Bool) : Bool :=
  (s.targetMarked ty tg != retest) || !s.bistPower ty
    || (decide (ty = 0) && decide (tg < 23) && s.nvm.spare.isNone)
    || (decide (ty = 2) && !retest && !s.spurIdle) || (decide (ty = 5) && !s.laneFree tg)

def bistRunDef : OpDef :=
  { len := fun p => decide (p.plen = 1)
    bad := fun p _ => need (decide (segsOf (p.u8 16) ≠ 0) && targetOk (p.u8 16) (p.u8 17)
      && decide (p.u16 18 ≤ 1))
    gate := fun p s => orElse9 (stop (s.runRefused (p.u8 16) (p.u8 17) (bitOf (p.u16 18) 0)) stWrongState)
      (stop s.runTarget.isSome stBusy)
    run := fun j p s =>
      let s := s.modTest (p.u8 16) (p.u8 17) fun x => { x with seg := 0, aborts := 0 }
      s.startJob (.bistRun (p.u8 16) (p.u8 17) (bitOf (p.u16 18) 0)) 0x0902 p j (segsOf (p.u8 16)) }

def execBistRun (p : Pkt) (s : State) : Host.Outcome State Fault Refusal :=
  .next (serveOp 0x0902 bistRunDef p false s)

/-! ### BIST_RESULT -/

/-- STATE of a result: unusable while the block is marked. -/
def State.resultState (s : State) (ty tg : Nat) : Nat :=
  if s.targetMarked ty tg && decide ((s.test ty tg).state ≠ 1) then 5 else (s.test ty tg).state

/-- The SIGNATURE word: for SEQ the checks since the last full reset, which the model does not count
(a free value, DESIGN CHOICE, log 3). -/
def State.resultSig (s : State) (ty tg : Nat) : State × Word :=
  if ty = 6 then s.freeW else (s, (s.test ty tg).sig)

/-- The results of BIST_RESULT. -/
def bistWords (s : State) (ty tg : Nat) (sig : Word) : List Word :=
  let r := s.test ty tg
  let cont := decide (ty = 3) || decide (ty = 6)
  [w32 (ty + 256 * tg + 65536 * s.resultState ty tg + 2 ^ 24 * ofFlags [r.complete, s.targetMarked ty tg]),
   sig, if cont then 0 else r.expected, w32 r.patterns, halves r.seg (segsOf ty), halves r.aborts r.fails,
   r.lastPass, 0]
    ++ wordsOf ((List.range 23).flatMap (fun l => leBytes 1 (s.bankOf l))
      ++ leBytes 1 (match s.nvm.spare with | some p => p | none => 0xFF))
    ++ [w32 (ofBitList s.nvm.bankBad), w32 (ofBitList (s.nvm.unusable.filter fun b => b < 25)),
        w32 ((match s.bist.spur with | .underTest => 0xFE | _ => s.spurTile)
          + 256 * (match s.bist.slice with | some x => x.1 | none => 0xFF))]

def bistResultDef : OpDef :=
  { jnl := jnlNone
    rlen := fun _ => 17
    len := fun p => decide (p.plen = 1)
    bad := fun p _ => need (targetOk (p.u8 16) (p.u8 17) && p.zero 18 2)
    run := fun _ p s =>
      let x := s.resultSig (p.u8 16) (p.u8 17)
      okOut x.1 (bistWords x.1 (p.u8 16) (p.u8 17) x.2) }

def execBistResult (p : Pkt) (s : State) : Host.Outcome State Fault Refusal :=
  .next (serveOp 0x0903 bistResultDef p false s)

/-! ### SPUR_ASSIGN -/

/-- The state refuses a SPUR_ASSIGN of a tile (0xFF releases Spur). -/
def State.spurRefused (s : State) (t : Nat) (force : Bool) : Bool :=
  s.marked 16 || (decide (t < 16) && !s.marked t && decide ((s.tile t).loader ≠ .held))
    || (decide (s.spurTile < 16) && decide (s.spurTile ≠ t) && s.marked s.spurTile && !force)

def spurAssignDef : OpDef :=
  { rlen := fun _ => 1
    len := fun p => decide (p.plen = 1)
    bad := fun p _ => need ((decide (p.u8 16 ≤ 15) || decide (p.u8 16 = 0xFF)) && decide (p.u8 17 ≤ 1)
      && p.zero 18 2)
    gate := fun p s => stop (s.spurRefused (p.u8 16) (bitOf (p.u8 17) 0)) stWrongState
    run := fun _ p s =>
      let old := s.spurTile
      let s := s.abortSlice fun ty _ => decide (ty = 2)
      let move : Option SpurMove :=
        if old = p.u8 16 then none
        else if p.u8 16 = 0xFF then some (.giveBack 2) else some (.take (p.u8 16) 2)
      okOut { s with bist := { s.bist with move := move, movedIn := false } } [w32 (old + 256 * p.u8 16)] }

def execSpurAssign (p : Pkt) (s : State) : Host.Outcome State Fault Refusal :=
  .next (serveOp 0x0904 spurAssignDef p false s)

end Sys2Proof.Machine
end

