-- ==== Sys2Proof/Machine/Thermal.lean ====
section
/-! DEFINITION. Temperature and throttling (14_thermal.md): the sensors and their substitutes, TF,
the levels, the NTC inputs and compensation tables, and the opcodes 0x0A01 and 0x0A02. Temperatures
are in 0.1 degrees C. -/

namespace Sys2Proof.Machine

/-! ### Settings (R318) -/

/-- WARN in 0.1 degrees C. -/
def State.thWarn (s : State) : Int := 10 * s.fld pThermLevels 7 0
/-- THROTTLE_START in 0.1 degrees C. -/
def State.thStart (s : State) : Int := 10 * s.fld pThermLevels 15 8
/-- SHUTDOWN in 0.1 degrees C. -/
def State.thShut (s : State) : Int := 10 * s.fld pThermLevels 23 16
/-- CRIT in 0.1 degrees C. -/
def thCrit : Int := 1600
/-- PLAUS_RATE in degrees C per s. -/
def State.plausRate (s : State) : Nat := s.fld pThermPlaus 7 0

/-! ### Sensors (R306, R310) -/

/-- Change a sensor. -/
def State.modSensor (s : State) (n : Nat) (f : Sensor → Sensor) : State :=
  { s with thm := { s.thm with sensors := tmod (fun _ => {}) s.thm.sensors n f } }

/-- The neighbours of an on-die sensor (R306). -/
def sensorNeighbours (n : Nat) : List Nat :=
  if n < 16 then
    (if n % 8 = 0 then [] else [n - 1]) ++ (if n % 8 = 7 then [] else [n + 1]) ++ [(n + 8) % 16, 16 + n % 8 / 2]
  else
    let c := n - 16
    (if c = 0 then [] else [n - 1]) ++ (if c = 3 then [] else [n + 1]) ++ [2 * c, 2 * c + 1, 2 * c + 8, 2 * c + 9]

/-- The sum of integers. -/
def sumI (l : List Int) : Int := l.foldl (· + ·) 0

/-- A number differs from the mean of others by more than a limit. -/
def farFromMean (r : Int) (l : List Int) (lim : Int) : Bool :=
  let k : Int := l.length
  !l.isEmpty && (decide (k * lim < k * r - sumI l) || decide (k * lim < sumI l - k * r))

/-- Readings no older than so many ns, newest first. -/
def recent (now span : Nat) (l : List (Nat × Int)) : List (Nat × Int) :=
  l.filter fun e => decide (now ≤ e.1 + span)

/-- The on-die checks of R310 on a reading: range, rate over the last 10 ms, neighbours now. -/
def State.rangeBad (r : Int) : Bool := decide (r < -550) || decide (2000 < r)
/-- See `State.rangeBad`. -/
def State.rateBad (s : State) (n : Nat) (r : Int) : Bool :=
  match (recent s.clk 10000000 (s.sensor n).hist).getLast? with
  | some e => decide ((s.plausRate : Int) + 100 < 10 * (r - e.2)) || decide ((s.plausRate : Int) + 100 < 10 * (e.2 - r))
  | none => false
/-- See `State.rangeBad`. -/
def State.neighBad (s : State) (readings : List Int) (n : Nat) : Bool :=
  farFromMean (readings.getD n 0)
    (((sensorNeighbours n).filter fun m => !(s.sensor m).failed).map fun m => readings.getD m 0)
    (10 * s.fld pThermPlaus 15 8)

/-- How an input is judged: its record with the new reading, and 1 when it has failed, 2 when it is
restored, 0 otherwise. `now` is the check that it breaks at this update, `soft` a check that must
break for 1 s before the input fails. -/
def judged (clk span : Nat) (x : Sensor) (r : Int) (now soft : Nat) : Sensor × Nat :=
  let dev := if soft = 0 then none else some (x.devSince.getD clk)
  let long : Bool := match dev with | some t => decide (t + 1000000000 ≤ clk) | none => false
  let code := if now ≠ 0 then now else if long then soft else 0
  let ok := if now = 0 ∧ soft = 0 then some (x.okSince.getD clk) else none
  let held : Bool := match ok with | some t => decide (t + 1000000000 ≤ clk) | none => false
  let y := { x with
    reading := r
    hist := (clk, r) :: recent clk span x.hist
    devSince := dev
    okSince := if x.failed then ok else none
    fresh := false }
  if !x.failed ∧ code ≠ 0 then ({ y with failed := true, check := code, failAt := clk, okSince := none }, 1)
  else if x.failed ∧ x.okSince.isSome ∧ held then ({ y with failed := false, check := 0, okSince := none }, 2)
  else (y, 0)

/-- One on-die sensor is judged (R310): its new record, and what became of it. -/
def State.judgeOne (s : State) (readings : List Int) (n : Nat) : Sensor × Nat :=
  let x := s.sensor n
  let r := readings.getD n 0
  let now := if State.rangeBad r then 1 else if s.rateBad n r then 2 else 0
  let j := judged s.clk 10000000 x r now (if s.neighBad readings n then 3 else 0)
  if j.2 = 1 then
    ({ j.1 with
      vLast := if n < 16 then tget (fun _ => 0) s.thm.ledEst n else x.value
      wasHot := !x.fresh && decide (s.thm.hot = n) && decide (s.thm.tf < 4096) }, 1)
  else j

/-! ### Values in use (R307, R311) -/

/-- The temperature that a tile's LED power adds (R307): committed sums, which hold K already (R141),
in limp the ISENSE mean / 16, 0 in dark, outside ACTIVE, and until the light is back. -/
def State.ledRise (s : State) (t mv : Nat) : Int :=
  let rth := s.fld pThermRth 15 0
  if s.diag.safe = 4 ∨ s.pwr.state ≠ .active ∨ s.pwr.pixOff then 0
  else if s.diag.safe = 3 then (rth * s.sad.measMean * mv / (16 * 10000000) : Nat)
  else (rth * s.sad.tileLast.getD t 0 * mv / 10000000000 : Nat)

/-- The highest of some integers. -/
def maxI (a : Int) (l : List Int) : Int := l.foldl max a

/-- The substitute of a failed sensor (R311): `use m` is the value in use of a plausible neighbour. -/
def State.substituteTemp (s : State) (use : Nat → Int) (n : Nat) : Int :=
  let x := s.sensor n
  let cap := s.thStart + 200
  let near := match (sensorNeighbours n).filter fun m => !(s.sensor m).failed with
    | [] => cap
    | a :: l => maxI (use a) (l.map use) + 100
  if x.wasHot then
    let g := min (x.vLast + (10 * s.plausRate * (s.clk - x.failAt) / 1000000000 : Nat)) cap
    max near (max g x.vLast)
  else near

/-- The value in use of a plausible sensor: a tile's LED estimate, or a core reading. -/
def State.ownTemp (s : State) (vled : List Nat) (n : Nat) : Int :=
  let r := (s.sensor n).reading
  if n < 16 then r + s.ledRise n (vled.getD n 0) else r

/-- Every on-die sensor's value in use and every tile's LED estimate are formed. -/
def State.formTemps (s : State) (vled : List Nat) : State :=
  let own := s.ownTemp vled
  (List.range 20).foldl (fun t n =>
    let x := s.sensor n
    let v := if x.failed then s.substituteTemp own n else own n
    let t := t.modSensor n fun y => { y with value := if x.failed ∨ 16 ≤ n then v else x.reading }
    if n < 16 then { t with thm := { t.thm with ledEst := tput (fun _ => 0) t.thm.ledEst n v } } else t) s

/-- The value that counts for T_th: L_t of a tile, a core sensor's value in use. -/
def State.useTemp (s : State) (n : Nat) : Int :=
  if n < 16 then tget (fun _ => 0) s.thm.ledEst n else (s.sensor n).value

/-- T_th and the input that gives it: the lowest-numbered of the highest. -/
def State.hottest (s : State) : Int × Nat :=
  (List.range 20).foldl (fun b n => if b.1 < s.useTemp n then (s.useTemp n, n) else b) (s.useTemp 0, 0)

/-- A substitute is in use. -/
def State.substituting (s : State) : Bool := (List.range 20).any fun n => (s.sensor n).failed

/-! ### Events of sensors (R310, R312, R319) -/

/-- THERM_SENSOR of one input: what became of it is 1 for a failure, 2 for a restoration. -/
def State.sensorEvt (s : State) (n what : Nat) : State :=
  let x := s.sensor n
  if what = 0 then s
  else s.evt 0x0A02 2 0xFF n (what - 1) (if what = 1 then x.check else 0)
    (twos 32 (if n < 16 then tget (fun _ => 0) s.thm.ledEst n else x.value))

/-- Three or more on-die sensors failed at once (R312). -/
def State.manyFailed (s : State) (last : Nat) : State :=
  let many := decide (3 ≤ ((List.range 20).filter fun n => (s.sensor n).failed).length)
  let old := s.thm.multiSev3
  let s := { s with thm := { s.thm with multiSev3 := many } }
  if many ∧ !old then
    (s.latchFault 8).evt 0x0A02 3 0xFF last 0 (s.sensor last).check (twos 32 (s.useTemp last))
  else s

/-! ### Levels (R313, R314) -/

/-- A multi-line MRAM operation that SHUTDOWN stops. -/
def storesMram (b : Job) : Bool :=
  match b.kind with
  | .sceneStore _ _ _ => true
  | .calSweep _ _ _ => true
  | .calCommit _ => true
  | _ => false

/-- SHUTDOWN is reached: MRAM writes are inhibited, the stores end, the THERMAL cause is added. -/
def State.shutdown (s : State) : State :=
  let s := (s.cmd.jobs.filter storesMram).foldl (fun s b => s.stopStore b stAbortThermal) s
  ((({ s with thm := { s.thm with inhibit := true } }).bump pShutdowns 1).shutStrings).addCause 11

/-- A CVU run ends at CRIT; its result and the bytes read are not stated: free values (DESIGN CHOICE, log 3). -/
def State.stopRun (s : State) (u : Nat) : State :=
  match s.cvuJob u with
  | some b =>
    let f := s.freeW
    let g := f.1.freeW
    g.1.endRun u b stAbortThermal f.2.toNat g.2.toNat
  | none => s

/-- CRIT is reached: journal writes wait, slices and CVU runs stop. -/
def State.critical (s : State) : State :=
  let s := ({ s with thm := { s.thm with jInhibit := true } }).abortSlice fun _ _ => true
  (List.range 4).foldl (fun s u => s.stopRun u) s

/-- The level changes, with THERM_LEVEL (R319). -/
def State.setLevel (s : State) (n : Nat) : State :=
  let old := s.thm.level
  if n = old then s
  else
    ({ s with thm := { s.thm with level := n } }).evt 0x0A01 (if n < old then 0 else if 3 ≤ n then 3 else 1)
      0xFF n old (twos 32 s.thm.tTh) s.thm.tf

/-- The level below SHUTDOWN that T_th and TF give. -/
def State.lowLevel (s : State) (e : Int) : Nat :=
  if 0 < e ∨ s.thm.pre ∨ s.thm.tf < 4096 then 2 else if s.thm.warned then 1 else 0

/-- The levels are checked at an update with the excess E. -/
def State.checkLevels (s : State) (e : Int) : State :=
  let t := s.thm.tTh
  let s := { s with thm := { s.thm with
    warned := decide (s.thWarn ≤ t) || (s.thm.warned && decide (s.thWarn - 20 ≤ t)) } }
  let old := s.thm.level
  let new := if thCrit ≤ t then 4 else if s.thShut ≤ t then 3 else 0
  if 3 ≤ max old new then
    let s := s.setLevel (max old new)
    let s := if old < 3 then s.shutdown else s
    if new = 4 ∧ old < 4 then s.critical else s
  else s.setLevel (s.lowLevel e)

/-! ### The update (R307 to R309) -/

/-- T_th 250 ms earlier, once that much history exists. -/
def State.tempBefore (s : State) : Option Int :=
  (s.thm.tHist.find? fun e => decide (e.1 + 250000000 ≤ s.clk)).map (·.2)

/-- The history of T_th: what is younger than 250 ms, and the newest of what is not. -/
def trimHist (now : Nat) (l : List (Nat × Int)) : List (Nat × Int) :=
  recent now 249999999 l ++ (l.filter fun e => decide (e.1 + 250000000 ≤ now)).take 1

/-- The target factor for an excess (R308). -/
def State.targetTf (s : State) (e : Int) : Nat :=
  if s.flag pThermCtrl 0 then
    max (s.fld pThermSlope 28 16) (4096 - e.toNat * s.fld pThermSlope 11 0 / 10)
  else 4096

/-- T_th is below SHUTDOWN - HYST (R313). -/
def State.cool (s : State) : Bool := decide (s.thm.tTh < s.thShut - 10 * s.fld pThermRth 23 16)

/-- TF, prediction and levels from T_th. -/
def State.throttle (s : State) : State :=
  let t := s.thm.tTh
  let rate := match s.tempBefore with | some b => 4 * (t - b) | none => 0
  let pre := s.flag pThermCtrl 1 && decide ((s.fld pThermRise 7 0 : Int) < rate)
  let p := t + rate * s.fld pThermRise 15 8 / 10
  let used := if pre then max t p else t
  let e := max 0 (used - s.thStart)
  let goal := s.targetTf e
  let was := s.thm.pre
  let s := { s with thm := { s.thm with
    tHist := (s.clk, t) :: trimHist s.clk s.thm.tHist
    rate := rate
    tPred := used
    pre := pre
    tfTarget := goal
    tf := min s.thm.tf goal
    coolSince := if s.cool then some (s.thm.coolSince.getD s.clk) else none
    peak := max s.thm.peak t } }
  let s := if pre = was then s
    else s.evt 0x0A03 1 0xFF (b2n pre) (twos 16 rate) (twos 32 p) s.thm.tf
  s.checkLevels e

/-- One update of the thermal monitor. -/
def State.thermalUpdate (s : State) (readings : List Int) (vled : List Nat) : State :=
  let j := (List.range 20).map fun n => s.judgeOne readings n
  let what := fun (n : Nat) => (j.getD n ({}, 0)).2
  let s := (List.range 20).foldl (fun s n => s.modSensor n fun _ => (j.getD n ({}, 0)).1) s
  let s := s.formTemps vled
  let h := s.hottest
  let s := { s with thm := { s.thm with
    tTh := h.1
    hot := h.2
    tHist := if (List.range 20).any (fun n => decide (what n = 2)) then [] else s.thm.tHist } }
  let s := (List.range 20).foldl (fun s n => s.sensorEvt n (what n)) s
  let s := s.manyFailed (((List.range 20).filter fun n => decide (what n = 1)).getLastD 0)
  s.throttle

/-- The thermal monitor runs: from LOGIC_OK on, not in DORMANT (R317). -/
def State.monitors (s : State) : Bool := s.thm.started && decide (s.pwr.state ≠ .dormant)

def execThermalUpdate (dt : Nat) (readings : List Int) (vledMv : List Nat) (s : State) :
    Host.Outcome State Fault Refusal :=
  let s := s.elapse dt
  .next (if s.monitors ∧ readings.length = 20 ∧ vledMv.length = 16 then s.thermalUpdate readings vledMv else s)

/-! ### THERMAL_RELAX and THERMAL_RESUME (R308, R313) -/

/-- TF rises toward its target by RELAX, never while a substitute is in use (R308, R311). -/
def execThermalRelax (dt : Nat) (s : State) : Host.Outcome State Fault Refusal :=
  let s := s.elapse dt
  .next (if s.monitors ∧ !s.substituting ∧ s.thm.tf < s.thm.tfTarget then
    { s with thm := { s.thm with tf := min s.thm.tfTarget (s.thm.tf + s.fld pThermRise 23 16) } }
  else s)

/-- The held MRAM refreshes are made (R282). -/
def State.refreshHeld (s : State) : State :=
  let n := s.mem.toRefresh.length
  ({ s with mem := { s.mem with toRefresh := [] } }).bump pMramRefresh n

/-- SHUTDOWN or CRIT is left: MRAM and journal writes resume, and the cause clears itself. -/
def State.thermalResume (s : State) : State :=
  let s := ({ s with
    thm := { s.thm with inhibit := false, jInhibit := false }
    nvm := { s.nvm with held := none } }).refreshHeld
  let s := s.setLevel (s.lowLevel (max 0 (s.thm.tTh - s.thStart)))
  s.clearCauses (2 ^ 11)

/-- T_th has been below SHUTDOWN - HYST for 1 s without a break (R313). -/
def State.coolFor1s (s : State) : Bool :=
  s.cool && match s.thm.coolSince with
    | some t => decide (t + 10 ^ 9 ≤ s.clk)
    | none => false

def execThermalResume (dt : Nat) (s : State) : Host.Outcome State Fault Refusal :=
  let s := s.elapse dt
  .next (if 3 ≤ s.thm.level ∧ s.coolFor1s then s.thermalResume else s)

/-! ### NTC inputs and string derating (R310, R315, R221) -/

/-- The default NTC table (R315): the curve at each code, rounded to 0.1 degrees C. -/
def ntcDefault : List Int :=
  [2000, 1516, 1166, 981, 856, 761, 685, 620, 564, 514, 469, 427, 388, 352, 316, 283, 250, 218, 186, 155,
   123, 92, 59, 25, -10, -47, -87, -131, -181, -241, -317, -435, -550]

/-- The temperature of a ratio code by a table, interpolated, rounded down. -/
def ntcTemp (l : List Int) (c : Nat) : Int :=
  let a := l.getD (c / 128) 0
  a + (l.getD (c / 128 + 1) (l.getD 32 0) - a) * (c % 128 : Nat) / 128

/-- The NTC table in use. -/
def State.ntcTable (s : State) : List Int := s.thm.ntcTab.getD ntcDefault

/-- One NTC input is converted and checked: input `n` is 20 or 21. -/
def State.ntcInput (s : State) (n code : Nat) : State :=
  let v := ntcTemp s.ntcTable code
  let x := s.sensor n
  let moved := (recent s.clk 100000000 x.hist).any fun e => decide (20 < v - e.2) || decide (20 < e.2 - v)
  let now := if code < 64 ∨ 4032 < code then 4 else if moved then 2 else 0
  let j := judged s.clk 100000000 x v now 0
  let s := s.modSensor n fun _ => { j.1 with value := v }
  let s := { s with thm := { s.thm with ntcCode := tput (fun _ => 0) s.thm.ntcCode (n - 20) code } }
  s.sensorEvt n j.2

/-- An NTC is plausible: enabled and not failed (R310, R318). -/
def State.ntcOk (s : State) (k : Nat) : Bool := s.flag pThermCtrl (1 + k) && !(s.sensor (19 + k)).failed

/-- A channel's derating factor is recomputed (R221), with STR_DERATE. -/
def State.derate (s : State) (n : Nat) : State :=
  let c := s.chan n
  let t := (s.sensor (19 + c.ntc)).value / 10
  let d := if c.ntc = 0 then 4096 else if s.ntcOk c.ntc then c.derating t else c.drFloor
  let s := s.modChan n fun c => { c with d := d }
  let s := if c.d = 4096 ∧ d < 4096 then s.evt 0x0502 1 0xFF n d (twos 32 t) 0 else s
  if c.drFloor < c.d ∧ d = c.drFloor then s.evt 0x0502 1 0xFF n d (twos 32 t) 1 else s

def execNtcUpdate (dt code1 code2 : Nat) (s : State) : Host.Outcome State Fault Refusal :=
  let s := s.elapse dt
  .next (if !s.monitors ∨ 4096 ≤ code1 ∨ 4096 ≤ code2 then s
    else
      let s := if s.flag pThermCtrl 2 then s.ntcInput 20 code1 else s
      let s := if s.flag pThermCtrl 3 then s.ntcInput 21 code2 else s
      (List.range 4).foldl (fun s n => s.derate n) s)

/-! ### Factory corrections (R316) and start (R317) -/

/-- A factory table at a temperature in 0.1 degrees C: 21 entries from -40 degrees C in steps of 10, interpolated
linearly and rounded down; outside them the entry at the end (DESIGN CHOICE: R316 gives neither; log 40). -/
def tableAt (f : Nat → Int) (t : Int) : Int :=
  let x := (clampI 0 2000 (t + 400)).toNat
  f (x / 100) + (f (min 20 (x / 100 + 1)) - f (x / 100)) * (x % 100 : Nat) / 100

/-- The temperature that indexes the factory tables. -/
def State.coreTemp (s : State) : Int :=
  if !(s.sensor 16).failed then (s.sensor 16).value
  else if !(s.sensor 17).failed then (s.sensor 17).value else (s.sensor 16).value

def execFactoryCorrection (dt : Nat) (s : State) : Host.Outcome State Fault Refusal :=
  let s := s.elapse dt
  .next (if !s.monitors then s
    else
      let b : Int := if s.thm.factoryBad then 0 else tableAt Config.bandgapTable s.coreTemp
      let p : Int := if s.thm.factoryBad then 0 else tableAt Config.sleepTimerTable s.coreTemp
      { s with thm := { s.thm with
        bandgap := clampI (s.thm.bandgap - 1) (s.thm.bandgap + 1) b
        sleepPpm := p } })

/-- The parameters of THERM_CONFIG's MODE 0, in its order. -/
def thermParams : List Nat := [pThermLevels, pThermSlope, pThermRise, pThermRth, pThermPlaus, pThermCtrl]

/-- The thermal monitor starts at LOGIC_OK with its stored configuration, if there is one that can be read (R317).
Factory tables with a poisoned line fail their check (R316); the event's input is not stated: a free
value (DESIGN CHOICE, log 3). -/
def State.thermStart (s : State) : State :=
  let r := s.readConf [2]
  let n := r.1.readConf [3, 4]
  let s := match n.1.nvm.thermal with
    | some l => if r.2 then
        (List.range 6).foldl (fun (s : State) k => s.setLive (thermParams.getD k 0) (l.getD k 0).toNat) n.1
      else n.1
    | none => n.1
  let bad := decide (0 < s.poisonedIn 23)
  let s := { s with thm := { s.thm with
    started := true
    startedAt := s.clk
    ntcTab := if n.2 then s.nvm.ntc else none
    factoryBad := bad } }
  if bad then
    let f := s.freeW
    f.1.evt 0x0A02 2 0xFF (f.2.toNat % 22) 2 0 0
  else s

/-! ### THERM_STATUS -/

/-- The results of THERM_STATUS. -/
def thermWords (s : State) : List Word :=
  let i16 := fun (i : Int) => leBytes 2 (twos 16 i)
  let flags := ofFlags [s.thm.pre, s.substituting, s.thm.inhibit, s.thm.jInhibit, decide (s.thm.tf < s.thm.tfTarget)]
  wordsOf (leBytes 1 s.thm.level ++ leBytes 1 flags ++ leBytes 2 s.thm.tf ++ i16 s.thm.tTh
    ++ leBytes 1 s.thm.hot ++ leBytes 1 0 ++ i16 s.thm.rate ++ i16 s.thm.tPred ++ i16 s.thm.peak
    ++ leBytes 2 (s.live pShutdowns) ++ leBytes 4 s.thermFailed ++ leBytes 4 0
    ++ (List.range 16).flatMap (fun t => i16 (s.sensor t).value ++ i16 (s.useTemp t))
    ++ (List.range 4).flatMap (fun c => i16 (s.sensor (16 + c)).value)
    ++ (List.range 2).flatMap (fun n =>
      (if s.ntcOk (n + 1) then i16 (s.sensor (20 + n)).value else leBytes 2 0x8000)
        ++ leBytes 2 (tget (fun _ => 0) s.thm.ntcCode n)))

def thermStatusDef : OpDef :=
  { jnl := jnlNone
    rlen := fun _ => 26
    len := fun p => decide (p.plen = 0)
    run := fun _ _ s => okOut s (thermWords s) }

def execThermStatus (p : Pkt) (s : State) : Host.Outcome State Fault Refusal :=
  .next (serveOp 0x0A01 thermStatusDef p false s)

/-! ### THERM_CONFIG -/

/-- The six words of MODE 0. -/
def configWords (p : Pkt) : List Nat := (List.range 6).map fun k => p.u32 (20 + 4 * k)
/-- The table of MODE 1. -/
def configTable (p : Pkt) : List Int := (List.range 33).map fun k => p.s16 (20 + 2 * k)

/-- Entries fall strictly. -/
def falls : List Int → Bool
  | a :: b :: r => decide (b < a) && falls (b :: r)
  | _ => true

/-- The data of a THERM_CONFIG is in order (R315, R318). -/
def configOk (p : Pkt) : Bool :=
  if bitOf (p.u8 17) 1 then p.zero 20 (p.params.length - 4)
  else if p.u8 16 = 0 then
    (List.range 6).all fun k => prmValueOk (thermParams.getD k 0) ((configWords p).getD k 0)
  else falls (configTable p) && p.zero 86 2

/-- MODE 0 of THERM_CONFIG: the values that it sets. -/
def configValues (p : Pkt) : List Nat :=
  if bitOf (p.u8 17) 1 then thermParams.map fun id => (prmReset id).toNat else configWords p

/-- MODE 1: the table that it sets; none is the default. -/
def configNtc (p : Pkt) : Option (List Int) := if bitOf (p.u8 17) 1 then none else some (configTable p)

def thermConfigDef : OpDef :=
  { jnl := fun p => if bitOf (p.u8 17) 0 then 2 else 1
    rlen := fun _ => 1
    len := fun p => match p.u8 16 with
      | 0 => decide (p.plen = 7)
      | 1 => decide (p.plen = 18)
      | _ => decide (p.plen = 7) || decide (p.plen = 18)
    bad := fun p _ => need (decide (p.u8 16 ≤ 1) && decide (p.u8 17 ≤ 3) && p.zero 18 2 && configOk p)
    gate := fun p s => if bitOf (p.u8 17) 0 then mramGate s else none
    run := fun _ p s =>
      let store := bitOf (p.u8 17) 0
      let c := if store then s.storeConf (if p.u8 16 = 0 then [2] else [3, 4]) else (s, true)
      let s := c.1
      if !c.2 then { s := s, status := stNvmFault, step := 0 }
      else if p.u8 16 = 0 then
        let v := configValues p
        let old := s.live pThermLevels
        let s := (List.range 6).foldl (fun (s : State) k => s.setLive (thermParams.getD k 0) (v.getD k 0)) s
        okOut (if store then { s with nvm := { s.nvm with thermal := some (v.map w32) } } else s) [w32 old]
      else
        let t := configNtc p
        let s := { s with thm := { s.thm with ntcTab := t } }
        okOut (if store then { s with nvm := { s.nvm with ntc := t } } else s)
          [w32 (crc32 ((t.getD ntcDefault).flatMap fun i => leBytes 2 (twos 16 i)))] }

def execThermConfig (p : Pkt) (s : State) : Host.Outcome State Fault Refusal :=
  .next (serveOp 0x0A02 thermConfigDef p false s)

end Sys2Proof.Machine
end

