-- ==== Sys2Proof/Machine/Recovery.lean ====
section
/-! DEFINITION. Cairn journal, recovery, firmware and sessions (16_journal_recovery_firmware.md): line
writes, class-0 windows, restarts and the recovery pass, the firmware slots, sessions, and the opcodes
0x0C01 to 0x0C07. Entries, records and restarts themselves stand in Ops.lean and Safe.lean. -/

namespace Sys2Proof.Machine

/-! ### Journal lines (R347, R348, R314) -/

/-- The line that is written next: durable lines first, else in JSEQ order. -/
def State.nextLine (s : State) : Option JLine :=
  match s.jrn.lines.find? fun l => l.durable with
  | some l => some l
  | none => s.jrn.lines.head?

/-- A line has failed to verify three times (R284): its sector is remapped and it is written again;
while MRAM writes are inhibited it is lost and counted (R314), and with no spare sector it is lost and
its line poisoned. -/
def State.lineFails (s : State) (l : JLine) : State :=
  let a := jAddr l.jseq
  if s.thm.inhibit then (s.dropLine l.jseq).bump pJrnlLostTherm 1
  else match s.freeSpare 0 with
    | some k =>
      let t := s.remapSector a k
      { t with jrn := { t.jrn with lines := t.jrn.lines.map fun x =>
        if x.jseq = l.jseq then { x with fails := 0 } else x } }
    | none => (s.dropLine l.jseq).writeFails a

/-- The journal line write in progress completes. -/
def State.journalWritten (s : State) (verified : Bool) : State :=
  match s.nextLine with
  | none => s
  | some l =>
    let s := s.abortMram (jAddr l.jseq)
    if verified then s.jStore l.jseq
    else if l.fails < 2 then
      { s with jrn := { s.jrn with lines := s.jrn.lines.map fun x =>
        if x.jseq = l.jseq then { x with fails := x.fails + 1 } else x } }
    else s.lineFails l

/-- A class-0 window closes: its entry becomes DONE (R347). -/
def State.closeWindow (s : State) (w : Window) : State :=
  let s := { s with jrn := { s.jrn with windows := s.jrn.windows.filter fun x => x.jseq ≠ w.jseq } }
  s.jSet w.jseq false fun e => { e with state := 4, step := 1 }

/-- A class-0 window has been open for its length (R347). -/
def State.windowOver (s : State) (w : Window) : Bool := decide (w.opened + 1000000 * w.lenMs ≤ s.clk)

def execCoalesceWindowClose (dt : Nat) (port : Port) (ring : Fin 8) (s : State) :
    Host.Outcome State Fault Refusal :=
  let s := s.elapse dt
  .next (match s.jrn.windows.find? fun w => decide (w.port = port) && decide (w.ring = ring.val) with
    | some w => if s.windowOver w then s.closeWindow w else s
    | none => s)

/-! ### The scan at start-up (R349, R350) -/

/-- The later of two journal sequence numbers. -/
def laterSeq (a b : Word) : Word := if (b - a).toNat < 2 ^ 31 then b else a

/-- The newest JSEQ among the entries in MRAM whose lines can be read. -/
def State.scanNewest (s : State) : Option Word :=
  match (s.nvm.journal.filter fun e => !s.mem.poison.contains (0x10600000 + 64 * e.1)).map (·.2.jseq) with
  | [] => none
  | a :: l => some (l.foldl laterSeq a)

/-- Cairn finds the newest entry and rebuilds its cache from MRAM. -/
def State.journalScan (s : State) : State :=
  let s := (s.readSpan 7 0x10600000 0x100000).1
  let n := s.scanNewest
  let s := { s with jrn := { s.jrn with newest := n, cache := [] } }
  let cache := match n with
    | none => []
    | some j => (List.range 2048).filterMap fun k => s.jEntry (j - w32 k)
  { s with jrn := { s.jrn with cache := cache } }

/-! ### The recovery pass (R354) -/

/-- How much older than the newest an entry is. -/
def State.jAge (s : State) (j : Word) : Nat := ((s.jrn.newest.getD 0) - j).toNat

/-- Every entry that is retained, in the cache or in MRAM. -/
def State.allEntries (s : State) : List JEntry :=
  s.jrn.cache ++ (s.nvm.journal.map (·.2)).filter fun e => !s.jrn.cache.any fun c => decide (c.jseq = e.jseq)

/-- The age of the newest recovery-pass record, or the whole journal. -/
def State.lastPass (s : State) : Nat :=
  minOf 16384 ((s.allEntries.filter fun e => decide (e.kind = 0x0B) && decide (e.seq = 2)).map fun e => s.jAge e.jseq)

/-- A job that a level-0 or level-1 reset does not end: a CVU run goes on (R287), and an activation
restarts the sequencer itself (R358). -/
def State.jobLives (s : State) (b : Job) : Bool :=
  match b.kind with
  | .cvuRun _ => true
  | .fwActivate _ => s.fw.selfCheck
  | _ => false

/-- An entry that the pass leaves untouched: an open class-0 window, a queued timed entry, a job that
the reset does not end. -/
def State.passSkips (s : State) (e : JEntry) : Bool :=
  (s.jrn.windows.any fun w => decide (w.jseq = e.jseq)) || (s.grp.queue.any fun t => decide (t.jseq = e.jseq))
    || s.cmd.jobs.any fun b => decide (b.jseq = e.jseq) && s.jobLives b

/-- The entries that the pass converts, oldest first. -/
def State.toConvert (s : State) : List Word :=
  let l := s.allEntries.filter fun e => decide (s.jAge e.jseq < s.lastPass)
    && (decide (e.state = 1) || decide (e.state = 2)) && !s.passSkips e
  (sortNat (l.map fun e => s.jAge e.jseq)).reverse.map fun a => (s.jrn.newest.getD 0) - w32 a

/-- The cause status of the pass. -/
def State.passStatus (s : State) : Nat := if s.jrn.abortPower then stAbortPower else stAbortReset

/-- A TRIAL slot that a full reset has found unconfirmed gives way (R358). -/
def State.trialGoes (s : State) (k : Nat) : Bool := decide (s.slotState k = .trial) && decide (s.nvm.running ≠ k)

/-- Nothing is left in force of an entry that the pass finds (R354, R355): it has not begun, it is a
SET_TIME whose edge has not come, or an activation whose TRIAL slot has been `rolled` back. -/
def nothingLeft (rolled : Bool) (e : JEntry) : Bool :=
  decide (e.state = 1) || decide (e.opcode = 0x0009) || (rolled && decide (e.opcode = 0x0C05))

/-- One entry is converted; a command that replied ACCEPTED gets its CMD_DONE. -/
def State.convert (s : State) (rolled : Bool) (j : Word) : State :=
  let st := s.passStatus
  let s := s.jSet j false fun e =>
    if e.kind.toNat % 4 = 1 then { e with state := 4, step := 1 }
    else { e with state := if nothingLeft rolled e then 5 else 3, status := BitVec.ofNat 16 st }
  match s.cmd.jobs.find? fun b => decide (b.jseq = j) with
  | none => s
  | some b =>
    let s := { s with
      cmd := { s.cmd with jobs := s.cmd.jobs.filter fun x => x.jseq ≠ j }
      cal := { s.cal with phase := match b.kind with | .calSweep _ _ _ => .off | _ => s.cal.phase } }
    s.cmdDone b.opcode b.pkt st

/-- The rollback of a TRIAL slot that a full reset has found unconfirmed (R358). -/
def State.trialRolls (s : State) : State :=
  (List.range 2).foldl (fun s k =>
    if s.trialGoes k then
      let new := s.slotVersion s.nvm.running
      let s := s.setSlot k .staged
      (s.jRecord 4 new 3).1.evt 0x0C03 2 0xFF s.nvm.running 3 new (s.slotVersion k)
    else s) s

/-- The reset record, or the DORMANT-exit record, with SEQ_RESTART after level 0 or 1 (R346, R353). -/
def State.resetRecord (s : State) : State :=
  if s.pwr.dormExit then (s.jRecord 5 s.pwr.wake s.pwr.dormMs).1
  else
    let x := s.jRecord 1 (s.jrn.resetLevel + 256 * s.jrn.restartCause) s.jrn.resetTime.toNat
    if s.jrn.resetLevel = 2 then x.1
    else
      let n := (x.1.jrn.restarts.filter fun r => decide (x.1.clk < r.1 + 10 ^ 10)).length
      x.1.evt 0x0C01 1 0xFF s.jrn.restartCause n (x.1.live pRestarts) x.2.toNat

/-- The sequencer writes its record, runs the pass, and serves its rings again. -/
def State.recoveryPass (s : State) : State :=
  let s := s.resetRecord
  let rolled := decide (s.jrn.resetLevel = 2) && (List.range 2).any s.trialGoes
  let s := if rolled then s.trialRolls else s
  let l := s.toConvert
  let s := l.foldl (fun s j => s.convert rolled j) s
  let s := (s.jRecord 2 l.length (l.headD 0).toNat).1
  { s with
    cmd := { s.cmd with serving := true }
    jrn := { s.jrn with recover := false, abortPower := false } }

/-- The sequencer is clocked: the logic runs, outside STANDBY and DORMANT (R29). -/
def State.seqClocked (s : State) : Bool :=
  s.logicUp && (decide (s.pwr.state = .active) || decide (s.pwr.state = .idle))

/-- The sequencer runs: clocked, and not held in reset. -/
def State.seqRuns (s : State) : Bool := s.seqClocked && s.jrn.holdTill.isNone

def execRecoveryPass (dt : Nat) (s : State) : Host.Outcome State Fault Refusal :=
  let s := s.elapse dt
  .next (if s.jrn.recover ∧ s.seqRuns ∧ !s.fw.noImage ∧ !s.fw.starting then s.recoveryPass else s)

/-! ### Restarts (R17, R353) -/

def execWatchdogExpiry (dt : Nat) (s : State) : Host.Outcome State Fault Refusal :=
  let s := s.elapse dt
  .next (if s.seqRuns then s.restartDue 1 else s)

def execLockstepMismatch (dt : Nat) (s : State) : Host.Outcome State Fault Refusal :=
  let s := s.elapse dt
  .next (if s.seqRuns then s.restartDue 2 else s)

/-- The sequencer finds an uncorrectable line of its region: at an instruction fetch, or in a line behind the
image at a data read (R276 codes 3 and 4). Either traps into a level-0 restart from MRAM. -/
def State.fetchFault (s : State) (line : Nat) : State :=
  let a := lineOf line
  (if regionOf a = 8 then s.lineLost a (if s.codeLine a then 3 else 4) else s).restartDue 3

def execInstructionFetchFault (dt line : Nat) (s : State) : Host.Outcome State Fault Refusal :=
  let s := s.elapse dt
  .next (if s.seqRuns then s.fetchFault line else s)

/-- A held restart's time has come: 1 s after the previous one (R353). -/
def State.holdOver (s : State) : Bool :=
  match s.jrn.holdTill with
  | some t => decide (t ≤ s.clk)
  | none => false

def execRestartHoldExpiry (dt : Nat) (s : State) : Host.Outcome State Fault Refusal :=
  let s := s.elapse dt
  .next (if s.holdOver then s.seqRestart 0 s.jrn.restartCause else s)

/-- The pipelines are re-initialised (R352): passes and codes on their way are gone. -/
def State.pipeReinit (s : State) : State :=
  let s := { s with
    jrn := { s.jrn with pipeBusy := false }
    comp := { s.comp with passes := [], tokens := [] } }
  let s := (List.range 256).foldl (fun s g => s.modRg g fun r => { r with
    ready := []
    pending := none
    parityFails := 0 }) s
  s.pipeResetEnd

def execPipelineReinitDone (dt : Nat) (s : State) : Host.Outcome State Fault Refusal :=
  let s := s.elapse dt
  .next (if s.jrn.pipeBusy then s.pipeReinit else s)

/-! ### JRNL_READ (R351) -/

/-- What a JSEQ holds when it is read, from the cache or from its line of MRAM (R349): an entry, LOST (R351), or
nothing. The manual names no requester for that read: it counts as the MRAM controller's (DESIGN CHOICE, log 40). -/
def State.jLook (s : State) (j : Word) : State × Option (List Byte × Bool) :=
  match s.jrn.cache.find? fun e => e.jseq = j with
  | some e => (s, some (jBytes e, false))
  | none =>
    let r := (s.abortMram (jAddr j)).readLine 7 (jAddr j)
    if !r.2 then (r.1, some (leBytes 4 j.toNat ++ List.replicate 60 0, true))
    else
      let e := tget (fun _ => jNone) r.1.nvm.journal (j.toNat % 16384)
      (r.1, if e.jseq = j ∧ e ≠ jNone then some (jBytes e, false) else none)

/-- Read up to so many entries from a JSEQ on: their bytes, how many are LOST, and the next JSEQ. -/
def State.jScan : State → Nat → Nat → Word → State × List (List Byte) × Nat × Word
  | s, 0, _, j => (s, [], 0, j)
  | s, fuel + 1, n, j =>
    if n = 0 ∨ j = s.jNext then (s, [], 0, j)
    else
      let x := s.jLook j
      match x.2 with
      | some e =>
        let r := x.1.jScan fuel (n - 1) (j + 1)
        (r.1, e.1 :: r.2.1, b2n e.2 + r.2.2.1, r.2.2.2)
      | none => x.1.jScan fuel n (j + 1)

/-- A JRNL_READ asks from past the newest entry. -/
def State.jPast (s : State) (j : Word) : Bool :=
  match s.jrn.newest with
  | none => true
  | some n => decide ((j - n).toNat < 2 ^ 31 ∧ j ≠ n)

/-- The first JSEQ that JRNL_READ reads, and whether it starts later than asked (GAP). -/
def State.jFrom (s : State) (j : Word) : Word × Bool :=
  match s.jrn.newest with
  | none => (0, false)
  | some n =>
    if 16383 < (n - j).toNat then (n - 16383, true) else (j, false)

/-- From past the newest entry no entry is returned, and the spec does not state NEXT: it is free
(DEDUCED, log 29). -/
def jrnlReadDef : OpDef :=
  { jnl := jnlNone
    rlen := fun p => 3 + 16 * p.u16 20
    len := fun p => decide (p.plen = 2)
    bad := fun p _ => need (decide (1 ≤ p.u16 20) && decide (p.u16 20 ≤ 15) && p.zero 22 2)
    run := fun _ p s =>
      if s.jPast (w32 (p.u32 16)) then
        let f := s.freeW
        okOut f.1 [w32 (s.prmRead pJrnlNewest), f.2, 0]
      else
      let f := s.jFrom (w32 (p.u32 16))
      let r := s.jScan 16400 (p.u16 20) f.1
      okOut (if r.2.2.1 = 0 then r.1 else r.1.bump pJrnlLost r.2.2.1)
        ([w32 (s.prmRead pJrnlNewest), r.2.2.2, w32 (r.2.1.length + 65536 * b2n f.2)] ++ r.2.1.flatMap wordsOf) }

def execJrnlRead (p : Pkt) (s : State) : Host.Outcome State Fault Refusal :=
  .next (serveOp 0x0C01 jrnlReadDef p false s)

/-! ### JRNL_MARK -/

/-- The kind-2 entry of a JRNL_MARK (R344). -/
def markEntry (p : Pkt) : JEntry :=
  { jseq := 0
    ring := BitVec.ofNat 8 p.ring
    kind := BitVec.ofNat 8 (2 + 4 * p.port.num + 16 * b2n p.durable + 32 * b2n p.timed)
    seq := w32 (p.u32 16)
    tag := p.tag
    state := 4
    step := 1
    steps := 1
    note := BitVec.ofNat 64 (p.u64 20) }

def jrnlMarkDef : OpDef :=
  { jnl := jnlNone
    len := fun p => decide (p.plen = 3)
    run := fun _ p s =>
      let x := s.jAdd (markEntry p) p.durable
      { s := if p.durable then x.1.jDurable x.2 else x.1, jseq := some x.2 } }

def execJrnlMark (p : Pkt) (s : State) : Host.Outcome State Fault Refusal :=
  .next (serveOp 0x0C02 jrnlMarkDef p false s)

/-! ### STATE_DIGEST -/

/-- IDs with values, each as u16 and u32. -/
def idBytes (l : List (Nat × Nat)) : List Byte := l.flatMap fun e => leBytes 2 e.1 ++ leBytes 4 e.2

/-- Bytes 0 to 55 of a context, with ACTIVE and STALE taken as 0. -/
def ctxDigest (n : Nat) (c : ObjCtx) : List Byte := (ctxBytes n { c with active := false, stale := false }).take 56

/-- The expected SEQ of a port's ring. -/
def State.expWord (s : State) (port : Port) (ring : Nat) : Word :=
  match tget (fun _ => none) s.cmd.expSeq (64 * port.num + ring) with
  | some q => q
  | none => 0xFFFFFFFF

/-- The results of STATE_DIGEST. -/
def digestWords (s : State) (base : Nat) : List Word :=
  let crc := fun (l : List Byte) => w32 (crc32 l)
  [w32 (s.prmRead pJrnlNewest), s.frm.frame] ++ words64 s.pwr.devtime.toNat ++ [w32 s.diag.causes.toNat,
   crc (idBytes (prmRwIds.map fun id => (id, s.prmRead id))),
   crc (idBytes (prmSIds.map fun id => (id, s.shadow id)) ++ leBytes 1 (b2n s.prm.commit)),
   crc ((List.range 128).flatMap fun n => ctxDigest n (s.ctx n)),
   crc ((List.range 32).flatMap fun m => ovlBytes (tget (fun _ => {}) s.comp.ovlStaged m)),
   crc ((List.range 4096).flatMap fun i => leBytes 2 (tget lutDef s.comp.lutShadow i).toNat),
   crc (s.sramBytes 0x800000 0x100000), crc (s.sramBytes 0x900000 0x80000), 0, 0, 0, 0]
    ++ (List.range 16).flatMap fun i => [s.expWord .link (base + i), s.expWord .spi (base + i)]

def stateDigestDef : OpDef :=
  { jnl := jnlNone
    rlen := fun _ => 48
    len := fun p => decide (p.plen = 1)
    bad := fun p _ => need ((decide (p.u8 16 = 0) || decide (p.u8 16 = 16) || decide (p.u8 16 = 32)) && p.zero 17 3)
    run := fun _ p s =>
      let r := s.readSpan 4 0x800000 0x180000
      if !r.2.isEmpty then { s := r.1, status := stMemFault, step := 0 }
      else okOut r.1 (digestWords r.1 (p.u8 16)) }

def execStateDigest (p : Pkt) (s : State) : Host.Outcome State Fault Refusal :=
  .next (serveOp 0x0C03 stateDigestDef p false s)

/-! ### FW_STAGE (R356, R357) -/

/-- The slot that can be staged: the one neither ACTIVE nor TRIAL. -/
def State.stageSlot (s : State) : Option Nat :=
  (List.range 2).find? fun k => decide (s.slotState k ≠ .active) && decide (s.slotState k ≠ .trial)

/-- An activation is pending. -/
def State.activating (s : State) : Bool :=
  s.cmd.jobs.any fun b => match b.kind with | .fwActivate _ => true | _ => false

/-- OP of a FW_STAGE. -/
def stageOp (p : Pkt) : Nat := p.u8 16
/-- LEN of a FW_STAGE. -/
def stageLen (p : Pkt) : Nat := p.u32 24
/-- OFFSET of a FW_STAGE. -/
def stageOff (p : Pkt) : Nat := p.u32 20

/-- LENGTH of a header. -/
def hdrLength (h : List Byte) : Nat := ofLe ((h.drop 8).take 4)
/-- VERSION of a header. -/
def hdrVersion (h : List Byte) : Nat := ofLe ((h.drop 4).take 4)
/-- The signature of a header verifies (R356). -/
def hdrSigned (h : List Byte) : Bool :=
  ecdsaOk Config.publicKeyX Config.publicKeyY (sha256 (h.take 48)) (ofBe ((h.drop 48).take 32)) (ofBe ((h.drop 80).take 32))

/-- The LENGTH of the image being staged. -/
def State.stageLength (s : State) : Nat := match s.nvm.stageHdr with | some h => hdrLength h | none => 0

/-- The fields of a FW_STAGE are in order: a header's MAGIC, LENGTH and reserved bytes (R356), a chunk's place in
the body. -/
def State.stageFields (s : State) (p : Pkt) : Bool :=
  let h := p.bytes 28 256
  p.zero 17 3 &&
  match stageOp p with
  | 0 => decide (stageOff p = 0) && decide (stageLen p = 256) && decide (ofLe (h.take 4) = 0x464C5056)
      && decide (hdrLength h % 4 = 0) && decide (hdrLength h ≤ 524032)
      && ((h.drop 12).take 4 ++ h.drop 112).all fun b => decide (b = 0)
  | 1 => decide (stageOff p % 64 = 0) && decide (4 ≤ stageLen p) && decide (stageLen p ≤ 4032)
      && decide (stageLen p % 4 = 0)
      && (s.nvm.stageHdr.isNone || (decide (stageOff p ≤ s.nvm.stageNext)
        && decide (stageOff p + stageLen p ≤ s.stageLength)
        && (decide (stageLen p % 64 = 0) || decide (stageOff p + stageLen p = s.stageLength))))
  | 2 => decide (stageOff p = 0) && decide (stageLen p = 0)
  | 3 => decide (stageOff p = 0) && decide (stageLen p = 0)
  | _ => false

/-- The results of FW_STAGE. -/
def stageWords (s : State) : List Word :=
  let k := s.stageSlot.getD (1 - s.nvm.running)
  [w32 s.nvm.stageNext, w32 (slotCode (s.slotState k) + 256 * k)]

/-- FW_STAGE BEGIN. -/
def stageBegin (p : Pkt) (k : Nat) (s : State) : Out :=
  let h := p.bytes 28 256
  if !hdrSigned h ∨ hdrVersion h < s.nvm.floor.toNat then { s := s, status := stCheckFail, step := 0 }
  else
    let s := (s.setSlot k .staging)
    let s := { s with nvm := { s.nvm with stageHdr := some h, stageNext := 0 } }
    okOut s (stageWords s)

/-- FW_STAGE DATA. -/
def stageData (p : Pkt) (k : Nat) (s : State) : Out :=
  let a := slotBase k + 256 + stageOff p
  let d := p.bytes 28 (stageLen p)
  let r := s.readParts 7 a d.length
  if !r.2 then { s := r.1, status := stMemFault, step := 0 }
  else
    let v := (r.1.abortMrams (linesOf a d.length)).verifyLines (linesOf a d.length)
    if !v.2 then { s := v.1, status := stNvmFault, step := 0 }
    else
      let s := v.1.writeMram a d
      let s := if stageOff p = s.nvm.stageNext then
          { s with nvm := { s.nvm with stageNext := stageOff p + stageLen p } } else s
      okOut s (stageWords s)

/-- FW_STAGE FINISH. -/
def stageFinish (k : Nat) (h : List Byte) (s : State) : Out :=
  let base := slotBase k + 256
  let n := hdrLength h
  let s := s.abortMrams (linesOf (slotBase k) (256 + n))
  let r := s.readSpan 7 base n
  let s := r.1
  if !r.2.isEmpty
      ∨ sha256 (s.mramBytes base n) ≠ (h.drop 16).take 32 then { s := s, status := stCheckFail, step := 0 }
  else
    let v := s.verifyLines (linesOf (slotBase k) 256)
    if !v.2 then { s := v.1, status := stNvmFault, step := 0 }
    else
      let s := (v.1.writeMram (slotBase k) h).setSlot k .staged
      let s := { s with nvm := { s.nvm with stageHdr := none } }
      okOut s (stageWords s)

/-- What FW_STAGE does in a slot. -/
def stageRun (p : Pkt) (s : State) : Out :=
  match s.stageSlot, stageOp p, s.nvm.stageHdr with
  | some k, 0, _ => stageBegin p k s
  | some k, 1, some _ => stageData p k s
  | some k, 2, some h => stageFinish k h s
  | _, _, _ => okOut s (stageWords s)

def fwStageDef : OpDef :=
  { rlen := fun _ => 2
    len := fun p => match stageOp p with
      | 0 => decide (p.plen = 67)
      | 2 => decide (p.plen = 3)
      | 3 => decide (p.plen = 3)
      | _ => decide (p.plen = 3 + stageLen p / 4)
    bad := fun p s => need (s.stageFields p)
    gate := fun p s =>
      if stageOp p = 3 then none
      else stop (s.thm.inhibit || s.activating || s.stageSlot.isNone || (decide (stageOp p ≠ 0) && s.nvm.stageHdr.isNone)
        || (decide (stageOp p = 2) && decide (s.nvm.stageNext ≠ s.stageLength))) stWrongState
    run := fun _ p s => stageRun p s }

def execFwStageBegin (p : Pkt) (s : State) : Host.Outcome State Fault Refusal :=
  .next (serveOp 0x0C04 fwStageDef (p.fix 16 0) false s)

def execFwStageData (p : Pkt) (s : State) : Host.Outcome State Fault Refusal :=
  .next (serveOp 0x0C04 fwStageDef (p.fix 16 1) false s)

def execFwStageFinish (p : Pkt) (s : State) : Host.Outcome State Fault Refusal :=
  .next (serveOp 0x0C04 fwStageDef (p.fix 16 2) false s)

def execFwStageQuery (p : Pkt) (s : State) : Host.Outcome State Fault Refusal :=
  .next (serveOp 0x0C04 fwStageDef (p.fix 16 3) false s)

/-! ### FW_ACTIVATE (R358) -/

/-- The slot in a state. -/
def State.slotIn (s : State) (v : SlotState) : Option Nat := (List.range 2).find? fun k => decide (s.slotState k = v)

/-- A slot becomes ACTIVE, and the other, if it was ACTIVE, is merely STAGED. -/
def State.makeActive (s : State) (k : Nat) : State :=
  let s := if s.slotState (1 - k) = .active then s.setSlot (1 - k) .staged else s
  s.setSlot k .active

def fwActivateDef : OpDef :=
  { jnl := jnlDurable
    len := fun p => decide (p.plen = 1)
    bad := fun p _ => need (decide (p.u32 16 ≤ 3))
    gate := fun p s => stop (s.thm.inhibit || s.activating
      || (if bitOf (p.u32 16) 0 then (s.slotIn .trial).isNone else (s.slotIn .staged).isNone)) stWrongState
    run := fun j p s =>
      if bitOf (p.u32 16) 0 then
        match s.slotIn .trial with
        | some k => okOut (s.makeActive k) []
        | none => okOut s []
      else match s.slotIn .staged with
        | some k =>
          let v := s.verifySlot k
          if v.2 then v.1.startJob (.fwActivate (bitOf (p.u32 16) 1)) 0x0C05 p j 1
          else { s := v.1, status := stCheckFail, step := 0 }
        | none => okOut s [] }

def execFwActivate (p : Pkt) (s : State) : Host.Outcome State Fault Refusal :=
  .next (serveOp 0x0C05 fwActivateDef (p.fixBit 16 false) false s)

def execFwConfirm (p : Pkt) (s : State) : Host.Outcome State Fault Refusal :=
  .next (serveOp 0x0C05 fwActivateDef (p.fixBit 16 true) false s)

/-- The activation in progress, with whether it is permanent. -/
def State.activation (s : State) : Option (Job × Bool) :=
  s.cmd.jobs.findSome? fun b => match b.kind with
    | .fwActivate perm => some (b, perm)
    | _ => none

/-- The self-check has not passed in time, or the new image fails verification on copy: the engine restarts into the previous slot. -/
def State.selfCheckFails (s : State) : State :=
  let bad := s.nvm.running
  let prev := s.fw.previous
  let s := { s with fw := { s.fw with selfCheck := false } }
  let a := s.activation
  let s := (s.rollBack prev 0 1).setSlot bad .staged |>.setSlot prev .active
  match a with
  | some (b, _) => s.endJob b stCheckFail 0 false 0
  | none => s

/-- The latch instant that an activation waits for, one at which MRAM may be written (R314): the boot record, and the restart into the new
image; the command's entry is STARTED. The reset record's cause is that of a command (DEDUCED, log 30). -/
def State.activateAtLatch (s : State) : State :=
  match s.activation, s.slotIn .staged with
  | some (b, perm), some k =>
    if s.fw.selfCheck ∨ s.thm.inhibit then s
    else
      let old := s.nvm.running
      let s := s.jSet b.jseq true fun e => { e with state := 2 }
      let s := if perm then s.makeActive k else s.setSlot k .trial
      let s := { s with
        nvm := { s.nvm with running := k }
        fw := { s.fw with selfCheck := true, previous := old, permanent := perm } }
      let s := s.seqRestart 0 0
      if s.fw.noImage then s.selfCheckFails else s
  | _, _ => s

/-- The new image has passed its self-check. -/
def State.selfCheckPassed (s : State) : State :=
  let k := s.nvm.running
  let new := s.slotVersion k
  let old := s.slotVersion s.fw.previous
  let s := { s with fw := { s.fw with selfCheck := false } }
  match s.activation with
  | some (b, perm) =>
    let s := s.endJob b stOk 1 false 0
    (s.jRecord 3 new (old + 2 ^ 32 * k)).1.evt 0x0C02 0 b.pkt.ring k (b2n perm) new old
  | none => s

def execFwSelfCheckPassed (dt : Nat) (s : State) : Host.Outcome State Fault Refusal :=
  let s := s.elapse dt
  .next (if s.fw.selfCheck then s.selfCheckPassed else s)

def execFwSelfCheckTimeout (dt : Nat) (s : State) : Host.Outcome State Fault Refusal :=
  let s := s.elapse dt
  .next (if s.fw.selfCheck then s.selfCheckFails else s)

/-! ### Sessions (R359 to R361) -/

/-- The key of a slot: slot 0 is set at manufacture. -/
def State.keyOf (s : State) (k : Nat) : Option (List Byte) :=
  match tget (fun _ => none) s.nvm.keys k with
  | some b => some b
  | none => if k = 0 then some ((List.range 16).map Config.serviceKey) else none

/-- Ks (R360). -/
def State.sessionKey (s : State) (key nh ne : List Byte) (port : Port) : List Byte :=
  cmac key ([1] ++ nh ++ ne ++ leBytes 2 s.grp.node.toNat ++ leBytes 1 port.num ++ List.replicate 4 0)

/-- AUTH_OPEN with MODE 0: the new session replaces the port's. NE is a free value (DESIGN CHOICE, log 3). -/
def authOpenRun (p : Pkt) (key : List Byte) (s : State) : Out :=
  let a := s.freeW
  let b := a.1.freeW
  let ne := wordBytes [a.2, b.2]
  let nh := p.bytes 28 8
  let ks := b.1.sessionKey key nh ne p.port
  okOut (b.1.setSession p.port (some
    { key := p.u8 16
      rings := BitVec.ofNat 64 (p.u64 20)
      ks := ks })) ([a.2, b.2] ++ wordsOf ((cmac ks ([2] ++ nh)).take 8))

/-- A slot may be written from a packet: never written, or inside a session of the same or a lower
slot (R359). -/
def State.keyWritable (s : State) (p : Pkt) : Bool :=
  (s.keyOf (p.u8 16)).isNone || (match s.covering p with | some x => decide (x.key ≤ p.u8 16) | none => false)

/-- AUTH_OPEN with MODE 1: the key, in clear for a slot never written, else decrypted under Ks. -/
def authLoadRun (p : Pkt) (s : State) : Out :=
  let w := p.bytes 36 16
  let key := match s.keyOf (p.u8 16), s.covering p with
    | some _, some x => aesUnwrap x.ks w
    | _, _ => w
  let c := s.storeConf [5 + p.u8 16]
  let s := c.1
  if !c.2 then { s := s, status := stNvmFault, step := 0 }
  else okOut { s with nvm := { s.nvm with keys := tput (fun _ => none) s.nvm.keys (p.u8 16) (some key) } } []

def authOpenDef : OpDef :=
  { jnl := fun p => if p.u8 17 = 1 then 2 else 1
    rlen := fun p => if p.u8 17 = 0 then 4 else 0
    len := fun p => decide (p.plen = 9)
    bad := fun p _ => need (decide (p.u8 16 ≤ 2) && decide (p.u8 17 ≤ 1) && p.zero 18 2
      && (if p.u8 17 = 0 then decide (p.u8 20 = 0) && p.zero 26 2 && p.zero 36 16 else p.zero 20 16))
    gate := fun p s =>
      if p.u8 17 = 0 then stop (s.keyOf (p.u8 16)).isNone stWrongState
      else orElse9 (mramGate s) (stop (!s.keyWritable p) stNotAuth)
    run := fun _ p s =>
      if p.u8 17 = 0 then
        match s.keyOf (p.u8 16) with
        | some k => authOpenRun p k s
        | none => okOut s []
      else authLoadRun p s }

def execAuthOpen (p : Pkt) (s : State) : Host.Outcome State Fault Refusal :=
  .next (serveOp 0x0C06 authOpenDef (p.fix 17 0) false s)

def execAuthLoadKey (p : Pkt) (s : State) : Host.Outcome State Fault Refusal :=
  .next (serveOp 0x0C06 authOpenDef (p.fix 17 1) false s)

/-- AUTH_CLOSE answers the session's last CTR; with none accepted yet it is not stated: a free value
(DESIGN CHOICE, log 3). -/
def authCloseDef : OpDef :=
  { rlen := fun _ => 1
    len := fun p => decide (p.plen = 0)
    gate := fun p s => stop (s.session p.port).isNone stWrongState
    run := fun _ p s =>
      let x := match s.session p.port with
        | some v => (match v.ctr with | some c => (s, c) | none => s.freeW)
        | none => s.freeW
      okOut (x.1.setSession p.port none) [x.2] }

def execAuthClose (p : Pkt) (s : State) : Host.Outcome State Fault Refusal :=
  .next (serveOp 0x0C07 authCloseDef p false s)

end Sys2Proof.Machine
end

