-- ==== Sys2Proof/Machine/Power.lean ====
section
/-! DEFINITION. Supplies, power states and time (15_power_states.md): power-up and its stages, resets
from outside, wakes, sleep negotiation, the reference oscillator, the stress integrals, and the opcodes
SET_TIME, TIME_STATUS, PWR_STATE and PWR_STATUS. -/

namespace Sys2Proof.Machine

/-! ### The internal generators (R322) -/

/-- The generators in ACTIVE and IDLE. -/
def gensRun : Gens := { phyMv := 900, sram := .core, bias := .zero, assist := false }
/-- The generators in STANDBY. -/
def gensStandby : Gens := { phyMv := 0, sram := .retained, bias := .reversed, assist := true }

/-- The generators are set. -/
def State.setGens (s : State) (g : Gens) : State := { s with pwr := { s.pwr with gens := g } }

/-! ### What holds the engine in reset (R324, R325, R401) -/

/-- A supply trip holds the reset: the rails have not been back in range for 1 ms (R324). -/
def State.supplyHolds (s : State) : Bool := s.pwr.supply.isSome && s.pwr.supplyMs.isNone

/-- Something holds the engine in reset. -/
def State.heldInReset (s : State) : Bool := s.pwr.resetLow || s.supplyHolds || s.tapHold

/-- A held full reset is released once nothing holds it: power-up begins. -/
def State.letGo (s : State) : State :=
  if s.pwr.boot = .held ∧ s.pwr.state ≠ .dormant ∧ !s.heldInReset then
    { s with pwr := { s.pwr with boot := .regulator } }
  else s

def execResetnAssert (dt : Nat) (s : State) : Host.Outcome State Fault Refusal :=
  let s := (s.elapse dt).fullReset .held 4 1
  .next { s with pwr := { s.pwr with resetLow := true } }

def execResetnRelease (dt : Nat) (s : State) : Host.Outcome State Fault Refusal :=
  let s := s.elapse dt
  .next ({ s with pwr := { s.pwr with resetLow := false } }).letGo

/-- The code of a rail (R340). -/
def railCode : Rail → Nat
  | .vcore => 0
  | .vpix => 1

def execSupplyTrip (dt : Nat) (rail : Rail) (s : State) : Host.Outcome State Fault Refusal :=
  let s := s.elapse dt
  .next (if s.pwr.state = .dormant ∨ s.supplyHolds then s
    else
      let s := if s.pwr.boot = .held then s else s.fullReset .held 5 7
      { s with pwr := { s.pwr with supply := some (rail, s.clk), supplyMs := none } })

def execSupplyMonitorRecovery (dt : Nat) (s : State) : Host.Outcome State Fault Refusal :=
  let s := s.elapse dt
  .next (match s.pwr.supply with
    | some (_, t) =>
      if s.supplyHolds then
        ({ s with pwr := { s.pwr with supplyMs := some (s.since t / 1000000) } }).letGo
      else s
    | none => s)

/-- VAON rises: the always-on domain starts from its reset values, MRAM keeps what it holds. -/
def execVaonPowerOn (dt : Nat) (s : State) : Host.Outcome State Fault Refusal :=
  let s := (s.elapse dt).fullReset (if s.pwr.resetLow then .held else .regulator) 6 0
  .next { s with
    jtag := 2
    boundary := 0
    tapHold := false
    pwr := { s.pwr with
      fault := 0
      failedUps := false
      supply := none
      supplyMs := none
      tickNs := 1000000
      ppmEntry := 0 } }

/-! ### DEVTIME across DORMANT (R337) -/

/-- E: the elapsed ns for so many ticks. -/
def elapsedNs (ticks entry exit : Nat) : Nat := ticks * (entry + exit) / 2

/-- B in us, rounded up. -/
def boundUsOf (ticks entry exit : Nat) : Nat :=
  ceilDiv (4000 * max entry exit + 1000 * ticks * (max entry exit - min entry exit) + ticks * (entry + exit)) 2000000

/-- An elapsed-time estimate with the sleep timer's correction in force (R316), in ppm of it (DESIGN CHOICE: the
manual does not say how the correction enters E; log 40): across DORMANT the one that was in force at entry, the thermal monitor being stopped there. -/
def slept (ppm : Int) (e : Nat) : Nat := (e + e * ppm / 1000000 : Int).toNat

/-- DEVTIME goes on from the estimate for a tick period at exit; `old` is the estimate it replaces. -/
def State.estimate (s : State) (ticks exit old : Nat) : State :=
  let e := slept s.pwr.ppmEntry (elapsedNs ticks s.pwr.tEntry exit)
  { s with pwr := { s.pwr with
    devtime := s.pwr.devtime + BitVec.ofNat 64 e - BitVec.ofNat 64 old
    time := .estimated
    boundUs := boundUsOf ticks s.pwr.tEntry exit
    dormMs := e / 1000000
    sleepMs := e / 1000000 } }

/-- T_exit has been measured: E and B are formed with it. -/
def State.exitMeasured (s : State) (period : Nat) : State :=
  match s.pwr.ticks with
  | some n =>
    if s.pwr.dormExit ∧ s.pwr.boot ≠ .regulator ∧ s.pwr.boot ≠ .oscillator then
      let s := if s.pwr.time = .estimated then s.estimate n period (slept s.pwr.ppmEntry (elapsedNs n s.pwr.tEntry s.pwr.tEntry)) else s
      { s with pwr := { s.pwr with ticks := none } }
    else s
  | none => s

def execTExitMeasured (dt period : Nat) (s : State) : Host.Outcome State Fault Refusal :=
  .next ((s.elapse dt).exitMeasured period)

def execTickPeriodMeasured (dt period : Nat) (s : State) : Host.Outcome State Fault Refusal :=
  let s := s.elapse dt
  .next (if s.pwr.state = .dormant ∨ s.pwr.oscLost.isSome ∨ s.pwr.boot = .held ∨ s.pwr.boot = .regulator
      ∨ s.pwr.boot = .oscillator then s
    else { s with pwr := { s.pwr with tickNs := period % 2 ^ 32 } })

/-! ### The reference oscillator (R29, R335, R239) -/

def execReferenceLoss (dt : Nat) (s : State) : Host.Outcome State Fault Refusal :=
  let s := s.elapse dt
  .next (if s.pwr.oscLost.isSome ∨ !s.logicUp ∨ s.pwr.state = .dormant then s
    else
      (({ s with
        pwr := { s.pwr with time := .invalid, oscLost := some s.clk }
        diag := { s.diag with clockAt := s.clk } }).evt 0x0606 3 0xFF 0 0 0 s.frm.frame.toNat).addCause 9)

/-- The oscillator has passed its check: the outage is estimated from the sleep timer. -/
def State.clockBack (s : State) (ticks : Nat) : State :=
  let t := s.pwr.tickNs
  let e := slept s.thm.sleepPpm (elapsedNs ticks t t)
  (State.evt { s with pwr := { s.pwr with
    devtime := s.pwr.devtime + BitVec.ofNat 64 e
    time := .estimated
    boundUs := boundUsOf ticks t t
    oscLost := none } } 0x0606 3 0xFF 1 0 (e / 1000000) s.frm.frame.toNat).clearCauses (2 ^ 9)

def execClockRestored (dt ticks : Nat) (s : State) : Host.Outcome State Fault Refusal :=
  let s := s.elapse dt
  .next (if s.pwr.oscLost.isSome then s.clockBack ticks else s)

/-! ### Entering ACTIVE (R334, R340) -/

/-- ms in the state that is left. -/
def State.msHere (s : State) : Nat := min (s.since s.pwr.entered / 1000000) 0xFFFFFFFF

/-- PWR_ENTERED: the engine enters a state, with a wake cause or 0xFFFF. -/
def State.powerEntered (s : State) (new : Power) (wake : Nat) : State :=
  let ms := s.msHere
  let old := s.pwr.state
  let s := { s with pwr := { s.pwr with state := new, entered := s.clk } }
  s.evt 0x0B01 0 0xFF (powerCode new) (powerCode old) wake ms

/-- The engine enters ACTIVE from IDLE: START, the host-stale timer, the step trims; the light waits
for the trims. -/
def State.enterActive (s : State) (wake : Nat) : State :=
  let s := s.powerEntered .active wake
  let s := { s with
    pwr := { s.pwr with trimming := true, trimsAt := none }
    frm := { s.frm with staleStart := some s.clk }
    thm := { s.thm with tHist := [] }
    str := { s.str with shut := false } }
  let s := ((s.crestAll .paused .running).releaseHeld).addCause 14
  { s with comp := { s.comp with fbCheck := {} } }

/-! ### Start-up (R31, R325, R326) -/

/-- The stage that is at hand, from 1, or 0. -/
def stageOf : Boot → Nat
  | .regulator => 1
  | .oscillator => 2
  | .memory => 3
  | .logic => 4
  | _ => 0

/-- A scene's slot is read as a copy reads it (R276 code 7): whether it passes, and its CRC-32. -/
def State.sceneCheck (s : State) (base : Nat) (e : SceneEntry) : State × Bool × Nat :=
  let r := s.readSpan 7 base 65536
  let crc := crc32 (s.mramBytes base 65536)
  (r.1, e.valid && r.2.isEmpty && decide (e.crc = w32 crc), crc)

/-- A valid scene's slot is copied to the scene store (R100). -/
def State.sceneCopy (s : State) (n base : Nat) : State :=
  s.setSram (0x800000 + 65536 * n) (s.mramBytes base 65536)

/-- SCENE_INVALID (R119). -/
def State.sceneInvalid (s : State) (n slot crc : Nat) (e : SceneEntry) : State :=
  s.evt 0x0301 2 0xFF n slot crc e.crc.toNat

/-- Scene 0 is copied from its current slot, else from the other one (R100). -/
def State.loadSceneZero (s : State) : State :=
  let one := fun (s : State) (q : Bool) =>
    let e : SceneEntry := if q then s.nvm.sceneQ else tget (fun _ => {}) s.nvm.scenes 0
    let base := if q then 0x10700000 else 0x10400000
    let c := s.sceneCheck base e
    let t := c.1.sceneCopy 0 base
    if c.2.1 then ({ t with nvm := { t.nvm with slotQ := q } }, true)
    else (c.1.sceneInvalid 0 (b2n q) c.2.2 e, false)
  let first := one s s.nvm.slotQ
  if first.2 then first.1
  else
    let second := one first.1 (!s.nvm.slotQ)
    if second.2 then second.1
    else
      ({ second.1 with nvm := { second.1.nvm with
        scenes := tmod (fun _ => {}) second.1.nvm.scenes 0 fun (e : SceneEntry) => { e with valid := false }
        sceneQ := { second.1.nvm.sceneQ with valid := false } } }).latchFault 11

/-- One of scenes 1 to 15 is copied (R100). -/
def State.loadScene (s : State) (n : Nat) : State :=
  let e : SceneEntry := tget (fun _ => {}) s.nvm.scenes n
  let base := 0x10400000 + 65536 * n
  let c := s.sceneCheck base e
  if c.2.1 then c.1.sceneCopy n base
  else
    let s := c.1.sceneInvalid n 2 c.2.2 e
    { s with nvm := { s.nvm with
      scenes := tmod (fun _ => {}) s.nvm.scenes n fun (e : SceneEntry) => { e with valid := false } } }

/-- Every scene. -/
def State.loadScenes (s : State) : State :=
  (List.range 15).foldl (fun (s : State) n => s.loadScene (n + 1)) s.loadSceneZero

/-- The slot that start-up selects: the ACTIVE one (R31, R357). -/
def State.bootSlot (s : State) : State :=
  { s with nvm := { s.nvm with
    running := if s.nvm.slotA = .active then 0 else if s.nvm.slotB = .active then 1 else s.nvm.running } }

/-- The events of a power-up that reaches ACTIVE (R324, R340). -/
def State.upEvents (s : State) : State :=
  let s := if s.pwr.dormExit then
      s.evt 0x0B01 0 0xFF 0 3 s.pwr.wake (min s.pwr.dormMs 0xFFFFFFFF) else s
  let s := { s with pwr := { s.pwr with entered := s.clk } }
  let s := if s.pwr.failedUps then
      ({ s with pwr := { s.pwr with failedUps := false } }).evt 0x0B02 3 0xFF (bits s.pwr.fault.toNat 3 0)
        (bits s.pwr.fault.toNat 11 4) s.pwr.fault.toNat 0
    else s
  match s.pwr.supply with
  | some (r, _) =>
    ({ s with pwr := { s.pwr with supply := none, supplyMs := none } }).evt 0x0B03 3 0xFF (railCode r) 0
      (s.pwr.supplyMs.getD 0) 0
  | none => s

/-- The working copies are filled (R31 step 4), and step 5 begins: the reference DACs take TILE_REF (R85). -/
def State.startUp (s : State) : State :=
  let s := (s.takeImage.loadScenes.journalScan).setDacs .full
  { s with
    jrn := { s.jrn with recover := true }
    fw := { s.fw with starting := false } }

/-- The logic stage is ready: the thermal monitor starts (R317), and the sequencer starts from the selected slot
(R31 steps 3 to 5). Without an image that verifies it does not (R17; DEDUCED, log 12). -/
def State.logicReady (s : State) : State :=
  let s := { s.bootSlot with
    pwr := { s.pwr with boot := .trims }
    grp := { s.grp with node := s.nvm.node.getD 16383, groups := s.nvm.groups } }
  let s := s.upEvents.thermStart.releaseHeld.copyImage
  if s.fw.noImage then { s with fw := { s.fw with starting := true } } else s.startUp

/-- OSC_OK: on an exit from DORMANT, DEVTIME goes on from the estimate (R326). -/
def State.oscReady (s : State) : State :=
  let s := { s with pwr := { s.pwr with boot := .memory } }
  if s.pwr.dormExit then
    let n := s.pwr.ticks.getD 0
    s.estimate n s.pwr.tEntry 0
  else s

/-- The stage at hand sets its ready signal. -/
def State.stageReady (s : State) : State :=
  let s := { s with pwr := { s.pwr with stageTry := 0 } }
  match s.pwr.boot with
  | .regulator => { s.setGens gensRun with pwr := { (s.setGens gensRun).pwr with boot := .oscillator } }
  | .oscillator => s.oscReady
  | .memory => { s with pwr := { s.pwr with boot := .logic } }
  | .logic => s.logicReady
  | _ => s

def execPowerupStageReady (dt : Nat) (s : State) : Host.Outcome State Fault Refusal :=
  let s := s.elapse dt
  .next (if stageOf s.pwr.boot = 0 then s else s.stageReady)

/-- The step trims end (R259): at start-up with the accesses of R85, and the PTB starts. Talus starts at address
0 then, with new laps (R281, R287), and the first coverage cycle of the self-tests (R292). -/
def State.trimsDone (s : State) (dac : List Nat) (cmp : List (List Nat)) : State :=
  let s := if s.fw.starting then s.startUp else s
  let s := s.applyTrims dac cmp
  let s := { s with pwr := { s.pwr with trimsAt := some s.clk, trimming := false } }
  if s.pwr.boot = .trims then
    let s := s.writeAllTrims
    let s := { s with
      bist := { s.bist with cycleAt := s.clk }
      mem := { s.mem with sramPos := 0, mramPos := 0, sramStart := s.clk, mramStart := s.clk }
      pwr := { s.pwr with boot := .firstSeam }
      frm := { s.frm with
        running := true
        index := 0
        sub := s.frm.sub + 1
        subStart := s.clk
        latchClk := s.clk
        latchTime := s.pwr.devtime } }
    s.vfbRelease.assignMarked
  else s

def execStepTrimsDone (dt : Nat) (dac : List Nat) (cmp : List (List Nat)) (s : State) : Host.Outcome State Fault Refusal :=
  let s := s.elapse dt
  .next (if (s.pwr.boot = .trims ∨ s.pwr.trimming) ∧ s.pwr.state = .active ∧ !s.fw.noImage then s.trimsDone dac cmp
    else s)

/-! ### DORMANT (R320, R325, R342) -/

/-- The engine enters DORMANT: only the always-on domain keeps anything; T_entry is latched. -/
def State.toDormant (s : State) (armed : Nat) (burst : Bool) (timer : Word) (act : Bool) : State :=
  let d := s.fullReset .held 0 s.pwr.wake
  { d with
    diag := { d.diag with heldCauses := s.diag.heldCauses }
    nvm := { d.nvm with dormCount := satAdd 16 d.nvm.dormCount 1 }
    pwr := { d.pwr with
      state := .dormant
      devtime := s.pwr.devtime
      time := s.pwr.time
      tEntry := s.pwr.tickNs
      ppmEntry := if s.thm.started then s.thm.sleepPpm else s.pwr.ppmEntry
      armed := armed
      burst := burst
      timerMs := timer
      wakeAct := act
      entered := s.clk
      lastSleep := 3 } }

/-- A power-up fails for good (R325, R341): PWR_FAULT, and DORMANT with the WAKE land alone armed. -/
def State.powerupFails (s : State) (detail : Nat) : State :=
  let fails := satAdd 8 (bits s.pwr.fault.toNat 23 16) 1
  let s := { s with pwr := { s.pwr with
    fault := w32 (stageOf s.pwr.boot + 16 * (detail % 256) + 65536 * fails)
    failedUps := true } }
  s.toDormant 1 false 0 false

/-- A stage has not set its ready signal in time. -/
def State.stageTimeout (s : State) (detail : Nat) : State :=
  if s.pwr.stageTry < 3 then
    { s with pwr := { s.pwr with
      stageTry := s.pwr.stageTry + 1
      retries := tput (fun _ => 0) s.pwr.retries (stageOf s.pwr.boot) (s.pwr.stageTry + 1) } }
  else s.powerupFails detail

def execPowerupStageTimeout (dt : Nat) (detail : Byte) (s : State) : Host.Outcome State Fault Refusal :=
  let s := s.elapse dt
  .next (if stageOf s.pwr.boot = 0 then s else s.stageTimeout detail.toNat)

/-- An exit from DORMANT: the power-up runs, N has been latched. -/
def State.wakeDormant (s : State) (cause ticks : Nat) : State :=
  ({ s with pwr := { s.pwr with
    state := .active
    dormExit := true
    wake := cause
    wakeAt := some s.clk
    ticks := some ticks } }).letGo

/-! ### STANDBY and IDLE (R320, R327, R328, R342) -/

/-- Every context is released (R123), and FORCE_LEVEL is cleared (R138). -/
def State.releaseContexts (s : State) : State := (s.releaseAll (s.activeCtx.map (·.1))).clearForce

/-- A lane in STANDBY: one that was ACTIVE keeps its trims in L2, any other waits in DETECT. -/
def laneSleeps (x : LaneSt) : LaneSt :=
  if x.stage = .active then { x with fwd := .l2, ret := .l2, rxReady := false } else laneIdle x

/-- The engine enters IDLE. -/
def State.toIdle (s : State) : State := s.releaseContexts.spoilSweeps.powerEntered .idle 0xFFFF

/-- A row-group as it stands in STANDBY: every cell holds MASK 1 and code 0 (R323). -/
def RowGroup.asleep (r : RowGroup) : RowGroup :=
  { r with cells := [], before := [], pending := none, ready := [] }

/-- The engine enters STANDBY (R320): the PTB and the tracker stop, sessions close, Crest stops. -/
def State.toStandby (s : State) (n : Nego) : State :=
  let s := (s.lines.releaseContexts.spoilSweeps.setGens gensStandby).edgeTimeouts fun _ => true
  let s := (s.crestAll .running .stopped).crestAll .paused .stopped
  let s := (s.setLane .a (laneSleeps s.link.laneA)).setLane .b (laneSleeps s.link.laneB)
  let s := { s with
    fw := { s.fw with sessions := [] }
    comp := { s.comp with passes := [], tokens := [] }
    pix := { s.pix with groups := s.pix.groups.map fun (e : Nat × RowGroup) => (e.1, e.2.asleep) }
    frm := { s.frm with running := false, change := none, seam := none }
    bist := { s.bist with migrating := none }
    nvm := { s.nvm with stbyCount := satAdd 16 s.nvm.stbyCount 1 }
    pwr := { s.pwr with
      armed := n.wakeEn
      burst := n.burst
      timerMs := n.timerMs
      wakeAct := n.wakeAct
      lastSleep := 2 } }
  s.powerEntered .standby 0xFFFF

/-- A wake from STANDBY (R328): the blocks resume, the PTB runs free at SYNC_NOM, and the SRAM cursor of Talus
starts a new lap (R281). -/
def State.wakeStandby (s : State) (cause : Nat) : State :=
  let s := s.setGens gensRun
  let s := { s with
    mem := { s.mem with sramPos := 0, sramStart := s.clk }
    pwr := { s.pwr with
      linkOff := false
      wake := cause
      wakeAt := some s.clk
      sleepMs := s.msHere }
    frm := { s.frm with
      running := true
      state := if s.flag pSyncCtrl 0 then .acquiring else .free
      acquired := false
      edgeRun := 0
      lastEdge := none
      missed := 0
      pullIn := 0
      holdStart := none
      timing := s.timingWanted (nomPs (s.live pSyncNom))
      index := 0
      sub := s.frm.sub + 1
      subStart := s.clk
      latchClk := s.clk
      latchTime := s.pwr.devtime } }
  let act := s.pwr.wakeAct
  let s := s.powerEntered .idle cause
  if act then s.enterActive cause else s

/-! ### Sleep negotiation (R330 to R333) -/

/-- The blocks that a change to a state quiesces, in order. -/
def sleepBlocks (target : Nat) : List Nat :=
  match target with
  | 1 => [1, 6, 7]
  | 2 => [1, 2, 3, 4, 5, 6, 7]
  | _ => [1, 2, 3, 4, 5, 6, 7, 8]

/-- A BIST_RUN that block 1 refuses for: for IDLE a TILE test only. -/
def bistRefuses (target : Nat) (b : Job) : Bool :=
  match b.kind with
  | .bistRun ty _ _ => decide (2 ≤ target) || decide (ty = 2)
  | _ => false

/-- A lane retrains in service, a LINK_RETRAIN of its return runs, or a reseat window is open (R330). -/
def LaneSt.retraining (x : LaneSt) : Bool :=
  x.inService || x.retrainReq || (x.retTrain && x.retAsked) || decide (0 < x.reseatLeft)

/-- The limp loader is running (R117). -/
def State.limpRuns (s : State) : Bool :=
  match s.comp.limp.stage with
  | .reading => true
  | .ready => true
  | .loading => true
  | _ => false

/-- The MRAM inhibit, which FORCE does not override. -/
def State.inhibitRefuses (s : State) (n : Nego) : Bool := decide (n.target = 3) && s.thm.inhibit

/-- A block refuses. -/
def State.refuses (s : State) (n : Nego) (b : Nat) : Bool :=
  match b with
  | 1 => s.cmd.jobs.any (bistRefuses n.target)
  | 2 => (List.range 4).any fun u => (s.cvu u).run.isSome
  | 3 => s.cmd.jobs.any storesMram || s.inhibitRefuses n
  | 5 => s.link.laneA.retraining || s.link.laneB.retraining
  | 6 => !s.pwr.pixOff && (s.limpRuns || decide (s.frm.state = .switching))
  | _ => false

/-- Every record has left on the link and been read over SPI, or SPI_GRACE_MS has elapsed. -/
def State.recordsGone (s : State) (n : Nego) : Bool :=
  ((List.range 16).all fun k => (s.outRing (48 + k)).isEmpty)
    || decide (s.fld pSpiGraceMs 9 0 * 1000000 ≤ s.since n.since)

/-- A block that does not refuse has quiesced. -/
def State.quiet (s : State) (n : Nego) (b : Nat) : Bool :=
  match b with
  | 3 => s.mem.writes.isEmpty && s.jrn.lines.all fun l => decide (l.jseq = n.jseq)
  | 5 => s.recordsGone n
  | 6 => !s.pwr.trimming && s.pwr.trimsAt.isNone
  | _ => true

/-- The stress integrals are stored (R338). -/
def State.storeStress (s : State) : State :=
  if s.thm.inhibit then s
  else { s with
    nvm := { s.nvm with lit := s.pwr.lit, charge := s.pwr.charge }
    pwr := { s.pwr with stressAt := s.clk } }

/-- FORCE stops what a block would refuse for (R331). -/
def State.forceBlock (s : State) (n : Nego) (b : Nat) : State :=
  match b with
  | 1 => (s.cmd.jobs.filter (bistRefuses n.target)).foldl (fun s x => s.endJob x stAbortPower x.step true 0) s
  | 2 => (List.range 4).foldl (fun (s : State) u => match s.cvuJob u with
      | some x =>
        let f := s.freeW
        let g := f.1.freeW
        g.1.endRun u x stAbortPower f.2.toNat g.2.toNat
      | none => s) s
  | 3 => (s.cmd.jobs.filter storesMram).foldl (fun s x => s.stopStore x stAbortPower) s
  | 5 => [Lane.a, Lane.b].foldl (fun (s : State) l =>
      if (s.lane l).retraining then
        let s := if (s.lane l).reseatLeft = 0 then s else s.retrainEvt l 1 2
        let s := if (s.lane l).inService ∨ (s.lane l).retrainReq then s.retrainEvt l 0 2 else s
        let s := if (s.lane l).retTrain ∧ (s.lane l).retAsked then s.retrainEvt l 2 2 else s
        s.setLane l (laneIdle (s.lane l))
      else s) s
  | _ => s

/-- A block quiesces (R330). -/
def State.quiesce (s : State) (b : Nat) : State :=
  match b with
  | 3 => s.storeStress
  | 5 => { s with pwr := { s.pwr with linkOff := true } }
  | 6 => ({ s with pwr := { s.pwr with pixOff := true } }).setDacs .off
  | 7 => (({ s with str := { s.str with shut := true } }).shutStrings).crestAll .running .paused
  | _ => s

/-- The slices that block 1 stops, whether or not it refuses afterwards. -/
def State.stopSlices (s : State) (n : Nego) : State :=
  let s := s.abortSlice fun ty _ => decide (2 ≤ n.target) || decide (ty = 2)
  if 2 ≤ n.target then { s with bist := { s.bist with migrating := none } } else s

/-- The blocks still to come quiesce in their order, up to the first that refuses or is not quiet. -/
def State.negoGo (s : State) (n : Nego) : List Nat → State
  | [] => { s with pwr := { s.pwr with nego := some { n with block := 9 } } }
  | b :: r =>
    let n := if n.block = b then n else { n with block := b, since := s.clk }
    let s := if n.force then s.forceBlock n b else s
    if s.refuses n b then { s with pwr := { s.pwr with nego := some n } }
    else
      let s := if b = 1 then s.stopSlices n else s
      if s.quiet n b then (s.quiesce b).negoGo { n with done := n.done ++ [b] } r
      else { s with pwr := { s.pwr with nego := some n } }

/-- The negotiation goes on from the block at hand. -/
def State.negoAdvance (s : State) : State :=
  match s.pwr.nego with
  | some n =>
    if n.block = 9 then s
    else s.negoGo n ((sleepBlocks n.target).filter fun b => !n.done.contains b)
  | none => s

/-- The negotiation goes on outside PWR_STATE's own execution, and the reply follows its end. -/
def State.negoTick (s : State) : State :=
  match s.pwr.nego with
  | none => s
  | some n =>
    let s := s.negoAdvance
    match s.pwr.nego with
    | some m => if m.block = 9 ∧ n.block ≠ 9 then s.negoReply m stOk 0 1 else s
    | none => s

/-- The negotiation ends at a block: REFUSED or TIMEOUT, after the blocks have restarted (R332). -/
def State.negoFails (s : State) (n : Nego) (status : Nat) : State :=
  let s := s.negoRollback n
  let s := { s with pwr := { s.pwr with refusals := satAdd 16 s.pwr.refusals 1, lastBlock := n.block } }
  s.negoReply n status n.block 0

/-- QUIESCE_MS has passed for the block at hand; `stuck` says that it neither quiesces nor refuses for
a reason of its own. -/
def State.quiesceTimeout (s : State) (stuck : Bool) : State :=
  match s.pwr.nego with
  | none => s
  | some n =>
    if n.block = 9 then s
    else if s.refuses n n.block && !stuck then s.negoFails n stRefused
    else if stuck then s.negoFails n stTimeout
    else
      let t := s.negoTick
      match t.pwr.nego with
      | some m => if m.block = n.block then t.negoFails m stTimeout else t
      | none => t

def execQuiesceTimeout (dt : Nat) (stuck : Bool) (s : State) : Host.Outcome State Fault Refusal :=
  .next ((s.elapse dt).quiesceTimeout stuck)

/-- The reply has left: no record of this PWR_STATE waits in its ring. -/
def State.replyLeft (s : State) (n : Nego) : Bool :=
  !((s.outRing (replyRing n.pkt)).any fun x =>
    decide (x.bytes.take 2 = leBytes 2 n.opcode) && decide ((x.bytes.drop 24).take 4 = leBytes 4 n.jseq.toNat))

/-- The engine enters the state that was negotiated. -/
def State.enterSleep (s : State) (n : Nego) : State :=
  let s := { s with pwr := { s.pwr with nego := none } }
  match n.target with
  | 1 => s.toIdle
  | 2 => s.toStandby n
  | _ => s.toDormant n.wakeEn n.burst n.timerMs n.wakeAct

def execSleepEntry (dt : Nat) (s : State) : Host.Outcome State Fault Refusal :=
  let s := s.elapse dt
  .next (match s.pwr.nego with
    | some n => if n.block = 9 then s.enterSleep n else s.negoTick
    | none => s)

/-! ### Wakes (R327 to R329, R333) -/

/-- N ticks have been counted in DORMANT, in 40 bits (R337). -/
def State.ticksNow (s : State) : Nat := s.since s.pwr.entered / max 1 s.pwr.tEntry % 2 ^ 40

/-- N of a sleep-timer wake. -/
def State.timerTicks (s : State) : Nat := ceilDiv (s.pwr.timerMs.toNat * 1000000) (max 1 s.pwr.tEntry)

/-- A source of the wake fires, by its bit of WAKE_EN and its code. A second source within one tick
takes the record if its code is lower. -/
def State.wakeUp (s : State) (bit cause : Nat) : State :=
  let s := match s.pwr.nego with
    | some n => if n.block = 9 ∧ 2 ≤ n.target ∧ bitOf n.wakeEn bit ∧ s.replyLeft n then s.enterSleep n else s
    | none => s
  if !bitOf s.pwr.armed bit then s
  else match s.pwr.state with
    | .standby => s.wakeStandby cause
    | .dormant => s.wakeDormant cause (if cause = 6 then s.timerTicks else s.ticksNow)
    | _ => match s.pwr.wakeAt with
      | some t => if s.clk < t + s.pwr.tickNs ∧ cause < s.pwr.wake then
          { s with pwr := { s.pwr with wake := cause } } else s
      | none => s

def execWakeLand (dt : Nat) (s : State) : Host.Outcome State Fault Refusal :=
  .next ((s.elapse dt).wakeUp 0 3)

/-- An interval of the wake burst: 20 us to 200 us (R329). -/
def burstSpan (ns : Nat) : Bool := decide (20000 ≤ ns) && decide (ns ≤ 200000)

/-- The wake burst is accepted, `n` good intervals having gone by: 20 us into the third off-interval. An interval
outside its range restarts the count (R329). -/
def burstHeard : Nat → List Envelope → Bool
  | _, [] => false
  | n, e :: r =>
    if !e.on ∧ n = 5 ∧ 20000 ≤ e.ns then true
    else
      let good := burstSpan e.ns && (!e.on || e.alt)
      if good && (e.on == decide (n % 2 = 0)) then burstHeard (n + 1) r
      else burstHeard (if good && e.on then 1 else 0) r

/-- The detector of a lane fires (R327): in WAKE_MODE 0 on any envelope of 1 us, in WAKE_MODE 1 on the burst. -/
def State.laneHeard (s : State) (env : List Envelope) : Bool :=
  let burst := match s.pwr.nego with
    | some n => if n.block = 9 then n.burst else s.pwr.burst
    | none => s.pwr.burst
  if burst then burstHeard 0 env else env.any fun e => e.on && decide (1000 ≤ e.ns)

def execLaneWake (dt : Nat) (heard : LaneSignal) (s : State) : Host.Outcome State Fault Refusal :=
  let s := s.elapse dt
  .next (if s.laneHeard heard.env then s.wakeUp (1 + heard.lane.num) (4 + heard.lane.num) else s)

def execSleepTimerWake (dt : Nat) (s : State) : Host.Outcome State Fault Refusal :=
  .next ((s.elapse dt).wakeUp 3 6)

/-! ### Line writes and runs that a negotiation may wait for -/

def execMramLineWrite (dt : Nat) (verified : Bool) (s : State) : Host.Outcome State Fault Refusal :=
  .next ((s.elapse dt).lineWritten verified).negoTick

def execJournalLineWrite (dt : Nat) (verified : Bool) (s : State) : Host.Outcome State Fault Refusal :=
  let s := s.elapse dt
  .next ((if s.thm.jInhibit then s else s.journalWritten verified).negoTick)

def execCvuDone (dt : Nat) (unit : Fin 4) (ups : Upsets) (s : State) : Host.Outcome State Fault Refusal :=
  .next (((s.elapse dt).arise ups).cvuDone unit.val).negoTick

def execStressStore (dt : Nat) (s : State) : Host.Outcome State Fault Refusal :=
  let s := s.elapse dt
  .next (if s.pwr.state = .active then s.storeStress else s)

/-! ### SET_TIME (R343) -/

/-- The DEVTIME of a recorded edge. -/
def State.edgeAt (s : State) (c : Word) : Option (BitVec 64) :=
  (s.pwr.edges.find? fun e => decide (e.count = c)).map (·.time)

/-- EDGE lies ahead of SYNC_COUNT, by at most 16. -/
def State.edgeAhead (s : State) (c : Word) : Bool :=
  decide (1 ≤ (c - s.pwr.syncCount).toNat) && decide ((c - s.pwr.syncCount).toNat ≤ 16)

/-- NOW. -/
def timeNow (p : Pkt) : Bool := bitOf (p.u32 20) 0

def setTimeDef : OpDef :=
  { rlen := fun _ => 4
    len := fun p => decide (p.plen = 4)
    bad := fun p s => need (decide (p.u32 20 ≤ 1)
      && (if timeNow p then decide (p.u32 16 = 0)
          else (s.edgeAt (w32 (p.u32 16))).isSome || s.edgeAhead (w32 (p.u32 16))))
    gate := fun p s => stop (decide (s.pwr.time = .invalid) || (!timeNow p && decide (s.frm.state ≠ .locked))) stWrongState
    run := fun j p s =>
      let new : BitVec 64 := BitVec.ofNat 64 (p.u64 24)
      if timeNow p then
        okOut (s.timeStep p.ring new.toNat true 0) (setTimeWords (new - s.pwr.devtime) new)
      else match s.edgeAt (w32 (p.u32 16)) with
        | some t =>
          okOut (s.timeStep p.ring (s.pwr.devtime + (new - t)).toNat false (p.u32 16)) (setTimeWords (new - t) new)
        | none =>
          { s := { s with cmd := { s.cmd with held := s.cmd.held ++
              [{ opcode := 0x0009, pkt := p, jseq := j, kind := .edge (w32 (p.u32 16)) new, since := s.clk }] } }
            step := 0
            replies := false } }

def execSetTime (p : Pkt) (s : State) : Host.Outcome State Fault Refusal :=
  .next (serveOp 0x0009 setTimeDef p false s)

/-- How long a SET_TIME waits for its edge, in ns. -/
def State.edgeWait (s : State) : Nat := 16 * (s.frm.timing.syncPs / 1000) + 100000000

def execSetTimeEdgeTimeout (dt : Nat) (s : State) : Host.Outcome State Fault Refusal :=
  let s := s.elapse dt
  .next (s.edgeTimeouts fun h => decide (s.edgeWait ≤ s.since h.since))

/-! ### TIME_STATUS -/

/-- The results of TIME_STATUS. -/
def timeStatusWords (s : State) : List Word :=
  words64 s.pwr.devtime.toNat
    ++ [w32 (timeCode s.pwr.time), if s.pwr.time = .estimated then w32 s.pwr.boundUs else 0, s.pwr.syncCount]
    ++ words64 s.pwr.lastSet.toNat ++ words64 (twos 64 s.pwr.lastStep) ++ [w32 s.pwr.dormMs, w32 s.pwr.tickNs]

def timeStatusDef : OpDef :=
  { jnl := jnlNone
    rlen := fun _ => 11
    len := fun p => decide (p.plen = 0)
    run := fun _ _ s => okOut s (timeStatusWords s) }

def execTimeStatus (p : Pkt) (s : State) : Host.Outcome State Fault Refusal :=
  .next (serveOp 0x000A timeStatusDef p false s)

/-! ### PWR_STATE (R342) -/

/-- TARGET of a PWR_STATE. -/
def pwrTarget (p : Pkt) : Nat := p.u8 16

/-- The present state's number: 0 ACTIVE, 1 IDLE (R339). -/
def State.pwrNow (s : State) : Nat := powerCode s.pwr.state

/-- A lane that is armed is in ACTIVE (R327). -/
def State.armedOk (s : State) (en : Nat) : Bool :=
  (!bitOf en 1 || decide (s.link.laneA.stage = .active)) && (!bitOf en 2 || decide (s.link.laneB.stage = .active))

/-- The negotiation that a PWR_STATE opens. -/
def State.negoOf (s : State) (j : Word) (p : Pkt) : Nego :=
  { target := pwrTarget p
    force := bitOf (p.u8 17) 0
    wakeAct := bitOf (p.u8 17) 1
    wakeEn := p.u16 18
    burst := decide (p.u8 20 = 1)
    timerMs := w32 (p.u32 24)
    block := 0
    since := s.clk
    opcode := 0x0B01
    pkt := p
    jseq := j
    gap := false
    before := s.pwrNow }

/-- A change to a lower state begins: the reply is given at once if every block quiesces at once. -/
def pwrLower (j : Word) (p : Pkt) (s : State) : Out :=
  let n := s.negoOf j p
  let s := s.negoGo n (sleepBlocks n.target)
  match s.pwr.nego with
  | some m =>
    if m.block = 9 then okOut s [negoWord m 0] else { s := s, step := 0, replies := false }
  | none => { s := s, step := 0, replies := false }

/-- ACTIVE from IDLE: the reply waits for the first fallback seam. -/
def pwrActive (j : Word) (p : Pkt) (s : State) : Out :=
  let s := s.enterActive 0xFFFF
  { s := { s with cmd := { s.cmd with held := s.cmd.held ++
      [{ opcode := 0x0B01, pkt := p, jseq := j, kind := .fallbackSeam, since := s.clk }] } }
    step := 0
    replies := false }

def pwrStateDef : OpDef :=
  { jnl := fun p => if 2 ≤ pwrTarget p then 2 else 1
    rlen := fun _ => 1
    len := fun p => decide (p.plen = 3)
    bad := fun p s => need (decide (pwrTarget p ≤ 3) && decide (p.u8 17 ≤ 3) && decide (p.u16 18 ≤ 15)
      && decide (p.u8 20 ≤ 1) && p.zero 21 3
      && (decide (2 ≤ pwrTarget p) == decide (p.u16 18 ≠ 0))
      && (bitOf (p.u16 18) 3 == decide (p.u32 24 ≠ 0)) && s.armedOk (p.u16 18))
    gate := fun _ s => stop s.pwr.nego.isSome stBusy
    run := fun j p s =>
      if pwrTarget p = s.pwrNow then okOut s [w32 (256 * s.pwrNow)]
      else if pwrTarget p = 0 then pwrActive j p s
      else pwrLower j p s }

def execPwrState (p : Pkt) (s : State) : Host.Outcome State Fault Refusal :=
  .next (serveOp 0x0B01 pwrStateDef p false s)

/-! ### PWR_STATUS -/

/-- RETRIES: two bits a stage. -/
def State.retryByte (s : State) : Nat :=
  sumOf ((List.range 4).map fun k => 4 ^ k * (tget (fun _ => 0) s.pwr.retries (k + 1) % 4))

/-- The results of PWR_STATUS. -/
def pwrStatusWords (s : State) : List Word :=
  [w32 (s.pwrNow + 256 * s.pwr.wake + 65536 * s.retryByte + 2 ^ 24 * s.pwr.lastSleep), s.pwr.fault,
   w32 (min s.pwr.sleepMs 0xFFFFFFFF), halves s.nvm.stbyCount s.nvm.dormCount,
   w32 (s.pwr.refusals + 65536 * s.pwr.lastBlock), w32 (s.pwr.activeNs / 10 ^ 9),
   w32 (s.since s.pwr.stressAt / 10 ^ 9), 0]
    ++ (List.range 16).flatMap fun t =>
      [w32 (tget (fun _ => 0) s.pwr.lit t / 10 ^ 9), w32 (tget (fun _ => 0) s.pwr.charge t / 10 ^ 18)]

def pwrStatusDef : OpDef :=
  { jnl := jnlNone
    rlen := fun _ => 40
    len := fun p => decide (p.plen = 1)
    bad := fun p _ => need (decide (p.u32 16 ≤ 1))
    run := fun _ p s =>
      okOut (if bitOf (p.u32 16) 0 then { s with pwr := { s.pwr with fault := 0 } } else s) (pwrStatusWords s) }

def execPwrStatus (p : Pkt) (s : State) : Host.Outcome State Fault Refusal :=
  .next (serveOp 0x0B02 pwrStatusDef p false s)

end Sys2Proof.Machine
end

