-- ==== Sys2Proof/Machine/Groups.lean ====
section
/-! DEFINITION. Groups of engines (17_group_operation.md): addresses and memberships, the timed queue
and its releases, and the opcodes 0x0E01 to 0x0E04. -/

namespace Sys2Proof.Machine

/-! ### NODE_SET and GROUP_SET (R364, R365)

Where the store of a value fails, nothing is changed and the status is NVM_FAULT (DESIGN CHOICE, log 40). -/

/-- STORE needs MRAM (R314). -/
def storeGate (s : State) (store : Bool) : Option (Nat × List Word) := stop (store && s.thm.inhibit) stWrongState

/-- SERIAL of a NODE_SET whose own parameters begin at an offset. -/
def nodeSerial (p : Pkt) (off : Nat) : Nat := p.u64 off

/-- A NODE_SET addresses this engine by its serial (R39, NODE_SET). -/
def serialMeant (serial : Nat) : Bool := decide (serial = 0) || decide (serial = Config.serial.toNat)

def nodeSetDef : OpDef :=
  { jnl := fun p => if bitOf (p.u16 26) 0 then 2 else 1
    rlen := fun _ => 1
    len := fun p => decide (p.plen = 3)
    bad := fun p _ => need (decide (p.u16 24 ≤ 16383) && decide (p.u16 26 ≤ 1)
      && (p.unicast || decide (nodeSerial p 16 ≠ 0)))
    gate := fun p s => storeGate s (bitOf (p.u16 26) 0)
    run := fun _ p s =>
      let n : BitVec 14 := BitVec.ofNat 14 (p.u16 24)
      let c := if bitOf (p.u16 26) 0 then s.storeConf [0] else (s, true)
      let s := c.1
      if !c.2 then { s := s, status := stNvmFault, step := 0 }
      else okOut { s with
          grp := { s.grp with node := n }
          nvm := { s.nvm with node := if bitOf (p.u16 26) 0 then some n else s.nvm.node } }
        [w32 s.grp.node.toNat] }

/-- An engine with another serial takes the packet as not addressed to it. -/
def execNodeSet (p : Pkt) (s : State) : Host.Outcome State Fault Refusal :=
  .next (if serialMeant (nodeSerial p (if p.timed then 24 else 16)) then serveOp 0x0E01 nodeSetDef p false s else s)

/-- The membership after a GROUP_SET. -/
def groupsAfter (old mask value : BitVec 64) : BitVec 64 := (old &&& ~~~mask) ||| (value &&& mask)

def groupSetDef : OpDef :=
  { jnl := fun p => if bitOf (p.u32 32) 0 then 2 else 1
    rlen := fun _ => 2
    len := fun p => decide (p.plen = 5)
    bad := fun p _ => need (decide (p.u32 32 ≤ 1))
    gate := fun p s => storeGate s (bitOf (p.u32 32) 0)
    run := fun _ p s =>
      let g := groupsAfter s.grp.groups (BitVec.ofNat 64 (p.u64 16)) (BitVec.ofNat 64 (p.u64 24))
      let c := if bitOf (p.u32 32) 0 then s.storeConf [1] else (s, true)
      let s := c.1
      if !c.2 then { s := s, status := stNvmFault, step := 0 }
      else okOut { s with
          grp := { s.grp with groups := g }
          nvm := { s.nvm with groups := if bitOf (p.u32 32) 0 then g else s.nvm.groups } }
        (words64 g.toNat) }

def execGroupSet (p : Pkt) (s : State) : Host.Outcome State Fault Refusal :=
  .next (serveOp 0x0E02 groupSetDef p false s)

/-! ### GROUP_STATUS -/

/-- FLAGS of GROUP_STATUS. -/
def groupFlags (s : State) : Nat :=
  ofFlags [s.enginePasses, s.faultn, s.alertn, decide (s.frm.state = .locked), decide (s.pwr.time = .set),
    decide (s.pwr.state = .idle), !s.grp.queue.isEmpty]

/-- The summary of GROUP_STATUS. -/
def groupSummary (s : State) : List Word :=
  [w32 (s.grp.node.toNat + 65536 * s.diag.safe + 2 ^ 24 * groupFlags s), s.frm.frame,
   w32 (s.frm.latchTime.toNat / 1000),
   w32 (s.passMask + 65536 * ofFlags [s.lanePasses .a, s.lanePasses .b, s.carries .a, s.carries .b]
     + 2 ^ 24 * s.grp.queue.length)]

/-- The further figures with FULL. -/
def groupFull (s : State) : List Word :=
  let eye := fun (l : Lane) => minOf ((s.lane l).eyeH.headD 0) (s.lane l).eyeH
  (List.range 16).map (fun t => halves (s.sweep t).resMax (s.sweep t).resRms)
    ++ [halves (eye .a) (eye .b), halves s.thm.tf (twos 16 (s.sad.target - s.sad.peakPred))]

def groupStatusDef : OpDef :=
  { jnl := jnlNone
    rlen := fun p => if bitOf (p.u32 16) 0 then 22 else 4
    len := fun p => decide (p.plen = 1)
    bad := fun p _ => need (decide (p.u32 16 ≤ 1))
    run := fun _ p s => okOut s (groupSummary s ++ if bitOf (p.u32 16) 0 then groupFull s else []) }

def execGroupStatus (p : Pkt) (s : State) : Host.Outcome State Fault Refusal :=
  .next (serveOp 0x0E04 groupStatusDef p false s)

/-! ### The opcodes (R414), by number -/

/-- What each opcode does, TIMED_EXEC apart. -/
def opDefs : List (Nat × OpDef) :=
  [(0x0001, pingDef), (0x0002, identifyDef), (0x0003, resetDef), (0x0004, paramGetDef), (0x0005, paramSetDef),
   (0x0006, statusGetDef), (0x0007, eventAckDef), (0x0008, ringConfigDef), (0x0009, setTimeDef),
   (0x000A, timeStatusDef), (0x0101, objUpdateDef), (0x0102, objReleaseDef), (0x0103, objClearAllDef),
   (0x0104, forceLevelDef), (0x0105, fallbackEnterDef), (0x0106, fallbackExitDef), (0x0107, bendSetDef),
   (0x0201, frameCommitDef), (0x0202, scanSelectDef), (0x0203, timingStatusDef), (0x0204, freezeStatusDef),
   (0x0205, videoConfigDef), (0x0301, sceneWriteDef), (0x0302, sceneStoreDef), (0x0303, sceneMixDef),
   (0x0304, symbolWriteDef), (0x0305, ovlSetDef), (0x0306, ovlClearDef), (0x0307, lutWriteDef),
   (0x0308, windowSetDef), (0x0401, tileRefSetDef), (0x0402, driveStatusDef), (0x0403, budgetSetDef),
   (0x0404, saddleStatusDef), (0x0501, strConfigDef), (0x0502, strLevelDef), (0x0503, strStatusDef),
   (0x0504, crestLoadDef), (0x0505, crestControlDef)]
  ++ [(0x0601, diagStatusDef), (0x0602, diagMapReadDef), (0x0603, pixelMaskDef), (0x0604, faultClearDef),
   (0x0605, faultConfigDef), (0x0701, calSweepDef), (0x0702, calCommitDef), (0x0703, calStatusDef),
   (0x0704, calAbortDef), (0x0705, fluxWriteDef), (0x0801, memReadDef), (0x0802, memWriteDef),
   (0x0803, cvuConfigDef), (0x0804, cvuRunDef), (0x0805, errlogReadDef), (0x0806, scrubStatusDef),
   (0x0901, bistConfigDef), (0x0902, bistRunDef), (0x0903, bistResultDef), (0x0904, spurAssignDef),
   (0x0A01, thermStatusDef), (0x0A02, thermConfigDef), (0x0B01, pwrStateDef), (0x0B02, pwrStatusDef),
   (0x0C01, jrnlReadDef), (0x0C02, jrnlMarkDef), (0x0C03, stateDigestDef), (0x0C04, fwStageDef),
   (0x0C05, fwActivateDef), (0x0C06, authOpenDef), (0x0C07, authCloseDef), (0x0D01, linkStatusDef),
   (0x0D02, linkRetrainDef), (0x0D03, laneModeDef), (0x0D04, eyeReadDef), (0x0E01, nodeSetDef),
   (0x0E02, groupSetDef), (0x0E04, groupStatusDef)]

/-- What an opcode does, if it is known and not TIMED_EXEC. -/
def opDef (op : Nat) : Option OpDef := opDefs.lookup op

/-! ### TIMED_EXEC SCHEDULE (R368) -/

/-- The command that a SCHEDULE places: the packet's, with INNER_FLAGS' DURABLE, TIMED set, and the
parameters from INNER on. -/
def innerPkt (p : Pkt) : Pkt :=
  { p with
    flags := BitVec.ofNat 8 (p.cls + 4 * b2n p.ackreq + 8 * b2n (bitOf (p.u8 30) 3) + 16)
    params := p.params.drop 16 }

/-- The checks of step 8 on a SCHEDULE's own fields. -/
def scheduleOk (p : Pkt) : Bool :=
  decide (p.u8 16 = 0) && decide (p.u8 17 ≤ 1) && decide (p.u16 18 ≠ 0)
    && (decide (p.u8 30 = 0) || decide (p.u8 30 = 8)) && p.zero 31 1

/-- The inner opcode's group asks for a session that does not cover the ring (R360). -/
def State.innerNotAuth (s : State) (p : Pkt) (op : Nat) : Bool :=
  (s.covering p).isNone && bitOf s.nvm.require.toNat (op / 256)

/-- A SCHEDULE whose own parameters are `q`'s: steps 5 to 8 for the command that it places, then the
queue's own checks. -/
def schedule (p q : Pkt) (gap : Bool) (s : State) : State :=
  let op := q.u16 28
  let i := innerPkt q
  if untimeable op then s.reject 0x0E03 p stBadParam [] gap
  else match opDef op with
    | none => s.reject 0x0E03 p stBadOpcode [] gap
    | some d =>
      if !opPermitted op p.cls then s.reject 0x0E03 p stBadOpcode [] gap
      else if s.innerNotAuth p op then s.reject 0x0E03 p stNotAuth [] gap
      else if !d.len i then s.reject 0x0E03 p stBadLength [] gap
      else if !scheduleOk q ∨ p.replyBits ≠ 0 ∨ p.timed then s.reject 0x0E03 p stBadParam [] gap
      else match d.bad i s with
        | some _ => s.reject 0x0E03 p stBadParam [] gap
        | none =>
          match s.timedBad op p.cls (q.u64 20) (bitOf (q.u8 17) 0) with
          | some st => s.reject 0x0E03 p st [] gap
          | none => s.enqueue 0x0E03 op p i i.params (q.u16 18) (bitOf (q.u8 17) 0) (q.u64 20) gap

/-- A SCHEDULE that its server has taken: its reply needs one slot (R52). -/
def serveSchedule (p : Pkt) (gap : Bool) (s : State) : State :=
  if opPermitted 0x0E03 p.cls ∧ s.outFree (replyRing p) = 0 then s.putBack 0x0E03 p gap
  else if !opPermitted 0x0E03 p.cls then s.reject 0x0E03 p stBadOpcode [] gap
  else
    let a := s.authenticate 0x0E03 p
    match a.2 with
    | none => a.1.reject 0x0E03 p stNotAuth [] gap
    | some body =>
      let own := if p.timed then body.drop 8 else body
      if own.length < 16 then a.1.reject 0x0E03 p stBadLength [] gap
      else schedule p { p with params := own } gap a.1

def execSchedule (p : Pkt) (s : State) : Host.Outcome State Fault Refusal :=
  .next (serveSchedule (p.fix 16 0) false s)

/-! ### TIMED_EXEC CANCEL and LIST -/

/-- A cancelled entry ends with ABORT_HOST (R368). -/
def State.cancelEntry (s : State) (t : Timed) : State :=
  (s.jEnd t.jseq t.pkt.durable stAbortHost 0 1 false 0).cmdDone t.opcode t.pkt stAbortHost

/-- The entries that a CANCEL names. -/
def cancelled (p : Pkt) (s : State) : List Timed :=
  s.grp.queue.filter fun t => decide (t.pkt.port = p.port) && !t.released
    && (decide (p.u16 18 = 0) || decide (t.id = p.u16 18))

/-- The four words of an entry (LIST). -/
def timedWords (t : Timed) : List Word :=
  [w32 (t.id + 65536 * t.pkt.ring + 2 ^ 24 * t.pkt.port.num + 2 ^ 25 * b2n t.strict), w32 t.opcode]
    ++ words64 t.time.toNat

def timedExecDef : OpDef :=
  { jnl := jnlNone
    rlen := fun p => if p.u8 16 = 1 then 1 else 129
    len := fun p => decide (p.plen = 4) || decide (2 < p.u8 16)
    bad := fun p _ => need ((decide (p.u8 16 = 1) || decide (p.u8 16 = 2)) && decide (p.u8 17 ≤ 1) && p.zero 20 12
      && (decide (p.u8 16 = 1) || decide (p.u16 18 = 0)))
    run := fun _ p s =>
      if p.u8 16 = 1 then
        let l := cancelled p s
        let s := { s with grp := { s.grp with queue := s.grp.queue.filter fun t => !l.contains t } }
        okOut (l.foldl (fun s t => s.cancelEntry t) s) [w32 l.length]
      else okOut s (w32 s.grp.queue.length :: s.grp.queue.flatMap timedWords) }

def execCancel (p : Pkt) (s : State) : Host.Outcome State Fault Refusal :=
  .next (serveOp 0x0E03 timedExecDef (p.fix 16 1) false s)

def execList (p : Pkt) (s : State) : Host.Outcome State Fault Refusal :=
  .next (serveOp 0x0E03 timedExecDef (p.fix 16 2) false s)

/-! ### Releases (R369 to R371) -/

/-- An entry's release instant has come at the latch instant just past: for class 1 its target is the
next one, else this one at the latest. -/
def State.dueNow (s : State) (t : Timed) : Bool :=
  !t.released && decide (t.time.toNat ≤ (if t.pkt.cls = 1 then s.nextLatch else s.frm.latchTime.toNat))

/-- A due entry is late: its release instant was an earlier latch instant. -/
def State.lateNow (s : State) (t : Timed) : Bool :=
  decide (t.time.toNat ≤ (if t.pkt.cls = 1 then s.frm.latchTime.toNat else s.frm.prevLatch.toNat))

/-- How late an entry is, in us: whole frames after its release instant (DEDUCED, log 34). -/
def State.lateUs (s : State) (t : Timed) : Nat :=
  let f := max 1 (s.framePs / 1000)
  let behind := s.frm.latchTime.toNat - t.time.toNat
  min ((if t.pkt.cls = 1 then (behind / f + 1) * f else behind / f * f) / 1000) 0xFFFFFFFF

/-- TIMED_LATE, counted (R370, R375). -/
def State.timedLateEvt (s : State) (t : Timed) : State :=
  (s.bump pLateCount 1).evt 0x0E01 1 t.pkt.ring t.id t.opcode (s.lateUs t) s.frm.frame.toNat

/-- A late STRICT entry does not run (R370). -/
def State.timedOut (s : State) (t : Timed) : State :=
  let s := { s with grp := { s.grp with queue := s.grp.queue.filter fun x => x.jseq ≠ t.jseq } }
  (s.jEnd t.jseq t.pkt.durable stTimeout 0 1 false 0).cmdDone t.opcode t.pkt stTimeout

/-- Change an entry of the queue. -/
def State.modTimed (s : State) (j : Word) (f : Timed → Timed) : State :=
  { s with grp := { s.grp with queue := s.grp.queue.map fun (x : Timed) => if x.jseq = j then f x else x } }

/-- One due entry is released, or ends. -/
def State.releaseOne (s : State) (t : Timed) : State :=
  if s.lateNow t ∧ t.strict then s.timedOut t
  else
    let s := if s.lateNow t then s.timedLateEvt t else s
    s.modTimed t.jseq fun x => { x with released := true, atClk := s.frm.latchClk, late := s.lateNow t }

/-- The releases at a latch instant; entries are held while the time is INVALID (R371). -/
def State.releaseTimed (s : State) : State :=
  if !s.frm.running ∨ s.pwr.time = .invalid ∨ s.pwr.time = .unset then s
  else (s.grp.queue.filter s.dueNow).foldl (fun s t => s.releaseOne t) s

def execTimedRelease (dt : Nat) (s : State) : Host.Outcome State Fault Refusal :=
  .next (s.elapse dt).releaseTimed

/-- The commit cutoff of a class-1 entry's target seam passes before its writes are complete (R369,
R370). -/
def State.timedCutoff (s : State) : State :=
  (s.grp.queue.filter fun t => t.released && decide (t.pkt.cls = 1) && !t.late).foldl (fun s t =>
    if t.strict then s.timedOut t
    else (s.timedLateEvt t).modTimed t.jseq fun x => { x with late := true }) s

end Sys2Proof.Machine
end

