-- ==== Sys2Proof/Machine/Seam.lean ====
section
/-! DEFINITION. The frame seam (08_frame_timing_scanout.md R188 to R197, R206, R207): the commit cutoff
and the latch instant. -/

namespace Sys2Proof.Machine

/-! ### The commit cutoff (R191, R193) -/

/-- A provisional pass of another generation is discarded: its row-group is not loaded in sub-frame 0,
nor in sub-frame 1 for an even-index pair, and counts in SEAM_REPEAT. -/
def State.seamRepeat (s : State) (g : Nat) (subs : List Nat) : State :=
  let s := (s.excuse g subs).bump pSeamRepeat 1
  { s with frm := { s.frm with seamRepeats := s.frm.seamRepeats + 1 } }

/-- A provisional generation is not that of the set formed. -/
def staleGen (gen : Nat) (o : Option Nat) : Bool :=
  match o with
  | some k => decide (k ≠ gen)
  | none => false

/-- A pass in progress at the cutoff. -/
def State.cutPass (s : State) (t : Nat) (p : Pass) : State :=
  let gen := s.frm.gen
  let one := staleGen gen p.gen && p.serves
  let two := staleGen gen p.gen2 && p.serves2
  let q := { p with
    serves := p.serves && !staleGen gen p.gen
    serves2 := p.serves2 && !staleGen gen p.gen2
    gen := none
    gen2 := none }
  let s := { s with comp := { s.comp with passes := tins s.comp.passes t q } }
  if one || two then
    s.seamRepeat p.g ((if one then [p.sub] else []) ++ (if two then [p.sub + 1] else [])) else s

/-- Provisional codes that stand ready at the cutoff: discarded, their row-group is committed with the
profile of before (R150). -/
def State.cutReady (s : State) (g : Nat) : State :=
  let gen := s.frm.gen
  let old := (s.rg g).ready.filter fun y => staleGen gen y.gen
  let s := s.modRg g fun x => { x with
    ready := (x.ready.filter fun y => !staleGen gen y.gen).map fun (y : Ready) => { y with gen := none } }
  match old with
  | [] => s
  | y :: _ => ((s.uncommit g y).commitRepeat g y.sub).seamRepeat g (old.map (·.sub))

/-- The return scheduled for a seam belongs to its set (R191, R241). -/
def State.retDue (s : State) : Bool :=
  match s.frm.ret with
  | some .limpToFallback => s.frm.retArmed
  | some _ => decide (s.frm.retAt ≤ s.clk)
  | none => false

/-- The FRAME_COMMITs whose commit the set takes (R211): those that wait at the cutoff. -/
def State.armCommitHolds (s : State) : State :=
  { s with cmd := { s.cmd with held := s.cmd.held.map fun (h : Held) =>
    match h.kind with
    | .commitTaken => { h with armed := true }
    | _ => h } }

/-- The seam set is formed. -/
def State.formSeam (s : State) : State :=
  let x : SeamSet :=
    { formed := s.clk
      commit := s.prm.commit
      prm := if s.prm.commit then s.prm.shadow else []
      ovl := if s.prm.commit then s.comp.ovlStaged else []
      lut := if s.prm.commit then s.comp.lutShadow else []
      mixRestart := s.prm.commit && s.prm.mixWritten
      swap := s.provSwap.isSome
      ret := s.retDue }
  let passes := s.comp.passes
  let s := if x.commit then s.armCommitHolds else s
  let s := { s with
    frm := { s.frm with seam := some x, seamRepeats := 0 }
    prm := { s.prm with commit := false, mixWritten := s.prm.mixWritten && !x.commit }
    bist := { s.bist with movedIn := s.bist.move.isSome }
    diag := { s.diag with degradedHold := decide (s.diag.safe = 1) && decide (s.causeless = 0) } }
  let s := passes.foldl (fun s e => s.cutPass e.1 e.2) s
  ((List.range 256).foldl (fun s g => s.cutReady g) s).timedCutoff

def execCommitCutoff (dt : Nat) (s : State) : Host.Outcome State Fault Refusal :=
  let s := s.elapse dt
  .next (if s.frm.running ∧ s.frm.seam.isNone then s.formSeam else s)

/-! ### The freeze check (R206, R207) -/

/-- The bytes of one load: its tag, its row-group, its codes with their masks. -/
def loadBytes (g : Nat) (x : Ready) : List Byte :=
  leBytes 1 x.tag ++ leBytes 1 g
    ++ x.codes.flatMap fun c => leBytes 2 (c.code.toNat + 32768 * b2n c.mask)

/-- Loads in ascending row-group number; a row-group loads once. -/
def sortLoads (l : List (Nat × Ready)) : List (Nat × Ready) :=
  (sortNat (l.map (·.1))).filterMap fun g => l.find? fun e => e.1 = g

/-- A tile's signature over its loads of sub-frame 0. -/
def signature (l : List (Nat × Ready)) : Nat :=
  if l.isEmpty then 0 else crc32 ((sortLoads l).flatMap fun e => loadBytes e.1 e.2)

/-- The history of a checked tile after a frame. -/
def freezeStep (f : Freeze) : Freeze :=
  let l := sortLoads f.loads
  let sig := w32 (signature f.loads)
  let same := f.known && decide (f.sig = sig)
  let equal := if same then min 2 (f.equal + 1) else 0
  { sig := sig
    equal := equal
    tag := match l with | e :: _ => e.2.tag | [] => 0
    loaded := l.map fun e => rgIdx e.1
    loads := []
    frozen := decide (2 ≤ equal)
    known := true }

/-- The step trims ended at least 8 us ago. -/
def State.trimsOver (s : State) : Bool :=
  match s.pwr.trimsAt with
  | some t => decide (t + 8000 ≤ s.clk)
  | none => false

/-- Seams still to come before the check begins (R207): they count from a full reset and from the end
of limp, the first seam of R190 included. -/
def State.armAfter (s : State) : Nat :=
  if s.diag.safe = 3 ∨ (s.pwr.boot = .firstSeam ∧ !s.trimsOver) then s.frm.armDelay else s.frm.armDelay - 1

/-- The check at the end of a frame: every tile that newly freezes is named in one FREEZE. -/
def State.freezeCheck (s : State) : State :=
  let tiles := List.range 16
  let armed := tiles.filter s.freezeArmed
  let newly := armed.filter fun t => (freezeStep (s.freeze t)).frozen && !(s.freeze t).frozen
  let tab : Tab Freeze := armed.map fun t => (t, freezeStep (s.freeze t))
  let s := { s with frm := { s.frm with
    freeze := tab
    sigFrame := s.frm.frame
    armDelay := s.armAfter } }
  match newly with
  | [] => s
  | t :: _ =>
    let limp := decide (s.diag.safe = 2)
    let s := (s.bump pFreezeCount 1).evt 0x0201 2 0xFF (ofBitList newly) (b2n limp) (s.freeze t).sig.toNat s.frm.frame.toNat
    s.addCause (if limp then 5 else 4)

/-! ### What goes live (R191, R203, R92, R107, R96) -/

/-- SCAN_BASE after a seam set (R202, R203). -/
def State.baseAfter (s : State) (x : SeamSet) (fixed : Bool) : Nat :=
  if fixed then (if x.commit then (tget prmReset x.prm pScanBase).toNat else s.live pScanBase)
  else match (if x.swap then s.frm.ready else none) with
    | some r => bufBase r.1
    | none => if s.flag pScanMode 0 then s.frontBase else s.live pScanBase

/-- The LUT banks exchange roles, and the copy into the new shadow bank follows (R92). What is live is the bank as the
seam set holds it; a LUT_WRITE after the cutoff is in the shadow bank once the copy ends (R191). -/
def State.lutExchange (s : State) (set : Tab Half) : State :=
  { s with comp := { s.comp with
    lutLive := set
    lutShadow := s.comp.lutLive
    lutNext := s.comp.lutShadow
    lutCopying := true } }

/-- The staged overlays go live; a line written whole can be read again (R107, R276). -/
def State.ovlGoLive (s : State) (l : Tab Overlay) : State :=
  { s with comp := { s.comp with
    ovlLive := l
    ovlLost := s.comp.ovlLost.filter fun m => decide (s.ovl m = (tget (fun _ => {}) l m : Overlay)) } }

/-- The S parameters of a commit, and what goes with them. -/
def State.takeCommit (s : State) (x : SeamSet) : State :=
  let ref := (List.range 16).any fun t => decide (s.live (pTileRef + t) ≠ (tget prmReset x.prm (pTileRef + t)).toNat)
  let s := (prmSIds.filter fun id => id ≠ pScanBase).foldl (fun (s : State) id => s.setLive id (tget prmReset x.prm id).toNat) s
  let s := (s.lutExchange x.lut).ovlGoLive x.ovl
  { s with
    comp := { s.comp with
      mixK := if x.mixRestart then 0 else s.comp.mixK
      fadeOpen := if x.mixRestart then decide (s.fld pMixTime 15 0 ≠ 0) else s.comp.fadeOpen }
    sad := { s.sad with kSkip := s.sad.kSkip || ref } }

/-- The scan source after the seam: a swap shows the ready frame; a line on its way when the mode
returns to auto is discarded. -/
def State.takeScan (s : State) (x : SeamSet) (wasFixed : Bool) (base : Nat) : State :=
  let back := wasFixed && !s.flag pScanMode 0 && s.link.line.isSome
  let s := s.setLive pScanBase base
  let s := if back then (let s := s.bump pLinesDiscard 1; { s with link := { s.link with line := none } }) else s
  match (if x.swap then s.frm.ready else none) with
  | some r =>
    let s := s.bump pFramesShown 1
    { s with frm := { s.frm with ready := none, lastSwap := some r.1, front := r.1 } }
  | none => s

/-- The weight is latched, and FADE_DONE follows the first seam at which it is W_END (R96). -/
def State.takeMix (s : State) (restarted : Bool) : State :=
  let frame := if s.pwr.boot = .firstSeam then s.frm.frame else s.frm.frame + 1
  let k := if restarted then 0 else s.comp.mixK + 1
  let w := mixWeight (s.live pMixCfg) (s.live pMixTime) k
  let s := { s with comp := { s.comp with mixK := k, weight := w } }
  if s.comp.fadeOpen ∧ w = s.fld pMixCfg 25 17 then
    ({ s with comp := { s.comp with fadeOpen := false } }).evt 0x0302 0 0xFF (s.fld pMixCfg 7 0) w frame.toNat 0
  else s

/-- Passes that compose from the set that is now live go on from it (R13, R193). -/
def State.settlePasses (s : State) : State :=
  { s with comp := { s.comp with passes := s.comp.passes.map fun (e : Nat × Pass) =>
    (e.1, { e.2 with prov := false, prov2 := false }) } }

/-- Everything that the seam set holds becomes live in all tiles together. -/
def State.takeSet (s : State) (x : SeamSet) : State :=
  let wasFixed := s.flag pScanMode 0
  let fixed := if x.commit then bitOf (tget prmReset x.prm pScanMode).toNat 0 else wasFixed
  let base := s.baseAfter x fixed
  let s := if x.commit then s.takeCommit x else s
  ((s.takeScan x wasFixed base).takeMix x.mixRestart).settlePasses

/-! ### The light (R31, R208, R241, R334) -/

/-- Tiles that hold limp codes get them again after the cells were cleared (R18). -/
def State.relimpHeld (s : State) : State :=
  (List.range 16).foldl (fun (s : State) t => if (s.tile t).loader = .held then s.limpTile t else s) s

/-- The reference DACs take their values and the engine goes to fallback, or to limp where a limp cause
remains (R241). -/
def State.leaveDark (s : State) : State :=
  if s.target = 4 then s.setDacs .off
  else
    let s := s.setDacs s.dacDrive
    (s.setSafe (if s.target = 3 then 3 else 2)).relimpHeld

/-- The commands that wait for the first fallback seam end (R342). -/
def State.endSeamHolds (s : State) : State :=
  s.cmd.held.foldl (fun s h => match h.kind with
    | .fallbackSeam => s.endHeld h.opcode h.pkt h.jseq h.gap stOk 1 [w32 256]
    | _ => s) s

/-- The light returns after IDLE or STANDBY (R334). -/
def State.lightAgain (s : State) : State :=
  let s := { s with pwr := { s.pwr with pixOff := false, trimsAt := none } }
  let s := if s.diag.safe = 4 then s
    else
      let s := s.setDacs s.dacDrive
      if s.diag.safe = 3 then s.limpRequest
      else { s.relimpHeld with comp := { s.relimpHeld.comp with fbCheck := { running := true, endSub := s.frm.sub + 4 } } }
  s.endSeamHolds

/-- The first seam after a full reset has FRAME_NUM 0; the host-stale timer starts (R190, R205). -/
def State.firstSeam (s : State) : State :=
  let s := { s with
    pwr := { s.pwr with boot := .up, trimsAt := none }
    frm := { s.frm with frame := 0, firstSeam := true, staleStart := some s.clk } }
  s.leaveDark

/-- FRAME_NUM at this latch instant, and the light that waited for it. -/
def State.takeFrame (s : State) : State :=
  if s.pwr.boot = .firstSeam then (if s.trimsOver then s.firstSeam else s)
  else
    let s := { s with frm := { s.frm with frame := s.frm.frame + 1 } }
    if s.trimsOver then s.lightAgain else s

/-! ### Returns (R140, R241) -/

/-- The return that the set holds takes place, if nothing has cancelled it. -/
def State.takeReturn (s : State) (x : SeamSet) : State :=
  match s.frm.ret with
  | some r =>
    if x.ret ∧ s.frm.retAt ≤ x.formed then
      let s := { s with frm := { s.frm with ret := none, retArmed := false } }
      match r with
      | .toNormal => s.setSafe s.causeless
      | .limpToFallback => s.setSafe 2
      | .darkExit => s.leaveDark
    else s
  | none => s

/-- From degraded to normal (R241). -/
def State.takeRecovered (s : State) : State :=
  let due := s.diag.degradedHold && decide (s.diag.safe = 1) && decide (s.causeless = 0)
  let s := { s with diag := { s.diag with degradedHold := false } }
  if due then s.setSafe 0 else s

/-- Every DAC leaves half-scale mode after the trip has been cleared (R154). -/
def State.takeTrip (s : State) : State :=
  if s.sad.tripRelease then
    let s := { s with sad := { s.sad with tripRelease := false, tripHeld := false } }
    (List.range 16).foldl (fun s t => s.modTile t fun x => { x with dac := if x.dac = .half then .full else x.dac }) s
  else s

/-! ### Timing changes (R195 to R197, R26, R144) -/

/-- The sync state after a change, as the tracker stands (R195). -/
def State.syncAfter (s : State) (bridged : Bool) : SyncState :=
  if !s.flag pSyncCtrl 0 then .free
  else if !s.frm.acquired then .acquiring
  else if bridged ∧ s.frm.missed < 2 then .locked else .holdover

/-- The row-groups at a change of cadence: an odd row-group that no pass serves repeats in the first
sub-frame of paired cadence (R26). -/
def State.cadence (s : State) (toPaired : Bool) : State :=
  (List.range 256).foldl (fun s g =>
    if toPaired ∧ rgIdx g % 2 = 1 then (s.excuse g [s.frm.sub]).bump pSeamRepeat 1 else s) s

/-- The new timing begins: N, cadence and home plan (R197, R146: the plan of its first sub-frame is the
home plan, or else the next is), TIMING_APPLIED. -/
def State.newTiming (s : State) (next : Timing) (c : Change) : State :=
  let old := s.frm.timing
  let s := { s with frm := { s.frm with timing := next, change := none, seamsSince := 0 } }
  let s := if timingPaired old ≠ timingPaired next then s.cadence (timingPaired next) else s
  let s := if rateDiffers old next ∨ timingPaired old ≠ timingPaired next then
      { s with sad := { s.sad with
        homePlan := s.sad.homePlan || decide (s.sad.cur.slots ≠ (List.range 256).map homeSlot)
        profiles := (List.range 256).foldl (fun t g => tmod (fun _ => {}) t g fun (p : Profile) =>
          { p with demand := [], sumB := 0, sumO := 0, sumP := 0, total := 0 }) s.sad.profiles } }
    else s
  let s := s.evt 0x0205 0 0xFF (timingN next) (timingMul next) (if c.bridge then c.bridgePs / 1000 else 0) s.frm.frame.toNat
  s.setSync (s.syncAfter c.bridge)

/-- A timing change meets this latch instant: S of a bridge, or the start of the new timing. `next` and
`bridge` are as they stood before the instant. -/
def State.takeTiming (s : State) (next : Option Timing) (bridge : Option Change) : State :=
  match s.frm.change, next, bridge with
  | some c, some t, _ => s.newTiming t c
  | _, _, some c => { s with frm := { s.frm with change := some { c with inBridge := true } } }
  | _, _, _ => s

/-! ### The latch instant (R190) -/

/-- A FRAME_COMMIT whose commit this seam takes is answered (R211). -/
def State.endCommitHolds (s : State) : State :=
  s.cmd.held.foldl (fun s h => match h.kind with
    | .commitTaken =>
      if h.armed then s.endHeld h.opcode h.pkt h.jseq h.gap stOk 1 [s.frm.frame, w32 s.frm.seamRepeats] else s
    | _ => s) s

/-- COMMIT_STATUS takes the new FRAME_NUM (R191). -/
def State.tookCommit (s : State) (x : SeamSet) : State :=
  if x.commit then ({ s with frm := { s.frm with commitFrame := s.frm.frame } }).endCommitHolds else s

/-- The place of this latch instant's frame in its sync period (R188): locked, by the last accepted edge and
SYNC_PHASE, else in turn. -/
def State.periodFrame (s : State) : Nat :=
  let m := timingMul s.frm.timing
  match s.frm.state, s.frm.lastEdge with
  | .locked, some e =>
    let sync := s.frm.timing.syncPs / 1000
    let d := ((s.clk : Int) - e - signed 16 s.frm.timing.phase.toNat * sync / 65536) % (sync : Int)
    (d.toNat * m + sync / 2) / sync % m
  | _, _ => s.frm.seamsSince % m

/-- The grid: this latch instant, and a pulse on SYNC_OUT where it starts a sync period (R188). -/
def State.takeGrid (s : State) : State :=
  let n := s.periodFrame
  { s with frm := { s.frm with
    prevLatch := s.frm.latchTime
    latchTime := s.pwr.devtime
    latchClk := s.clk
    index := 0
    subStart := s.clk
    seam := none
    dropRaised := false
    seamsSince := (n + 1) % timingMul s.frm.timing
    syncOut := if s.flag pSyncCtrl 1 ∧ n = 0 then some s.clk else s.frm.syncOut } }

/-- What is raised at most once a frame may be raised again. -/
def State.freshFrame (s : State) : State :=
  { s with
    comp := { s.comp with substSeen := [] }
    sad := { s.sad with clampFrame := 0, limitRaised := false }
    pix := { s.pix with tiles := (List.range 16).foldl (fun t k => tmod (fun _ => {}) t k fun (x : Tile) =>
      { x with slackRaised := false }) s.pix.tiles } }

/-- The latch instant of a seam whose set has been formed. -/
def State.latch (s : State) (x : SeamSet) : State :=
  let next := s.timingNext
  let bridge := s.bridgeNext
  let s := (s.freezeCheck).freshFrame
  let s := ((s.takeSet x).takeFrame).tookCommit x
  let s := ((s.takeReturn x).takeRecovered).takeTrip
  let s := ((s.seamLevels).crestSeam).crestSeamActs
  let s := (s.spurSeam).takeTiming next bridge
  (s.takeGrid).activateAtLatch

def execLatchInstant (dt : Nat) (s : State) : Host.Outcome State Fault Refusal :=
  let s := s.elapse dt
  .next (if !s.frm.running then s
    else
      let s := if s.frm.seam.isSome then s else s.formSeam
      match s.frm.seam with
      | some x => (s.latch x).negoTick
      | none => s)

end Sys2Proof.Machine
end

