-- ==== Sys2Proof/Machine/Tap.lean ====
section
/-! DEFINITION. The lands of the package and the test access port (18_package_electrical.md R377, R379, R399 to
R401): where each land stands and what it carries, the instruction in force and what it does to the engine, the
boundary register and the EN lands that it drives. -/

namespace Sys2Proof.Machine

/-! ### The lands (R377, R379) -/

/-- The centre of a land in the top view, in 0.1 mm: X, then Y (R377). -/
def landCentre (n : Nat) : Option (Int × Int) :=
  let k : Int := ((n - 1) % 37 : Nat)
  if n = 0 ∨ 412 < n then none
  else if n ≤ 185 then some (11 * k - 198, 138 - 11 * (((n - 1) / 37 : Nat) : Int))
  else if n ≤ 206 then some (168 + 11 * (((n - 186) / 7 : Nat) : Int), 66 - 22 * (((n - 186) % 7 : Nat) : Int))
  else if n ≤ 391 then
    some (11 * (((n - 207) % 37 : Nat) : Int) - 198, 11 * (((n - 207) / 37 : Nat) : Int) - 138)
  else some (-168 - 11 * (((n - 392) / 7 : Nat) : Int), 66 - 22 * (((n - 392) % 7 : Nat) : Int))

/-- What a land carries (R379). -/
inductive Land where
  | gnd | pgnd | vaon | vio | vpix | vcore | vled | vstr
  | forward (l : Lane) (neg : Bool)
  | back (l : Lane) (neg : Bool)
  | sck | sdi | sdo | csn | faultn | alertn | resetn | wake | syncIn | syncOut
  | tck | tms | tdi | tdo | trstn
  | test (n : Nat)
  | xin | xout | ntc (n : Nat) | ntcRtn | isenseP | isenseN | vledFb
  | fb (n : Nat) | en (n : Nat) | sta (n : Nat) | sw (n : Nat) | stk (n : Nat)
  | rsv
  deriving DecidableEq, Repr

/-- The lands 1 to 51, in order: those with a function of their own (R379). -/
def firstLands : List Land :=
  [.gnd, .forward .a false, .forward .a true, .gnd, .gnd, .back .a false, .back .a true, .gnd,
   .gnd, .forward .b false, .forward .b true, .gnd, .gnd, .back .b false, .back .b true, .gnd,
   .sck, .sdi, .sdo, .csn, .faultn, .alertn, .resetn, .wake, .syncIn, .syncOut]
  ++ [.tck, .tms, .tdi, .tdo, .trstn, .test 0, .test 1, .test 2, .test 3, .vaon, .gnd, .vio, .vio, .vio, .vio,
   .gnd, .xin, .xout, .gnd, .ntc 1, .ntc 2, .ntcRtn, .isenseP, .isenseN, .vledFb]

/-- A land lies in one of some ranges. -/
def landIn (n : Nat) (l : List (Nat × Nat)) : Bool := l.any fun r => decide (r.1 ≤ n) && decide (n ≤ r.2)

/-- What land `n` carries (R379). -/
def landOf (n : Nat) : Option Land :=
  if n = 0 ∨ 412 < n then none
  else if n ≤ 51 then firstLands[n - 1]?
  else if landIn n [(52, 63)] then some .vpix
  else if landIn n [(82, 105)] then some .vcore
  else if landIn n [(117, 144), (323, 350)] then some .vled
  else if landIn n [(151, 182), (357, 388)] then some .pgnd
  else if landIn n [(64, 81), (106, 116), (145, 150), (183, 185), (196, 203), (355, 356), (389, 389), (394, 401)] then some .gnd
  else if landIn n [(186, 193)] then some (if n % 2 = 0 then .fb ((n - 186) / 2) else .en ((n - 187) / 2))
  else if landIn n [(194, 195), (392, 393)] then some .vstr
  else if n = 207 then some (.sta 0) else if n = 226 then some (.sta 1)
  else if n = 281 then some (.sta 2) else if n = 300 then some (.sta 3)
  else if n = 224 then some (.stk 0) else if n = 243 then some (.stk 1)
  else if n = 298 then some (.stk 2) else if n = 317 then some (.stk 3)
  else if landIn n [(208, 223)] then some (.sw (n - 208))
  else if landIn n [(227, 242)] then some (.sw (n - 211))
  else if landIn n [(282, 297)] then some (.sw (n - 250))
  else if landIn n [(301, 316)] then some (.sw (n - 253))
  else some .rsv

/-! ### The test access port (R399, R401) -/

/-- The data register that an instruction selects (R399). -/
inductive TapReg where
  | boundary
  | identification
  | bypass
  deriving DecidableEq, Repr

/-- The register of each instruction; every code not listed selects bypass. -/
def tapSelects (ir : BitVec 5) : TapReg :=
  if [0, 1, 8, 9].contains ir.toNat then .boundary
  else if ir.toNat = 2 then .identification
  else .bypass

/-- The length in bits of a register (R399, R400). -/
def TapReg.length : TapReg → Nat
  | .boundary => 66
  | .identification => 32
  | .bypass => 1

/-- The instructions that hold the engine as under full reset: EXTEST, CLAMP, HIGHZ, EXTEST_PULSE and
EXTEST_TRAIN (R399, R401). -/
def tapHolds (ir : BitVec 5) : Bool := [0, 4, 5, 8, 9].contains ir.toNat

/-- The identification register (R399): the stepping, 0x1048, Aedval's code, bit 0 set. -/
def tapIdcode : Word := w32 (2 ^ 28 * (Config.stepping.toNat % 16) + 4096 * 0x1048 + 2 * 0x4E3 + 1)

/-! ### The boundary register (R400) -/

/-- The lands with cells in the boundary register, in ascending number. -/
def boundaryLands : List Nat := [2, 3, 6, 7, 10, 11, 14, 15] ++ (List.range 10).map (· + 17) ++ [187, 189, 191, 193]

/-- The three cells of a land. -/
inductive BoundaryCell where
  | input
  | output
  | enable
  deriving DecidableEq, Repr

/-- The place of a cell in the register, bit 0 nearest TDO: land 2 first (R400), in each land its input, output and
output enable cells in the manual's order (DEDUCED, log 33). -/
def boundaryBit (land : Nat) (c : BoundaryCell) : Option Nat :=
  (boundaryLands.idxOf? land).map fun k => 3 * k + match c with
    | .input => 0
    | .output => 1
    | .enable => 2

/-- A cell of the register. -/
def State.boundaryCell (s : State) (land : Nat) (c : BoundaryCell) : Bool :=
  match boundaryBit land c with
  | some k => bitOf s.boundary.toNat k
  | none => false

/-- The level of land ENn, none where it is not driven: that of the string manager (R213), or while a holding
instruction is in force that of the boundary register (R401). -/
def State.enLand (s : State) (n : Nat) : Option Bool :=
  if tapHolds s.jtag then
    if s.boundaryCell (187 + 2 * n) .enable then some (s.boundaryCell (187 + 2 * n) .output) else none
  else some (s.strEn (s.chan n))

/-! ### The rows -/

def execJtagInstructionUpdate (dt : Nat) (code : BitVec 5) (s : State) : Host.Outcome State Fault Refusal :=
  let s := s.elapse dt
  .next (if tapHolds code then
      { (if s.tapHold then s else s.fullReset .held 4 1) with jtag := code, tapHold := true }
    else { s with jtag := code })

/-- Test-Logic-Reset selects IDCODE; after a holding instruction the engine runs a full reset with wake
cause 1. -/
def execTestLogicReset (dt : Nat) (s : State) : Host.Outcome State Fault Refusal :=
  let s := s.elapse dt
  .next (if s.tapHold then
      ({ (s.fullReset .held 4 1) with jtag := 2, tapHold := false }).letGo
    else { s with jtag := 2 })

end Sys2Proof.Machine
end

