-- ==== Sys2Proof/Machine/Transport.lean ====
section
/-! DEFINITION. How packets come and records go (02_command_model.md, 07_plokam_link.md): the arrival
checks, the class-0 decoder, the sequencer's picks, the forward blocks, the return records and the
SPI transactions. -/

namespace Sys2Proof.Machine

/-! ### Arrival (R39 to R42, R46, R49 to R52, R58) -/

/-- CRC_DROPS of a port. -/
def State.crcDrop (s : State) (port : Port) : State :=
  match port with
  | .link => s.bump pCrcDropsLink 1
  | .spi => s.bump pCrcDropsSpi 1

/-- PLEN in a packet's bytes. -/
def plenOf (l : List Byte) : Nat := ofLe ((l.drop 10).take 2)

/-- OPCODE in a packet's bytes. -/
def opcodeOf (l : List Byte) : Nat := ofLe (l.take 2)

/-- The packet that bytes spell (R37). -/
def packetOf (port : Port) (l : List Byte) : Pkt :=
  { port := port
    ring := (byteAt l 3).toNat
    flags := byteAt l 2
    seq := w32 (ofLe ((l.drop 4).take 4))
    node := BitVec.ofNat 16 (ofLe ((l.drop 8).take 2))
    tag := w32 (ofLe ((l.drop 12).take 4))
    params := (l.drop 16).take (4 * plenOf l) }

/-- Step 1 of R42, of a packet whose length R41 has found: the trailer, and FLAGS bit 7. -/
def arrivalSound (l : List Byte) : Bool :=
  let n := packetLength (plenOf l)
  decide (16 ≤ l.length) && decide (plenOf l ≤ 1020) && decide (n ≤ l.length)
    && decide (ofLe ((l.drop (n - 4)).take 4) = crc32 (l.take (n - 4)))
    && !bitOf (byteAt l 2).toNat 7

/-- NODE addresses no engine: both GROUP and BCAST, or a group with NODE[13:6] non-zero (R39). -/
def badAddress (p : Pkt) : Bool :=
  p.group && (p.bcast || decide (bits p.node.toNat 13 6 ≠ 0))

/-- Step 2 of R42: this engine accepts the packet (R39, R364, R365). A NODE_SET names its engine by
its serial as well. -/
def State.meant (s : State) (op : Nat) (p : Pkt) : Bool :=
  (if p.group then bitOf s.grp.groups.toNat (bits p.node.toNat 5 0)
   else p.bcast || decide (p.node.toNat % 16384 = s.grp.node.toNat))
    && (decide (op ≠ 0x0E01) || serialMeant (nodeSerial p (if p.timed then 24 else 16)))

/-- Step 3 of R42. -/
def State.ringOk (s : State) (p : Pkt) : Bool :=
  decide (p.ring < 48) && decide ((s.ring p.ring).depth ≠ 0) && decide ((s.ring p.ring).cls = p.cls)

/-- The slots that the packets of a submission ring hold. -/
def State.subUsed (s : State) (r : Nat) : Nat :=
  sumOf ((s.cmd.waiting.filter fun w => decide (w.pkt.ring = r)).map fun w => pktSlots w.pkt)

/-- The slots that a submission ring has free (R52). -/
def State.subFree (s : State) (r : Nat) : Nat := (s.ring r).depth - s.subUsed r

/-- The expected SEQ of a packet's (port, ring) pair (R49). -/
def State.expected (s : State) (p : Pkt) : Option Word := tget (fun _ => none) s.cmd.expSeq (pairOf p)

/-- The expected SEQ becomes the packet's plus 1 (R49). -/
def State.expectNext (s : State) (p : Pkt) : State :=
  { s with cmd := { s.cmd with expSeq := tput (fun _ => none) s.cmd.expSeq (pairOf p) (some (p.seq + 1)) } }

/-- The packet is put in its ring, in the order of arrival (R46). -/
def State.takeIn (s : State) (op : Nat) (p : Pkt) (gap : Bool) : State :=
  { s with cmd := { s.cmd with
    written := (s.ringLines p.ring (s.headSlot p.ring + s.subUsed p.ring) (pktSlots p)).filter s.marred
      ++ s.cmd.written
    waiting := s.cmd.waiting ++ [{ opcode := op, pkt := p, gap := gap, arrived := s.cmd.arrivals }]
    arrivals := s.cmd.arrivals + 1 } }

/-- A retained reply as it is sent again: DUP set, the trailer made again (R51, R54). -/
def dupBytes (b : List Byte) : List Byte :=
  withCrc ((b.take (b.length - 4)).modify 2 fun x => x ||| 0x40)

/-- A duplicate (R51): the retained reply again, or SEQ_GAP with the expected SEQ. -/
def State.duplicate (s : State) (op : Nat) (p : Pkt) (e : Word) : State :=
  match ((tget (fun _ => []) s.cmd.kept (pairOf p) : List Kept)).find? fun k => decide (k.seq = p.seq ∧ k.tag = p.tag) with
  | some k => s.postReply p (dupBytes k.bytes)
  | none => s.postReply p (replyBytes s op p stSeqGap 0 1 0xFFFFFFFF [e] false true)

/-- Step 4 of R42 (R49 to R51): the packet enters its ring, is told the expected SEQ, or is a
duplicate. Broadcast and group packets are exempt. -/
def State.sequence (s : State) (op : Nat) (p : Pkt) : State :=
  if !p.unicast then s.takeIn op p false
  else match s.expected p with
    | none => (s.expectNext p).takeIn op p false
    | some e =>
      let d := (p.seq - e).toNat
      if d = 0 then (s.expectNext p).takeIn op p false
      else if d < 2 ^ 31 then
        if (s.ring p.ring).advance then (s.expectNext p).takeIn op p true
        else s.reply op p stSeqGap 0 1 0xFFFFFFFF [e] false false
      else s.duplicate op p e

/-- A class-0 packet counts in C0_OVER and in the accounting interval (R58). -/
def State.countC0 (s : State) (x : C0Pkt) : State :=
  let s := s.bump pC0Over 1
  { s with cmd := { s.cmd with c0Open := some (match s.cmd.c0Open with
    | none => { count := 1, largest := x.bytes, first := x.ring }
    | some c => { c with count := c.count + 1, largest := max c.largest x.bytes }) } }

/-- A class-0 packet is accounted under R58: at the rate of the last T_pwm, whose interval is closed at its
end, so that packets of one instant count in one another's, and at its own length. -/
def State.accountC0 (s : State) (p : Pkt) : State :=
  if p.cls ≠ 0 then s
  else
    let near := s.cmd.c0Seen.filter fun x => decide ((s.clk - x.at_) * 1000 < s.pwmPs)
    let all := near ++ [{ at_ := s.clk, bytes := packetLength p.plen, ring := p.ring }]
    let due := fun (x : C0Pkt) =>
      decide (x.at_ = s.clk) && !x.counted && (decide (256 < x.bytes) || decide (8 < all.length))
    ((all.filter due).foldl State.countC0
      { s with cmd := { s.cmd with c0Seen := all.map fun x => { x with counted := x.counted || due x } } })

/-- Steps 3 and 4 of R42 and the slots of R52 between them. -/
def State.arrive (s : State) (op : Nat) (p : Pkt) : State :=
  if !s.ringOk p then s.reply op p stBadRing 0 1 0xFFFFFFFF [] false false
  else
    let s := (s.packetInput).accountC0 p
    if s.subFree p.ring < pktSlots p then
      let st := if (s.ring p.ring).depth < pktSlots p then stBadLength else stBusy
      ({ s with cmd := { s.cmd with subFull := true } }).reply op p st 0 1 0xFFFFFFFF [] false false
    else s.sequence op p

/-- A packet has arrived whole or cut short at a port (R41, R42 steps 1 and 2, R333). -/
def State.packetIn (s : State) (port : Port) (l : List Byte) : State :=
  if !arrivalSound l then s.crcDrop port
  else
    let op := opcodeOf l
    let p := packetOf port l
    if badAddress p then s.bump pAddrDrops 1
    else if !s.meant op p then s
    else if s.pwr.linkOff then s.bump pPwrDrops 1
    else s.arrive op p

/-! ### SPI (R44, R45, R47) -/

/-- The SPI port answers: the logic runs, outside STANDBY and DORMANT (R44). -/
def State.spiOn (s : State) : Bool :=
  s.logicUp && decide (s.pwr.state ≠ .standby) && decide (s.pwr.state ≠ .dormant)

/-- What SDO drove after the opcode pair; none while it is at high impedance. -/
def State.drive (s : State) (l : Option (List Byte)) : State := { s with cmd := { s.cmd with sdo := l } }

/-- PKT_WRITE: `sdi` is what the host sent after the opcode pair. SDO drives zeros. -/
def State.pktWrite (s : State) (sdi : List Byte) : State :=
  if s.spiOn then (s.drive (some [])).packetIn .spi sdi else s.drive none

def execPktWrite (dt : Nat) (sdi : List Byte) (s : State) : Host.Outcome State Fault Refusal :=
  .next ((s.elapse dt).pktWrite sdi)

/-- The order in which RING_READ with 0xFF looks at the SPI output rings (R44). -/
def spiRings : List Nat := [63, 62, 61, 60, 52, 53, 54, 55]

/-- The ring that a RING_READ names, if it names one (R44). -/
def State.readRing (s : State) (sel : Byte) : Option Nat :=
  if sel = 0xFF then some ((spiRings.find? fun r => !(s.outRing r).isEmpty).getD 63)
  else if 48 ≤ sel.toNat ∧ sel.toNat ≤ 63 then some sel.toNat
  else none

/-- RING_READ: one dummy byte, LEN, and as many bytes of the record as the host clocked; all of them
consume it. -/
def State.ringRead (s : State) (sel : Byte) (clocked : Nat) : State :=
  if !s.spiOn then s.drive none
  else match s.readRing sel with
    | none => s.drive (some [])
    | some r =>
      let h := s.outHead r
      match h.2 with
      | none => h.1.drive (some (0 :: leBytes 2 0))
      | some x =>
        let s := h.1.drive (some (0 :: (leBytes 2 x.bytes.length ++ x.bytes.take clocked)))
        if x.bytes.length ≤ clocked then (s.popOut r).negoTick else s

def execRingRead (dt : Nat) (sel : Byte) (clocked : Nat) (s : State) : Host.Outcome State Fault Refusal :=
  .next ((s.elapse dt).ringRead sel clocked)

/-- STATUS_POLL: one dummy byte and the poll word; SUB_FULL clears. -/
def State.statusPoll (s : State) : State :=
  if s.spiOn then
    let t := s.drive (some (0 :: leBytes 8 s.pollWord))
    { t with cmd := { t.cmd with subFull := false } }
  else s.drive none

def execStatusPoll (dt : Nat) (s : State) : Host.Outcome State Fault Refusal :=
  .next (s.elapse dt).statusPoll

/-! ### Class 0 (R58, R418) -/

/-- The accounting interval ends (R58). -/
def State.c0Overload (s : State) : State :=
  match s.cmd.c0Open with
  | none => s
  | some c =>
    ({ s with cmd := { s.cmd with c0Open := none } }).evt 0x0004 1 c.first (min c.count 65535) 0 c.largest 0

def execC0Overload (dt : Nat) (s : State) : Host.Outcome State Fault Refusal :=
  .next (s.elapse dt).c0Overload

/-- A packet leaves its ring. -/
def State.unqueue (s : State) (w : Waiting) : State :=
  let s := s.headOn w.pkt.ring (pktSlots w.pkt)
  { s with cmd := { s.cmd with waiting := s.cmd.waiting.erase w } }

/-- A packet that its server has taken runs (R42 steps 5 to 9), by its opcode. -/
def serveTaken (w : Waiting) (s : State) : State :=
  if w.opcode = 0x0E03 then
    if (s.ownPkt w.pkt).u8 16 = 0 then serveSchedule w.pkt w.gap s
    else serveOp 0x0E03 timedExecDef w.pkt w.gap s
  else if w.opcode = 0x0307 then serveLut w.pkt w.gap s
  else match opDef w.opcode with
    | some d => serveOp w.opcode d w.pkt w.gap s
    | none => s.reject w.opcode w.pkt stBadOpcode [] w.gap

/-- A packet at the head of its ring is read from its lines and runs. One that cannot be read is not executed and
counts in RING_MEM_DROPS; if its first line passes, a MEM_FAULT reply is sent (R276 code 10). -/
def serveHead (w : Waiting) (s : State) : State :=
  let l := s.ringLines w.pkt.ring (s.headSlot w.pkt.ring) (pktSlots w.pkt)
  let m := s.ringsWritten.readEach 10 l
  let t := m.1.unqueue w
  if m.2.isEmpty then serveTaken w t
  else
    let t := t.bump pRingMemDrops 1
    if m.2.contains (l.headD 0) then t else t.reject w.opcode w.pkt stMemFault [] w.gap

/-- The class-0 decoder takes the oldest class-0 packet, writes its contexts and replies (R46, R418). -/
def State.contextWrite (s : State) : State :=
  if !s.seqClocked || s.pwr.linkOff then s
  else match s.cmd.waiting.find? fun w => decide (w.pkt.cls = 0) with
    | some w => serveHead w s
    | none => s

def execContextWrite (dt : Nat) (s : State) : Host.Outcome State Fault Refusal :=
  .next (s.elapse dt).contextWrite

/-! ### The sequencer's picks (R58, R52, R369) -/

/-- A packet of the sequencer can be started: its reply slots can be reserved (R52), a LUT_WRITE waits while the
banks are copied (R92), and CAL_SWEEP and CAL_ABORT while step 4 of a CAL_COMMIT runs (R267). -/
def State.canTake (s : State) (w : Waiting) : Bool :=
  let room := fun (n : Nat) => decide (n ≤ s.outFree (replyRing w.pkt))
  if !opPermitted w.opcode w.pkt.cls then room 1
  else if (w.opcode = 0x0307 ∧ s.comp.lutCopying) ∨ s.stepFour w.opcode then false
  else if w.opcode = 0x0E03 then
    if (s.ownPkt w.pkt).u8 16 = 0 then room 1 else s.canStart timedExecDef w.pkt
  else match opDef w.opcode with
    | some d => s.canStart d w.pkt
    | none => room 1

/-- A SET_TIME that waits for its edge still executes: the packets behind it in its ring wait (R58). -/
def State.edgeHeld (s : State) (r : Nat) : Bool :=
  s.cmd.held.any fun h => match h.kind with
    | .edge _ _ => decide (h.pkt.ring = r) && !h.pkt.timed
    | _ => false

/-- The packet at the head of a submission ring, if it waits for the sequencer (R52). -/
def State.ringHead (s : State) (r : Nat) : Option Waiting :=
  if s.edgeHeld r then none
  else match s.cmd.waiting.find? fun w => decide (w.pkt.ring = r) with
    | some w => if s.canTake w then some w else none
    | none => none

/-- The ring of a class that is served next: in rotation from the one after the last served (R58). -/
def State.nextRing (s : State) (c : Nat) : Option Nat :=
  let l := (List.range 48).filter fun r => decide ((s.ring r).cls = c) && (s.ringHead r).isSome
  let last := tget (fun _ => 48) s.cmd.lastRing c
  match l.find? fun r => decide (last < r) with
  | some r => some r
  | none => l.head?

/-- The released entry of a class that runs next: the earliest released, then the first accepted
(R369). -/
def State.nextTimed (s : State) (c : Nat) : Option Timed :=
  let l := s.grp.queue.filter fun t => t.released && decide (t.pkt.cls = c)
    && !(decide (t.opcode = 0x0307) && s.comp.lutCopying) && !s.stepFour t.opcode
  l.find? fun t => l.all fun u => decide (t.atClk ≤ u.atClk)

/-- A class has work. -/
def State.classHas (s : State) (c : Nat) : Bool := (s.nextTimed c).isSome || (s.nextRing c).isSome

/-- The class that the next pick serves: the most urgent with work, or at every 16th pick the least
urgent (R58). -/
def State.pickClass (s : State) : Option Nat :=
  ((if (s.cmd.picks + 1) % 16 = 0 then [3, 2, 1] else [1, 2, 3]) : List Nat).find? s.classHas

/-- A SET_TIME with NOW that runs from the timed queue counts from its seam's latch instant (R372). -/
def State.timedNow (s : State) (t : Timed) : Timed :=
  if t.opcode = 0x0009 ∧ bitOf (t.pkt.u32 24) 0 then
    let time := t.pkt.u64 16 + (s.clk - t.atClk)
    { t with pkt := { t.pkt with params := leBytes 8 time ++ t.pkt.params.drop 8 } }
  else t

/-- A released entry runs. -/
def State.takeTimed (s : State) (t : Timed) : State :=
  let s := { s with grp := { s.grp with queue := s.grp.queue.erase t } }
  let t := s.timedNow t
  match opDef t.opcode with
  | some d => runTimed d t s
  | none => s

/-- The packet at the head of a ring is taken. -/
def State.takeRing (s : State) (c r : Nat) (w : Waiting) : State :=
  serveHead w { s with cmd := { s.cmd with lastRing := tput (fun _ => 48) s.cmd.lastRing c r } }

/-- The sequencer picks the next packet and executes it (R58). -/
def State.sequencerTake (s : State) : State :=
  if !s.cmd.serving || !s.seqRuns || s.pwr.linkOff then s
  else match s.pickClass with
    | none => s
    | some c =>
      let n := { s with cmd := { s.cmd with picks := (s.cmd.picks + 1) % 16 } }
      match s.nextTimed c with
      | some t => n.takeTimed t
      | none =>
        match s.nextRing c with
        | none => s
        | some r =>
          match s.ringHead r with
          | some w => n.takeRing c r w
          | none => s

def execSequencerTake (dt : Nat) (ups : Upsets) (s : State) : Host.Outcome State Fault Refusal :=
  .next (((s.elapse dt).arise ups).sequencerTake)

/-! ### Multi-step commands (R58) -/

/-- A job can run its next step: its line writes have ended, and step 2 of a CAL_SWEEP its sweep. -/
def State.stepReady (s : State) (b : Job) : Bool :=
  !b.writing && s.mem.writes.isEmpty && (match b.kind with
    | .sceneStore _ _ _ => true
    | .calSweep _ resume _ => decide (b.step ≠ sweepWait resume) || decide (s.cal.phase = .done)
    | .calCommit _ => true
    | _ => false)

/-- The entry of a job whose first step begins is STARTED (R345). -/
def State.jobBegins (s : State) (b : Job) : State :=
  if b.step = 0 then s.jSet b.jseq b.pkt.durable fun e => { e with state := 2 } else s

/-- The next step of a job. -/
def State.runStep (s : State) (b : Job) : State :=
  let s := s.jobBegins b
  match b.kind with
  | .sceneStore n lock expect => s.sceneStep b n lock expect
  | .calSweep tiles resume id => s.calSweepStep b tiles resume id.toNat
  | .calCommit id => s.calCommitStep b id
  | _ => s

/-- The oldest command that yielded is taken up again. -/
def State.multiStep (s : State) : State :=
  if !s.cmd.serving || !s.seqRuns then s
  else match s.cmd.jobs.find? s.stepReady with
    | some b => (s.runStep b).negoTick
    | none => s

def execMultiStepResume (dt : Nat) (ups : Upsets) (s : State) : Host.Outcome State Fault Refusal :=
  .next (((s.elapse dt).arise ups).multiStep)

/-! ### RECORD_SEND (R43, R48, R174) -/

/-- The head record of the first non-empty link output ring is sent, in mirror mode on every open
return with the same BSEQ. -/
def State.recordSend (s : State) (l : Lane) : State := (s.lines.sendHead l).negoTick

def execRecordSend (dt : Nat) (lane : Lane) (s : State) : Host.Outcome State Fault Refusal :=
  .next ((s.elapse dt).recordSend lane)

/-! ### Forward blocks (R163 to R166, R171 to R175) -/

/-- The payload of a block. -/
def payload (b : List Byte) : List Byte := (b.drop 1).take 28

/-- The CMD packet being built is discarded and counted (R41, R166). -/
def State.cutPacket (s : State) : State :=
  if s.link.cmd.isSome then
    ({ s with link := { s.link with cmd := none } }).crcDrop .link
  else s

/-- The CMD packet grows by a block, and arrives when it is whole; one that is too long is discarded
(R41, R43). -/
def State.growPacket (s : State) (l : List Byte) : State :=
  if 1020 < plenOf l then ({ s with link := { s.link with cmd := none } }).crcDrop .link
  else if packetLength (plenOf l) ≤ l.length then
    ({ s with link := { s.link with cmd := none } }).packetIn .link l
  else { s with link := { s.link with cmd := some l } }

/-- A selected CMD block (R166). -/
def State.cmdBlock (s : State) (b : List Byte) (good : Bool) : State :=
  if blockSop b then
    let s := s.cutPacket
    if good then s.growPacket (payload b) else s.crcDrop .link
  else match s.link.cmd with
    | none => s.bump pBlkOrphan 1
    | some a => if good then s.growPacket (a ++ payload b) else s.cutPacket

/-- The video line being built is bad: counted, and its later blocks belong to no line (R166, R198). -/
def State.cutLine (s : State) : State :=
  if s.link.line.isSome then ({ s with link := { s.link with line := none } }).bump pLinesBad 1 else s

/-- A video line grows by a block, and is judged when it is whole (R198). -/
def State.growLine (s : State) (l : List Byte) : State :=
  let n := lineLength (byteAt l 6).toNat
  if n ≤ l.length then ({ s with link := { s.link with line := none } }).videoLine (l.take n)
  else { s with link := { s.link with line := some l } }

/-- A selected VIDEO block (R166). -/
def State.videoBlock (s : State) (b : List Byte) (good : Bool) : State :=
  if blockSop b then
    let s := s.cutLine
    if good then s.growLine (payload b) else s.bump pLinesBad 1
  else match s.link.line with
    | none => s
    | some a => if good then s.growLine (a ++ payload b) else s.cutLine

/-- A selected block of a packet or a line; `good` says that its CRC8 is correct. -/
def State.deliver (s : State) (b : List Byte) (good : Bool) : State :=
  match blockType b with
  | 1 => s.cmdBlock b good
  | 2 => s.videoBlock b good
  | _ => s

/-! ### The deskew buffer (R174) -/

/-- A lane supplies copies: it carries, whether or not packets are still accepted (R333). -/
def State.hears (s : State) (l : Lane) : Bool :=
  let x := s.lane l
  decide (x.stage = .active) && decide (x.fwd = .l0) && s.admits l && !x.retrainReq

/-- Write the deskew buffer. -/
def State.setRecent (s : State) (l : List Copy) : State := { s with link := { s.link with recent := l } }

/-- A block time passes for the copies in the deskew buffer. -/
def State.ageCopies (s : State) : State :=
  s.setRecent ((s.link.recent.map fun (c : Copy) => { c with age := c.age + 1 }).filter fun c => decide (c.age ≤ 6))

/-- A copy that comes behind its partner: its lag is counted, a difference too, and it stands in for
a partner whose CRC8 was wrong (R174). -/
def State.lateCopy (s : State) (l : Lane) (b : List Byte) (c : Copy) : State :=
  let run := if 3 < c.age then (s.lane l).lagRun + 1 else 0
  let s := s.modLane l fun x => { x with lagRun := run }
  let s := if blockGood b ∧ blockGood c.bytes ∧ b ≠ c.bytes then s.bump pMirrorDiff 1 else s
  let s := if !c.used ∧ !blockGood c.bytes ∧ blockGood b ∧ c.age ≤ 3 then
      s.setRecent (s.link.recent.map fun (x : Copy) => if x = c then { x with bytes := b } else x)
    else s
  if 64 ≤ run then s.laneDown l 8 else s

/-- A copy enters the deskew buffer. -/
def State.putCopy (s : State) (l : Lane) (c : Option (List Byte)) : State :=
  match c with
  | none => s
  | some b =>
    match s.link.recent.find? fun x => decide (x.bseq = blockBseq b) && decide (x.lane ≠ l) with
    | some x => s.lateCopy l b x
    | none =>
      (s.modLane l fun x => { x with lagRun := 0 }).setRecent
        (s.link.recent ++ [{ lane := l, bseq := blockBseq b, bytes := b }])

/-- A copy is selected: it is delivered with the packet or line that it belongs to. -/
def State.takeCopy (s : State) (c : Copy) : State :=
  let s := s.setRecent (s.link.recent.map fun (x : Copy) => if x = c then { x with used := true } else x)
  ({ s with link := { s.link with lastBseq := some c.bseq } }).deliver c.bytes (blockGood c.bytes)

/-- The block of a BSEQ is missing: what was being built is discarded (R166). -/
def State.skipBseq (s : State) (n : Nat) : State :=
  let s := s.cutPacket.cutLine
  { s with link := { s.link with lastBseq := some n } }

/-- The selected copies leave the deskew buffer in the order of BSEQ: at once when they are good or a
lane carries alone, else once the buffer's depth has passed. Over a BSEQ that is missing what was being built is
discarded. -/
def State.drain (alone : Bool) : Nat → State → State
  | 0, s => s
  | n + 1, s =>
    match s.link.recent.filter fun c => !c.used with
    | [] => s
    | c :: r =>
      let next := match s.link.lastBseq with
        | none => c.bseq
        | some k => (k + 1) % 8
      match (c :: r).find? fun x => decide (x.bseq = next) with
      | some x => if blockGood x.bytes || alone || decide (3 ≤ x.age) then State.drain alone n (s.takeCopy x) else s
      | none =>
        if alone then State.drain alone n ((s.skipBseq next).takeCopy c)
        else if (c :: r).any fun x => decide (3 ≤ x.age) then State.drain alone n (s.skipBseq next)
        else s

/-! ### BLOCK_RECEIVED -/

/-- What a lane's header check leaves of a block time (R163, R168, R172): a valid header's block, or none. -/
def headerSeen (x : LaneSt) (b : Option (List Byte)) : LaneSt :=
  { x with
    validRun := if b.isSome then x.validRun + 1 else 0
    badWindow := if x.stage = .active then (b.isNone :: x.badWindow).take 64 else []
    bseq := match b with
      | some b => some (blockBseq b)
      | none => x.bseq }

/-- An invalid header is counted, and the 8th within 64 block times loses the lock (R172). -/
def State.headerBad (s : State) (l : Lane) : State :=
  let s := s.bump (hdrBadId l) 1
  if (s.lane l).stage = .active ∧ 8 ≤ ((s.lane l).badWindow.filter id).length then s.laneDown l 2 else s

/-- A lane takes blocks and judges their headers (R168, R172). -/
def judges (x : LaneSt) : Bool :=
  decide (x.fwd = .l0) && (decide (x.stage = .lock) || decide (x.stage = .caps) || decide (x.stage = .active))

/-- A lane supplies copies alone. -/
def State.lone (s : State) (l : Lane) : Bool := s.hears l && !(s.mirror && s.hears (partner l))

/-- A block time passes on a lane with no valid header (R172): the lane that carries alone has lost a block of what it
was building, if a block came at all. -/
def State.headerNone (s : State) (l : Lane) (came : Bool) : State :=
  let s := if came && s.lone l then s.cutPacket.cutLine else s
  (s.setLane l (headerSeen (s.lane l) none)).headerBad l

/-- A block with a valid header, by the lane's stage; in ACTIVE it is a copy. -/
def State.blockValid (s : State) (l : Lane) (b : List Byte) : State × Option (List Byte) :=
  let good := blockGood b
  let copy := if s.hears l then some b else none
  match (s.lane l).stage with
  | .lock => (if 64 ≤ (s.lane l).validRun then s.locked l else s, none)
  | .caps => (if good ∧ isCaps l b then s.capsIn l b else s, none)
  | .active => (if good ∧ blockType b = 0 then s.idleIn l (byteAt b 1).toNat else s, copy)
  | _ => (s, none)

/-- A scrambled block on a lane. BLK_CRC counts every block with a bad CRC8 (R182). -/
def State.blockIn (s : State) (l : Lane) (syms : List Nat) : State × Option (List Byte) :=
  let u := unscramble (s.lane l) syms
  let s := s.setLane l u.2
  let s := if blockGood u.1 then s else s.bump (blkCrcId l) 1
  if headerValid u.2.bseq u.1 then (s.setLane l (headerSeen u.2 (some u.1))).blockValid l u.1
  else (s.headerNone l true, none)

/-- The bit times that a TRAIN block takes with what follows it: a training unit's, in TRAIN, in a reseat window and
in a resume from L2, or its own (R161, R167). -/
def trainBits (x : LaneSt) (b : List Byte) : Nat :=
  if x.stage = .train ∨ x.fwd = .l2 ∨ trainFlag b 2 then unitBits else blockBits

/-- A TRAIN block on a lane: its bit times pass, its header is judged like any block's (R163), and it acts. Its BSEQ
is one of the stream, up to a LAST, after which the stream counts afresh. -/
def State.trainBlock (s : State) (l : Lane) (b : List Byte) : State × Option (List Byte) :=
  let x := bitTimes (trainBits (s.lane l) b) (s.lane l)
  let s := s.setLane l x
  let valid := headerValid x.bseq b
  let copy := if valid && s.hears l && !trainFlag b 1 then some b else none
  let s := if !judges x then s
    else if valid then s.setLane l (headerSeen x (some b))
    else s.headerNone l true
  let s := if trainFlag b 1 && s.lone l then { s with link := { s.link with lastBseq := none } } else s
  (s.trainIn l b, copy)

/-- A block time in which a lane receives nothing (R161, R172). -/
def State.emptyTime (s : State) (l : Lane) : State :=
  let s := if (s.lane l).fresh then s else s.modLane l (bitTimes blockBits)
  if judges (s.lane l) then s.headerNone l false else s

/-- What a lane receives in a block time. -/
def State.laneIn (s : State) (l : Lane) (syms : Option (List Nat)) : State × Option (List Byte) :=
  let x := s.lane l
  if !x.phyOn || !s.admits l || !s.seqClocked then (s, none)
  else match syms with
    | none => (s.emptyTime l, none)
    | some v =>
      if isTrain l (rawBytes v) then s.trainBlock l (rawBytes v)
      else if judges x then s.blockIn l v
      else (s.modLane l (bitTimes blockBits), none)

/-- One forward block time: what each lane receives, the selection, and what it completes. -/
def State.blockReceived (s : State) (copyA copyB : Option (List Nat)) : State :=
  let a := s.lines.ageCopies.laneIn .a copyA
  let b := a.1.laneIn .b copyB
  let t := (b.1.putCopy .a a.2).putCopy .b b.2
  (State.drain (!(t.mirror && t.hears .a && t.hears .b)) 16 t).negoTick

def execBlockReceived (dt : Nat) (copyA copyB : Option (List Nat)) (s : State) : Host.Outcome State Fault Refusal :=
  .next ((s.elapse dt).blockReceived copyA copyB)

end Sys2Proof.Machine
end

