-- ==== Sys2Proof/Machine/Dispatch.lean ====
section
/-! DEFINITION. One arm per command: each calls its meaning. -/

namespace Sys2Proof.Machine

def exec (i : Instr) (s : State) : Host.Outcome State Fault Refusal :=
  match i with
  | .blockReceived dt copyA copyB => Sys2Proof.Machine.execBlockReceived dt copyA copyB s
  | .c0Overload dt => Sys2Proof.Machine.execC0Overload dt s
  | .contextWrite dt => Sys2Proof.Machine.execContextWrite dt s
  | .sequencerTake dt ups => Sys2Proof.Machine.execSequencerTake dt ups s
  | .multiStepResume dt ups => Sys2Proof.Machine.execMultiStepResume dt ups s
  | .recordSend dt lane => Sys2Proof.Machine.execRecordSend dt lane s
  | .pktWrite dt sdi => Sys2Proof.Machine.execPktWrite dt sdi s
  | .ringRead dt sel clocked => Sys2Proof.Machine.execRingRead dt sel clocked s
  | .statusPoll dt => Sys2Proof.Machine.execStatusPoll dt s
  | .ping p => Sys2Proof.Machine.execPing p s
  | .identify p => Sys2Proof.Machine.execIdentify p s
  | .sequencerRestart p => Sys2Proof.Machine.execSequencerRestart p s
  | .pipelineSoftReset p => Sys2Proof.Machine.execPipelineSoftReset p s
  | .fullReset p => Sys2Proof.Machine.execFullReset p s
  | .paramGet p => Sys2Proof.Machine.execParamGet p s
  | .paramSet p => Sys2Proof.Machine.execParamSet p s
  | .statusGet p => Sys2Proof.Machine.execStatusGet p s
  | .eventAck p => Sys2Proof.Machine.execEventAck p s
  | .ringConfig p => Sys2Proof.Machine.execRingConfig p s
  | .setTime p => Sys2Proof.Machine.execSetTime p s
  | .timeStatus p => Sys2Proof.Machine.execTimeStatus p s
  | .objUpdate p => Sys2Proof.Machine.execObjUpdate p s
  | .objRelease p => Sys2Proof.Machine.execObjRelease p s
  | .objClearAll p => Sys2Proof.Machine.execObjClearAll p s
  | .forceLevel p => Sys2Proof.Machine.execForceLevel p s
  | .fallbackEnter p => Sys2Proof.Machine.execFallbackEnter p s
  | .fallbackExit p => Sys2Proof.Machine.execFallbackExit p s
  | .bendSet p => Sys2Proof.Machine.execBendSet p s
  | .frameCommit p => Sys2Proof.Machine.execFrameCommit p s
  | .scanSelect p => Sys2Proof.Machine.execScanSelect p s
  | .timingStatus p => Sys2Proof.Machine.execTimingStatus p s
  | .freezeStatus p => Sys2Proof.Machine.execFreezeStatus p s
  | .videoConfig p => Sys2Proof.Machine.execVideoConfig p s
  | .sceneWrite p => Sys2Proof.Machine.execSceneWrite p s
  | .sceneStore p => Sys2Proof.Machine.execSceneStore p s
  | .sceneMix p => Sys2Proof.Machine.execSceneMix p s
  | .symbolWrite p => Sys2Proof.Machine.execSymbolWrite p s
  | .ovlSet p => Sys2Proof.Machine.execOvlSet p s
  | .ovlClear p => Sys2Proof.Machine.execOvlClear p s
  | .lutWrite p => Sys2Proof.Machine.execLutWrite p s
  | .windowSet p => Sys2Proof.Machine.execWindowSet p s
  | .tileRefSet p => Sys2Proof.Machine.execTileRefSet p s
  | .driveStatus p => Sys2Proof.Machine.execDriveStatus p s
  | .budgetSet p => Sys2Proof.Machine.execBudgetSet p s
  | .saddleStatus p => Sys2Proof.Machine.execSaddleStatus p s
  | .strConfig p => Sys2Proof.Machine.execStrConfig p s
  | .strLevel p => Sys2Proof.Machine.execStrLevel p s
  | .strStatus p => Sys2Proof.Machine.execStrStatus p s
  | .crestLoad p => Sys2Proof.Machine.execCrestLoad p s
  | .crestStop p => Sys2Proof.Machine.execCrestStop p s
  | .crestStart p => Sys2Proof.Machine.execCrestStart p s
  | .crestResume p => Sys2Proof.Machine.execCrestResume p s
  | .crestStopAndSet p => Sys2Proof.Machine.execCrestStopAndSet p s
  | .diagStatus p => Sys2Proof.Machine.execDiagStatus p s
  | .diagMapRead p => Sys2Proof.Machine.execDiagMapRead p s
  | .pixelMask p => Sys2Proof.Machine.execPixelMask p s
  | .faultClear p => Sys2Proof.Machine.execFaultClear p s
  | .faultConfig p => Sys2Proof.Machine.execFaultConfig p s
  | .calSweep p => Sys2Proof.Machine.execCalSweep p s
  | .calCommit p => Sys2Proof.Machine.execCalCommit p s
  | .calStatus p => Sys2Proof.Machine.execCalStatus p s
  | .calAbort p => Sys2Proof.Machine.execCalAbort p s
  | .fluxWrite p => Sys2Proof.Machine.execFluxWrite p s
  | .memRead p ups => Sys2Proof.Machine.execMemRead p ups s
  | .memWrite p => Sys2Proof.Machine.execMemWrite p s
  | .cvuConfig p => Sys2Proof.Machine.execCvuConfig p s
  | .cvuRun p => Sys2Proof.Machine.execCvuRun p s
  | .cvuDone dt unit ups => Sys2Proof.Machine.execCvuDone dt unit ups s
  | .errlogRead p => Sys2Proof.Machine.execErrlogRead p s
  | .scrubStatus p => Sys2Proof.Machine.execScrubStatus p s
  | .bistConfig p => Sys2Proof.Machine.execBistConfig p s
  | .bistRun p => Sys2Proof.Machine.execBistRun p s
  | .bistResult p => Sys2Proof.Machine.execBistResult p s
  | .spurAssign p => Sys2Proof.Machine.execSpurAssign p s
  | .thermStatus p => Sys2Proof.Machine.execThermStatus p s
  | .thermConfig p => Sys2Proof.Machine.execThermConfig p s
  | .pwrState p => Sys2Proof.Machine.execPwrState p s
  | .pwrStatus p => Sys2Proof.Machine.execPwrStatus p s
  | .jrnlRead p => Sys2Proof.Machine.execJrnlRead p s
  | .jrnlMark p => Sys2Proof.Machine.execJrnlMark p s
  | .stateDigest p => Sys2Proof.Machine.execStateDigest p s
  | .fwStageBegin p => Sys2Proof.Machine.execFwStageBegin p s
  | .fwStageData p => Sys2Proof.Machine.execFwStageData p s
  | .fwStageFinish p => Sys2Proof.Machine.execFwStageFinish p s
  | .fwStageQuery p => Sys2Proof.Machine.execFwStageQuery p s
  | .fwActivate p => Sys2Proof.Machine.execFwActivate p s
  | .fwConfirm p => Sys2Proof.Machine.execFwConfirm p s
  | .fwSelfCheckTimeout dt => Sys2Proof.Machine.execFwSelfCheckTimeout dt s
  | .authOpen p => Sys2Proof.Machine.execAuthOpen p s
  | .authLoadKey p => Sys2Proof.Machine.execAuthLoadKey p s
  | .authClose p => Sys2Proof.Machine.execAuthClose p s
  | .linkStatus p => Sys2Proof.Machine.execLinkStatus p s
  | .linkRetrain p => Sys2Proof.Machine.execLinkRetrain p s
  | .laneMode p => Sys2Proof.Machine.execLaneMode p s
  | .eyeRead p => Sys2Proof.Machine.execEyeRead p s
  | .nodeSet p => Sys2Proof.Machine.execNodeSet p s
  | .groupSet p => Sys2Proof.Machine.execGroupSet p s
  | .schedule p => Sys2Proof.Machine.execSchedule p s
  | .cancel p => Sys2Proof.Machine.execCancel p s
  | .list p => Sys2Proof.Machine.execList p s
  | .groupStatus p => Sys2Proof.Machine.execGroupStatus p s
  | .timedRelease dt => Sys2Proof.Machine.execTimedRelease dt s
  | .startToken dt g ups => Sys2Proof.Machine.execStartToken dt g ups s
  | .passComplete dt t ups => Sys2Proof.Machine.execPassComplete dt t ups s
  | .loadDeadline dt g parityBad => Sys2Proof.Machine.execLoadDeadline dt g parityBad s
  | .slotStart dt g => Sys2Proof.Machine.execSlotStart dt g s
  | .notchRowAccess dt probes low => Sys2Proof.Machine.execNotchRowAccess dt probes low s
  | .notchEnd dt measured => Sys2Proof.Machine.execNotchEnd dt measured s
  | .planInstant dt dupDiffers => Sys2Proof.Machine.execPlanInstant dt dupDiffers s
  | .commitCutoff dt => Sys2Proof.Machine.execCommitCutoff dt s
  | .latchInstant dt => Sys2Proof.Machine.execLatchInstant dt s
  | .timeoutScanRound dt => Sys2Proof.Machine.execTimeoutScanRound dt s
  | .hardTrip dt shuntMa => Sys2Proof.Machine.execHardTrip dt shuntMa s
  | .hostStale dt => Sys2Proof.Machine.execHostStale dt s
  | .fallbackCheck dt => Sys2Proof.Machine.execFallbackCheck dt s
  | .limpCodesReady dt badMram badStore badMap => Sys2Proof.Machine.execLimpCodesReady dt badMram badStore badMap s
  | .syncInEdge edge => Sys2Proof.Machine.execSyncInEdge edge s
  | .syncEdgeMissed dt => Sys2Proof.Machine.execSyncEdgeMissed dt s
  | .ptbLock dt gridOffset => Sys2Proof.Machine.execPtbLock dt gridOffset s
  | .frameReady dt => Sys2Proof.Machine.execFrameReady dt s
  | .detectPoll dt lane present => Sys2Proof.Machine.execDetectPoll dt lane present s
  | .backoffExpiry dt lane => Sys2Proof.Machine.execBackoffExpiry dt lane s
  | .rxReady dt lane found => Sys2Proof.Machine.execRxReady dt lane found s
  | .trainTimeout dt lane => Sys2Proof.Machine.execTrainTimeout dt lane s
  | .lockTimeout dt lane => Sys2Proof.Machine.execLockTimeout dt lane s
  | .capsTimeout dt lane => Sys2Proof.Machine.execCapsTimeout dt lane s
  | .lossOfSignal dt lane => Sys2Proof.Machine.execLossOfSignal dt lane s
  | .terminationLost dt lane => Sys2Proof.Machine.execTerminationLost dt lane s
  | .adaptWindowEnd dt lane w => Sys2Proof.Machine.execAdaptWindowEnd dt lane w s
  | .eyeScanDone dt lane eye => Sys2Proof.Machine.execEyeScanDone dt lane eye s
  | .l2Resume dt lane => Sys2Proof.Machine.execL2Resume dt lane s
  | .returnIdleTimeout dt lane => Sys2Proof.Machine.execReturnIdleTimeout dt lane s
  | .returnResume dt lane => Sys2Proof.Machine.execReturnResume dt lane s
  | .retReadyTimeout dt lane => Sys2Proof.Machine.execRetReadyTimeout dt lane s
  | .stringPeriodStart dt samples => Sys2Proof.Machine.execStringPeriodStart dt samples s
  | .openDetected dt pos mv => Sys2Proof.Machine.execOpenDetected dt pos mv s
  | .crestTick dt => Sys2Proof.Machine.execCrestTick dt s
  | .ntcUpdate dt code1 code2 => Sys2Proof.Machine.execNtcUpdate dt code1 code2 s
  | .thermalUpdate dt readings vledMv => Sys2Proof.Machine.execThermalUpdate dt readings vledMv s
  | .thermalResume dt => Sys2Proof.Machine.execThermalResume dt s
  | .thermalRelax dt => Sys2Proof.Machine.execThermalRelax dt s
  | .factoryCorrection dt => Sys2Proof.Machine.execFactoryCorrection dt s
  | .talusRead dt mram outcome => Sys2Proof.Machine.execTalusRead dt mram outcome s
  | .repaired dt sourceGood => Sys2Proof.Machine.execRepaired dt sourceGood s
  | .mramLineWrite dt verified => Sys2Proof.Machine.execMramLineWrite dt verified s
  | .journalLineWrite dt verified => Sys2Proof.Machine.execJournalLineWrite dt verified s
  | .coalesceWindowClose dt port ring => Sys2Proof.Machine.execCoalesceWindowClose dt port ring s
  | .bistSliceStart dt => Sys2Proof.Machine.execBistSliceStart dt s
  | .sliceEnd dt segs => Sys2Proof.Machine.execSliceEnd dt segs s
  | .bankMigrated dt => Sys2Proof.Machine.execBankMigrated dt s
  | .supplyTrip dt rail => Sys2Proof.Machine.execSupplyTrip dt rail s
  | .vaonPowerOn dt => Sys2Proof.Machine.execVaonPowerOn dt s
  | .resetnAssert dt => Sys2Proof.Machine.execResetnAssert dt s
  | .resetnRelease dt => Sys2Proof.Machine.execResetnRelease dt s
  | .powerupStageReady dt => Sys2Proof.Machine.execPowerupStageReady dt s
  | .powerupStageTimeout dt detail => Sys2Proof.Machine.execPowerupStageTimeout dt detail s
  | .referenceLoss dt => Sys2Proof.Machine.execReferenceLoss dt s
  | .clockRestored dt ticks => Sys2Proof.Machine.execClockRestored dt ticks s
  | .wakeLand dt => Sys2Proof.Machine.execWakeLand dt s
  | .laneWake dt heard => Sys2Proof.Machine.execLaneWake dt heard s
  | .sleepTimerWake dt => Sys2Proof.Machine.execSleepTimerWake dt s
  | .quiesceTimeout dt stuck => Sys2Proof.Machine.execQuiesceTimeout dt stuck s
  | .sleepEntry dt => Sys2Proof.Machine.execSleepEntry dt s
  | .stressStore dt => Sys2Proof.Machine.execStressStore dt s
  | .watchdogExpiry dt => Sys2Proof.Machine.execWatchdogExpiry dt s
  | .lockstepMismatch dt => Sys2Proof.Machine.execLockstepMismatch dt s
  | .instructionFetchFault dt line => Sys2Proof.Machine.execInstructionFetchFault dt line s
  | .restartHoldExpiry dt => Sys2Proof.Machine.execRestartHoldExpiry dt s
  | .recoveryPass dt => Sys2Proof.Machine.execRecoveryPass dt s
  | .jtagInstructionUpdate dt code => Sys2Proof.Machine.execJtagInstructionUpdate dt code s
  | .testLogicReset dt => Sys2Proof.Machine.execTestLogicReset dt s
  | .supplyMonitorRecovery dt => Sys2Proof.Machine.execSupplyMonitorRecovery dt s
  | .setTimeEdgeTimeout dt => Sys2Proof.Machine.execSetTimeEdgeTimeout dt s
  | .lutBankCopyDone dt => Sys2Proof.Machine.execLutBankCopyDone dt s
  | .pipelineReinitDone dt => Sys2Proof.Machine.execPipelineReinitDone dt s
  | .fwSelfCheckPassed dt => Sys2Proof.Machine.execFwSelfCheckPassed dt s
  | .stepTrimsDone dt dac cmp => Sys2Proof.Machine.execStepTrimsDone dt dac cmp s
  | .trainTapMismatch dt lane => Sys2Proof.Machine.execTrainTapMismatch dt lane s
  | .tExitMeasured dt period => Sys2Proof.Machine.execTExitMeasured dt period s
  | .tickPeriodMeasured dt period => Sys2Proof.Machine.execTickPeriodMeasured dt period s

end Sys2Proof.Machine
end

