-- ==== Sys2Proof/Safety.lean ====
section
/-! DEFINITION. The terms in which the statements speak: when a packet passes the checks of R42, what
a completed command leaves beside its effect, and the invariant of the model. -/

namespace Sys2Proof.Machine

/-! ### Memory (DESIGN CHOICE, log 1) -/

/-- The canonical form of the two memories. -/
def Memory.wf (m : Mem) : Bool := twf sramDef m.sram && twf mramDef m.mram

/-! ### The invariant -/

/-- What every step keeps: memory in its canonical form; the timed queue and the journal cache within
the sizes that the manual gives them (R368, R349); the error table within its size, with one entry per
line (R280); the repair queue within its size, with no line twice (R278); no entry with the JSEQ that is never used
(R344). -/
structure Inv (s : State) : Prop where
  mem     : Memory.wf s.mem = true
  timed   : s.grp.queue.length ≤ 32
  table   : s.mem.table.length ≤ 32
  lines   : (s.mem.table.map fun e => e.addr).Nodup
  repair  : s.mem.repairQ.length ≤ 64
  once    : s.mem.repairQ.Nodup
  cache   : s.jrn.cache.length ≤ 2048
  newest  : s.jrn.newest ≠ some 0xFFFFFFFF
  cached  : ∀ e ∈ s.jrn.cache, e.jseq ≠ 0xFFFFFFFF
  stored  : ∀ e ∈ s.nvm.journal, e.2.jseq ≠ 0xFFFFFFFF

/-! ### Frames -/

/-- The parts of the state that a frame names. `bytes` is what the two memories hold, `memory` the rest
of memory integrity; `journal` takes in the journal's lines in MRAM, `stored` is the rest of what MRAM
keeps; `devtime` is the clock of the model with DEVTIME, `power` the rest of the power states. -/
inductive Part where
  | queue | devtime | free | tap | rings | params | pixels | compose | shadow | saddle | link | frames
  | strings | diag | calib | bytes | memory | selfTest | thermal | power | journal | firmware | groups
  | stored
  deriving DecidableEq, Repr

/-- A part is the same in two states. -/
def samePart (s t : State) : Part → Prop
  | .queue => t.pending = s.pending
  | .devtime => t.clk = s.clk ∧ t.pwr.devtime = s.pwr.devtime
  | .free => t.free = s.free
  | .tap => t.jtag = s.jtag ∧ t.boundary = s.boundary ∧ t.tapHold = s.tapHold
  | .rings => t.cmd = s.cmd
  | .params => t.prm = s.prm
  | .pixels => t.pix = s.pix
  | .compose => t.comp = s.comp
  | .shadow => t.shd = s.shd
  | .saddle => t.sad = s.sad
  | .link => t.link = s.link
  | .frames => t.frm = s.frm
  | .strings => t.str = s.str
  | .diag => t.diag = s.diag
  | .calib => t.cal = s.cal
  | .bytes => t.mem.sram = s.mem.sram ∧ t.mem.mram = s.mem.mram
  | .memory => { t.mem with sram := [], mram := [] } = { s.mem with sram := [], mram := [] }
  | .selfTest => t.bist = s.bist
  | .thermal => t.thm = s.thm
  | .power => { t.pwr with devtime := 0 } = { s.pwr with devtime := 0 }
  | .journal => t.jrn = s.jrn ∧ t.nvm.journal = s.nvm.journal
  | .firmware => t.fw = s.fw
  | .groups => t.grp = s.grp
  | .stored => { t.nvm with journal := [] } = { s.nvm with journal := [] }

/-- Two states are the same but for the parts named. -/
def sameBut (l : List Part) (s t : State) : Prop := ∀ x : Part, x ∉ l → samePart s t x

/-- A command answers a next state that is the same but for the parts named. -/
def Touches (l : List Part) (c : Instr) (s : State) : Prop := ∃ t, exec c s = .next t ∧ sameBut l s t

/-- The parts that reads of lines change: what they count and report, and the bytes of a line that its source puts
back (R273). -/
def sourceParts : List Part := [.rings, .params, .memory, .diag, .bytes, .journal]

/-- The parts that a durable entry changes, and a read of the journal's lines: the journal's line, its sector where
cells fail (R284), and a self-test slice on that sector (R293). -/
def durParts : List Part := [.rings, .params, .memory, .diag, .journal, .stored, .selfTest, .free]

/-- No error stands in a line, and no self-test slice runs: a durable line of the journal is then written and
nothing else comes of it, where errors would be found and a slice on its sector cut short (R284, R293). -/
def State.calm (s : State) : Bool := s.mem.errs.isEmpty && s.bist.slice.isNone

/-! ### Packets that pass their checks (02_command_model.md R42, R52) -/

/-- The packet as its opcode sees it: less the authentication suffix (R360). -/
def ownOf (op : Nat) (p : Pkt) (s : State) : Pkt :=
  { p with params := ((s.authenticate op p).2).getD p.params }

/-- The state after step 6: the session's CTR has moved on (R360). -/
def authOf (op : Nat) (p : Pkt) (s : State) : State := (s.authenticate op p).1

/-- A packet without TIMED passes steps 5 to 9 of R42 and its reply has room (R52): the hypothesis
under which a statement says what its opcode does. -/
def passes (op : Nat) (d : OpDef) (p : Pkt) (s : State) : Bool :=
  let q := ownOf op p s
  let u := authOf op p s
  opPermitted op p.cls && !p.timed && (s.authenticate op p).2.isSome
    && (decide (p.cls = 0) || s.canStart d p)
    && (u.layoutBad d p q).isNone && (d.gate q u).isNone

/-- A packet without TIMED reaches step 8 of R42, and its reply has room. -/
def reaches (op : Nat) (d : OpDef) (p : Pkt) (s : State) : Bool :=
  let q := ownOf op p s
  let u := authOf op p s
  opPermitted op p.cls && !p.timed && (s.authenticate op p).2.isSome
    && (decide (p.cls = 0) || s.canStart d p) && d.len q
    && decide (u.longest d p q ≤ (u.ring (replyRing p)).depth)

/-- A packet with TIMED passes steps 5 to 8 of R42 and the checks of R368. -/
def passesTimed (op : Nat) (d : OpDef) (p : Pkt) (s : State) : Bool :=
  let q := ownOf op p s
  let u := authOf op p s
  let i := { q with params := q.params.drop 8 }
  opPermitted op p.cls && p.timed && (s.authenticate op p).2.isSome
    && (decide (p.cls = 0) || s.canStart d p) && decide (8 ≤ q.params.length)
    && (u.layoutBad d p i).isNone && (u.timedBad op p.cls (timedOf q.params) false).isNone

/-! ### What a completed command leaves (R53, R54, R345) -/

/-- A command that is not journaled: the reply OK with its result words. -/
def State.answered (s : State) (op : Nat) (q : Pkt) (r : List Word) : State :=
  s.reply op q stOk 1 1 0xFFFFFFFF r false true

/-- A journaled command's entry is made: the state with it, and its JSEQ (R344, R345). -/
def State.entered (s : State) (op : Nat) (q : Pkt) (durable : Bool) : State × Word :=
  s.jAdd (kind0 op q durable false q.params 1 1) durable

/-- A journaled command that ends at once: its entry, its effect on the state with that entry, the
entry's end with the first result word, the reply OK. -/
def State.journaled (s : State) (op : Nat) (q : Pkt) (durable : Bool)
    (eff : State → State × List Word) : State :=
  let x := s.entered op q durable
  let y := eff x.1
  (y.1.jEnd x.2 durable stOk 1 1 false (y.2.headD 0)).reply op q stOk 1 1 x.2 y.2 false true

/-- A journaled command whose own check fails: the effect, its entry FAILED with that status, and the
reply with it. -/
def State.failed (s : State) (op : Nat) (q : Pkt) (durable : Bool) (st : Nat) (eff : State → State) : State :=
  let x := s.entered op q durable
  ((eff x.1).jEnd x.2 durable st 0 1 false 0).reply op q st 0 1 x.2 [] false true

/-- A class-0 command: the record that covers it (R347), its effect, the reply OK. -/
def State.coalesced (s : State) (op : Nat) (q : Pkt) (eff : State → State × List Word) : State :=
  let x := s.coalesce op q
  let y := eff x.1
  y.1.reply op q stOk 1 1 x.2 y.2 false true

/-- An entry whose command goes on says so (R345). -/
def State.jOpen (s : State) (j : Word) (durable : Bool) (st steps : Nat) : State :=
  let v := s.jSet j durable fun e => { e with state := st, step := 0, steps := BitVec.ofNat 16 steps }
  if durable then v.jDurable j else v

/-- A command of so many steps that goes on (R58, R413 code A): its entry, then in state `st`, its effect, the
job, the reply ACCEPTED with STEP 0. -/
def State.begunAs (st : Nat) (s : State) (op : Nat) (q : Pkt) (durable : Bool) (kind : Word → JobKind)
    (steps total : Nat) (eff : State → State) : State :=
  let x := s.entered op q durable
  let v := eff x.1
  let v : State := { v with cmd := { v.cmd with jobs := v.cmd.jobs ++
    [{ kind := kind x.2, opcode := op, pkt := q, jseq := x.2, steps := steps }] } }
  (v.jOpen x.2 durable st total).reply op q stAccepted 0 total x.2 [] false true

/-- A command that goes on and whose first step has not begun: its entry is ACCEPTED (R345). -/
def State.begun (s : State) (op : Nat) (q : Pkt) (durable : Bool) (kind : Word → JobKind) (steps total : Nat)
    (eff : State → State) : State := s.begunAs 1 op q durable kind steps total eff

/-- A command whose one reply is held (R413 code D): its entry, its effect, its entry STARTED, and the
reply slot it keeps (R52). -/
def State.opened (s : State) (op : Nat) (q : Pkt) (durable : Bool) (eff : Word → State → State) : State :=
  let x := s.entered op q durable
  (((eff x.2 x.1).jOpen x.2 durable 2 1).markGap q x.2 false).reserve q

/-- FINISH reads the staged body (R357): a self-test slice on the slot's sectors is cut short, and the lines are read.
-/
def finishReads (k : Nat) (h : List Byte) (s : State) : State × List Nat :=
  (s.abortMrams (linesOf (slotBase k) (256 + hdrLength h))).readSpan 7 (slotBase k + 256) (hdrLength h)

/-- What CAL_ABORT does to a running job: the state, and the job's code with the steps in force, or 0
with none (11_calibration.md CAL_ABORT). -/
def abortJob (s : State) : State × Nat :=
  match s.calJob with
  | some b => (s.stopStore b stAbortHost, (match b.kind with | .calSweep _ _ _ => 1 | _ => 2) + 256 * b.step)
  | none => (s, 0)

/-- A PWR_STATE to a lower state: the state with the negotiation begun, and whether every block has
quiesced at once (R331, R332). -/
def lowers (q : Pkt) (s : State) : State × Bool :=
  let v := (s.entered 0x0B01 q (decide (2 ≤ pwrTarget q) || q.durable)).1
  let n := v.negoOf s.jNext q
  let w := v.negoGo n (sleepBlocks n.target)
  (w, match w.pwr.nego with | some m => decide (m.block = 9) | none => false)

/-- A SCHEDULE whose inner opcode is `d`'s passes its checks (R368). -/
def scheduleRuns (p : Pkt) (s : State) (d : OpDef) : Bool :=
  let q := ownOf 0x0E03 p s
  let u := authOf 0x0E03 p s
  let i := innerPkt q
  opPermitted 0x0E03 p.cls && !p.timed && (s.authenticate 0x0E03 p).2.isSome && decide (0 < s.outFree (replyRing p))
    && decide (16 ≤ q.params.length) && !untimeable (q.u16 28) && opPermitted (q.u16 28) p.cls
    && !u.innerNotAuth p (q.u16 28) && d.len i && scheduleOk q && decide (p.replyBits = 0)
    && (d.bad i u).isNone && (u.timedBad (q.u16 28) p.cls (q.u64 20) (bitOf (q.u8 17) 0)).isNone

/-- The state in which a command is served: with the errors in it that a MEM_READ's row says have arisen. -/
def servedOn : Instr → State → State
  | .memRead _ ups, s => s.arise ups
  | _, s => s

/-- The command answers a next state wherever its packet passes its checks, and is no CAL_SWEEP or CAL_ABORT that
waits for a CAL_COMMIT (R267): the given function of its own packet and of the state after step 6. -/
def Runs (c : Instr) (op : Nat) (d : OpDef) (p : Pkt) (s : State) (f : Pkt → State → State) : Prop :=
  passes op d p (servedOn c s) = true → s.stepFour op = false →
    exec c s = .next (f (ownOf op p (servedOn c s)) (authOf op p (servedOn c s)))

/-- The same, on the packets and states of which a condition holds. -/
def RunsWhen (c : Instr) (op : Nat) (d : OpDef) (p : Pkt) (s : State) (when : Pkt → State → Bool)
    (f : Pkt → State → State) : Prop :=
  passes op d p (servedOn c s) = true → s.stepFour op = false → when (ownOf op p (servedOn c s)) (authOf op p (servedOn c s)) = true →
    exec c s = .next (f (ownOf op p (servedOn c s)) (authOf op p (servedOn c s)))

/-- An event of the block's own clocks and pins answers a next state wherever a condition holds of
the state after the time that has passed: the given function of that state. -/
def After (c : Instr) (dt : Nat) (s : State) (when : State → Bool) (f : State → State) : Prop :=
  when (s.elapse dt) = true → exec c s = .next (f (s.elapse dt))

/-- The same of a state `u` that the command itself comes to first: with what the lanes' streams have carried
meanwhile, or with the errors that its row says have arisen. -/
def Answers (c : Instr) (s u : State) (when : State → Bool) (f : State → State) : Prop :=
  when u = true → exec c s = .next (f u)

/-! ### Commands that carry an opcode -/

/-- The opcode, the definition and the packet of a command whose row names an opcode. LUT_WRITE,
NODE_SET and SCHEDULE, which are not always served so at once, and the rows that name no opcode
have none. -/
def servedAs : Instr → Option (Nat × OpDef × Pkt)
  | .ping p => some (0x0001, pingDef, p)
  | .identify p => some (0x0002, identifyDef, p)
  | .sequencerRestart p => some (0x0003, resetDef, p.fix 16 0)
  | .pipelineSoftReset p => some (0x0003, resetDef, p.fix 16 1)
  | .fullReset p => some (0x0003, resetDef, p.fix 16 2)
  | .paramGet p => some (0x0004, paramGetDef, p)
  | .paramSet p => some (0x0005, paramSetDef, p)
  | .statusGet p => some (0x0006, statusGetDef, p)
  | .eventAck p => some (0x0007, eventAckDef, p)
  | .ringConfig p => some (0x0008, ringConfigDef, p)
  | .setTime p => some (0x0009, setTimeDef, p)
  | .timeStatus p => some (0x000A, timeStatusDef, p)
  | .objUpdate p => some (0x0101, objUpdateDef, p)
  | .objRelease p => some (0x0102, objReleaseDef, p)
  | .objClearAll p => some (0x0103, objClearAllDef, p)
  | .forceLevel p => some (0x0104, forceLevelDef, p)
  | .fallbackEnter p => some (0x0105, fallbackEnterDef, p)
  | .fallbackExit p => some (0x0106, fallbackExitDef, p)
  | .bendSet p => some (0x0107, bendSetDef, p)
  | .frameCommit p => some (0x0201, frameCommitDef, p)
  | .scanSelect p => some (0x0202, scanSelectDef, p)
  | .timingStatus p => some (0x0203, timingStatusDef, p)
  | .freezeStatus p => some (0x0204, freezeStatusDef, p)
  | .videoConfig p => some (0x0205, videoConfigDef, p)
  | .sceneWrite p => some (0x0301, sceneWriteDef, p)
  | .sceneStore p => some (0x0302, sceneStoreDef, p)
  | .sceneMix p => some (0x0303, sceneMixDef, p)
  | .symbolWrite p => some (0x0304, symbolWriteDef, p)
  | .ovlSet p => some (0x0305, ovlSetDef, p)
  | .ovlClear p => some (0x0306, ovlClearDef, p)
  | .windowSet p => some (0x0308, windowSetDef, p)
  | .tileRefSet p => some (0x0401, tileRefSetDef, p)
  | .driveStatus p => some (0x0402, driveStatusDef, p)
  | .budgetSet p => some (0x0403, budgetSetDef, p)
  | .saddleStatus p => some (0x0404, saddleStatusDef, p)
  | .strConfig p => some (0x0501, strConfigDef, p)
  | .strLevel p => some (0x0502, strLevelDef, p)
  | .strStatus p => some (0x0503, strStatusDef, p)
  | .crestLoad p => some (0x0504, crestLoadDef, p)
  | .crestStop p => some (0x0505, crestControlDef, p.fix 17 0)
  | .crestStart p => some (0x0505, crestControlDef, p.fix 17 1)
  | .crestResume p => some (0x0505, crestControlDef, p.fix 17 2)
  | .crestStopAndSet p => some (0x0505, crestControlDef, p.fix 17 3)
  | .diagStatus p => some (0x0601, diagStatusDef, p)
  | .diagMapRead p => some (0x0602, diagMapReadDef, p)
  | .pixelMask p => some (0x0603, pixelMaskDef, p)
  | .faultClear p => some (0x0604, faultClearDef, p)
  | .faultConfig p => some (0x0605, faultConfigDef, p)
  | .calSweep p => some (0x0701, calSweepDef, p)
  | .calCommit p => some (0x0702, calCommitDef, p)
  | .calStatus p => some (0x0703, calStatusDef, p)
  | .calAbort p => some (0x0704, calAbortDef, p)
  | .fluxWrite p => some (0x0705, fluxWriteDef, p)
  | .memRead p _ => some (0x0801, memReadDef, p)
  | .memWrite p => some (0x0802, memWriteDef, p)
  | .cvuConfig p => some (0x0803, cvuConfigDef, p)
  | .cvuRun p => some (0x0804, cvuRunDef, p)
  | .errlogRead p => some (0x0805, errlogReadDef, p)
  | .scrubStatus p => some (0x0806, scrubStatusDef, p)
  | .bistConfig p => some (0x0901, bistConfigDef, p)
  | .bistRun p => some (0x0902, bistRunDef, p)
  | .bistResult p => some (0x0903, bistResultDef, p)
  | .spurAssign p => some (0x0904, spurAssignDef, p)
  | .thermStatus p => some (0x0A01, thermStatusDef, p)
  | .thermConfig p => some (0x0A02, thermConfigDef, p)
  | .pwrState p => some (0x0B01, pwrStateDef, p)
  | .pwrStatus p => some (0x0B02, pwrStatusDef, p)
  | .jrnlRead p => some (0x0C01, jrnlReadDef, p)
  | .jrnlMark p => some (0x0C02, jrnlMarkDef, p)
  | .stateDigest p => some (0x0C03, stateDigestDef, p)
  | .fwStageBegin p => some (0x0C04, fwStageDef, p.fix 16 0)
  | .fwStageData p => some (0x0C04, fwStageDef, p.fix 16 1)
  | .fwStageFinish p => some (0x0C04, fwStageDef, p.fix 16 2)
  | .fwStageQuery p => some (0x0C04, fwStageDef, p.fix 16 3)
  | .fwActivate p => some (0x0C05, fwActivateDef, p.fixBit 16 false)
  | .fwConfirm p => some (0x0C05, fwActivateDef, p.fixBit 16 true)
  | .authOpen p => some (0x0C06, authOpenDef, p.fix 17 0)
  | .authLoadKey p => some (0x0C06, authOpenDef, p.fix 17 1)
  | .authClose p => some (0x0C07, authCloseDef, p)
  | .linkStatus p => some (0x0D01, linkStatusDef, p)
  | .linkRetrain p => some (0x0D02, linkRetrainDef, p)
  | .laneMode p => some (0x0D03, laneModeDef, p)
  | .eyeRead p => some (0x0D04, eyeReadDef, p)
  | .groupSet p => some (0x0E02, groupSetDef, p)
  | .cancel p => some (0x0E03, timedExecDef, p.fix 16 1)
  | .list p => some (0x0E03, timedExecDef, p.fix 16 2)
  | .groupStatus p => some (0x0E04, groupStatusDef, p)
  | .blockReceived _ _ _ | .c0Overload _ | .contextWrite _ | .sequencerTake _ _
  | .multiStepResume _ _ | .recordSend _ _ | .pktWrite _ _ | .ringRead _ _ _ | .statusPoll _
  | .lutWrite _ | .cvuDone _ _ _ | .fwSelfCheckTimeout _ | .nodeSet _ | .schedule _
  | .timedRelease _ | .startToken _ _ _ | .passComplete _ _ _ | .loadDeadline _ _ _
  | .slotStart _ _ | .notchRowAccess _ _ _ | .notchEnd _ _ | .planInstant _ _ | .commitCutoff _
  | .latchInstant _ | .timeoutScanRound _ | .hardTrip _ _ | .hostStale _ | .fallbackCheck _
  | .limpCodesReady _ _ _ _ | .syncInEdge _ | .syncEdgeMissed _ | .ptbLock _ _ | .frameReady _
  | .detectPoll _ _ _ | .backoffExpiry _ _ | .rxReady _ _ _ | .trainTimeout _ _
  | .lockTimeout _ _ | .capsTimeout _ _ | .lossOfSignal _ _ | .terminationLost _ _
  | .adaptWindowEnd _ _ _ | .eyeScanDone _ _ _ | .l2Resume _ _ | .returnIdleTimeout _ _
  | .returnResume _ _ | .retReadyTimeout _ _ | .stringPeriodStart _ _ | .openDetected _ _ _
  | .crestTick _ | .ntcUpdate _ _ _ | .thermalUpdate _ _ _ | .thermalResume _ | .thermalRelax _
  | .factoryCorrection _ | .talusRead _ _ _ | .repaired _ _ | .mramLineWrite _ _
  | .journalLineWrite _ _ | .coalesceWindowClose _ _ _ | .bistSliceStart _ | .sliceEnd _ _
  | .bankMigrated _ | .supplyTrip _ _ | .vaonPowerOn _ | .resetnAssert _ | .resetnRelease _
  | .powerupStageReady _ | .powerupStageTimeout _ _ | .referenceLoss _ | .clockRestored _ _
  | .wakeLand _ | .laneWake _ _ | .sleepTimerWake _ | .quiesceTimeout _ _ | .sleepEntry _
  | .stressStore _ | .watchdogExpiry _ | .lockstepMismatch _ | .instructionFetchFault _ _
  | .restartHoldExpiry _ | .recoveryPass _ | .jtagInstructionUpdate _ _ | .testLogicReset _
  | .supplyMonitorRecovery _ | .setTimeEdgeTimeout _ | .lutBankCopyDone _ | .pipelineReinitDone _
  | .fwSelfCheckPassed _ | .stepTrimsDone _ _ _ | .trainTapMismatch _ _ | .tExitMeasured _ _
  | .tickPeriodMeasured _ _ => none

end Sys2Proof.Machine
end

