-- ==== Sys2Proof/Certificates/Slice0/Obligations.lean ====
section
/-! DEFINITION. The statements for the provers: what the block does, command by command, and what
holds of it whole. A statement whose hypotheses need a state or an operand has its witness in
Sys2Proof/Tests/Slice0.lean. -/

open Sys2Proof Sys2Proof.Machine

/-! ### The block as a whole, its state and its frames -/

/-- A step takes the command at the front of the queue and runs it on the state with the queue's rest.
-/
def Obligations.StepRunsFront : Prop :=
  ∀ (c : Instr) (rest : List Instr) (s : State),
    step { s with pending := c :: rest } = exec c { s with pending := rest }

/-- Nothing stops the block: on an empty queue it idles (logs 9 and 13), a word spells no command (no row of
the table has bits), and every command answers a next state, whatever the state. -/
def Obligations.NothingStopsTheBlock : Prop :=
  (∀ s : State, s.pending = [] → step s = .next s)
  ∧ (∀ (s : State) (n w : Nat), decodeTableWord n w = none ∧ s.withFetchWord n w = s)
  ∧ (∀ (c : Instr) (s : State), ∃ t, exec c s = .next t)
  ∧ (∀ s : State, ∃ t, step s = .next t)

/-- At the release of a VAON power-on reset: the rings of R48, no record and no packet in them, the
system parameters of R61, ESEQ 0 (R56), every cell at CODE 0, MASK 1 and TRIM 32 (R63), the notch
index 0 (R75), every object context and the FORCE_LEVEL state clear (R123), the BEND shift 0 (R95),
Saddle at the home plan with K 4,096 (R156), both lanes in DETECT with backoff 0 (R170, R173), SAFE
4 (R47), the time UNSET (R335), no session, no timed entry. -/
def Obligations.ResetValues : Prop :=
  let s := State.reset
  (∀ r, r < 64 → s.ring r =
      if r < 8 then { cls := 0, advance := true, depth := 32 }
      else if r < 16 then { cls := 1, advance := true, depth := 128 }
      else if r < 32 then { cls := 2, advance := false, depth := 64 }
      else if r < 48 then { cls := 3, advance := false, depth := 128 }
      else { cls := 0, advance := false, depth := 240 })
  ∧ (∀ r, s.outRing r = []) ∧ s.cmd.waiting = [] ∧ s.cmd.eseq = 0 ∧ s.cmd.unack = []
  ∧ s.prmRead pDeviceId = 0x1048 ∧ s.live pAlertMask = 0xF000 ∧ s.live pEventPorts = 3
  ∧ (∀ id, pCrcDropsLink ≤ id → id ≤ pRepliesLost → s.live id = 0)
  ∧ (∀ g n, n < 4096 → ((s.rg g).list).getD n {} = { code := 0, mask := true })
  ∧ (∀ g, (s.rg g).pending = none) ∧ (∀ x y, s.trim x y = 32) ∧ s.pix.notch = 0
  ∧ (∀ n, (s.ctx n).active = false) ∧ s.shd.force.tiles = 0
  ∧ s.comp.shiftX = 0 ∧ s.comp.shiftY = 0
  ∧ s.sad.k = 4096 ∧ s.sad.homePlan = true ∧ s.sad.profiles = []
  ∧ (∀ l, (s.lane l).stage = .detect ∧ (s.lane l).backoff = 0)
  ∧ s.diag.safe = 4 ∧ s.faultn = true ∧ s.pwr.time = .unset
  ∧ s.fw.sessions = [] ∧ s.grp.queue = [] ∧ s.pending = []

/-- The engine after reset meets the invariant. -/
def Obligations.ResetInv : Prop := Inv State.reset

/-- Every step keeps the invariant. Model's choices in it: log 1. -/
def Obligations.InvKept : Prop := ∀ s t : State, Inv s → step s = .next t → Inv t

/-- A packet without TIMED that fails a check of steps 5 to 9 of R42, and whose reply has room, is not
executed: the command answers the rejection, with a status that is neither OK nor ACCEPTED, and
beside the reply, its counters and the session's count nothing changes, the journal included. An
opcode that its class does not permit is rejected before the session sees the packet. -/
def Obligations.RefusedPacketIsNotExecuted : Prop :=
  ∀ (c : Instr) (op : Nat) (d : OpDef) (p : Pkt) (s : State), servedAs c = some (op, d, p) →
    let v := servedOn c s
    p.timed = false → s.stepFour op = false → (p.cls = 0 ∨ v.canStart d p = true) → passes op d p v = false →
    ∃ (st : Nat) (r : List Word), st ≠ stOk ∧ st ≠ stAccepted
      ∧ (let u := if opPermitted op p.cls then authOf op p v else v
         exec c s = .next (u.reject op p st r false)
         ∧ sameBut [.rings, .params, .firmware] v (u.reject op p st r false))

/-- A packet of classes 1 to 3 whose reply slots cannot be reserved is not started (R52), and a CAL_SWEEP or
a CAL_ABORT not while a CAL_COMMIT is in its step 4 (R267): it waits at the head of its ring, the first
of the packets that wait, and nothing else changes. -/
def Obligations.NoReplyRoomWaits : Prop :=
  ∀ (c : Instr) (op : Nat) (d : OpDef) (p : Pkt) (s : State), servedAs c = some (op, d, p) →
    let v := servedOn c s
    p.cls ≠ 0 → opPermitted op p.cls = true → (v.canStart d p = false ∨ s.stepFour op = true) →
    ∃ t, exec c s = .next t ∧ sameBut [.rings] v t
      ∧ t.cmd = { v.cmd with
          heads := t.cmd.heads
          waiting := { opcode := op, pkt := p, gap := false, arrived := v.cmd.arrivals } :: v.cmd.waiting
          arrivals := v.cmd.arrivals + 1 }
      ∧ ∀ r, r ≠ p.ring → t.headSlot r = v.headSlot r

/-- A packet with TIMED that passes its checks is placed at the end of the timed queue, with its TIME,
its opcode, its own parameters, ID 0 and STRICT clear, unreleased; its effect does not happen
(R368). Beside its entry, durable or not, and its reply nothing changes. -/
def Obligations.TimedPacketIsQueued : Prop :=
  ∀ (c : Instr) (op : Nat) (d : OpDef) (p : Pkt) (s : State), servedAs c = some (op, d, p) →
    let v := servedOn c s
    passesTimed op d p v = true → s.stepFour op = false →
    ∃ (t : State) (e : Timed), exec c s = .next t ∧ t.grp.queue = s.grp.queue ++ [e]
      ∧ e.id = 0 ∧ e.strict = false ∧ e.released = false ∧ e.opcode = op
      ∧ e.time = BitVec.ofNat 64 (timedOf (ownOf op p v).params)
      ∧ e.pkt.params = (ownOf op p v).params.drop 8
      ∧ e.jseq = (authOf op p v).jNext
      ∧ t.grp.node = s.grp.node ∧ t.grp.groups = s.grp.groups
      ∧ sameBut (.firmware :: .groups :: durParts) v t
      ∧ (p.durable = false → sameBut [.rings, .params, .firmware, .journal, .groups] v t)

/-- A command that reads leaves everything but its reply as it was: no register of the engine, no
context, no byte of memory changes. Those that clear what they have read, count what they meet, or
cut a self-test short, name the part. A command that reads lines of memory in which errors stand finds them,
and may put such a line back from its source (R273); where none stands and no self-test slice runs it
changes no byte, and no more than the error figures of a line that is poisoned. -/
def Obligations.ReadCommandsFrame : Prop :=
  ∀ (p : Pkt) (ups : Upsets) (s : State), p.timed = false →
    (∀ c ∈ ([.ping p, .identify p, .paramGet p, .statusGet p, .timeStatus p, .timingStatus p,
        .freezeStatus p, .strStatus p, .calStatus p, .scrubStatus p, .thermStatus p, .linkStatus p,
        .eyeRead p, .groupStatus p, .list p] : List Instr), Touches [.rings, .params, .firmware] c s)
    ∧ Touches [.rings, .params, .firmware, .free] (.bistResult p) s
    ∧ Touches [.rings, .params, .firmware, .pixels] (.driveStatus p) s
    ∧ Touches [.rings, .params, .firmware, .pixels] (.diagStatus p) s
    ∧ Touches [.rings, .params, .firmware, .saddle] (.saddleStatus p) s
    ∧ Touches [.rings, .params, .firmware, .power] (.pwrStatus p) s
    ∧ Touches [.rings, .params, .firmware, .memory] (.errlogRead p) s
    ∧ Touches (.firmware :: durParts) (.jrnlRead p) s
    ∧ (∀ c ∈ ([.diagMapRead p, .stateDigest p] : List Instr), Touches (.firmware :: sourceParts) c s)
    ∧ Touches (.firmware :: .bytes :: durParts) (.memRead p ups) s
    ∧ (s.calm = true → Touches [.rings, .params, .firmware, .memory, .diag, .free] (.jrnlRead p) s
      ∧ ∀ c ∈ ([.diagMapRead p, .stateDigest p, .memRead p []] : List Instr),
        Touches [.rings, .params, .firmware, .memory, .diag] c s)

/-- The object commands change the object contexts that their packet names, the FORCE_LEVEL command the
FORCE_LEVEL state, BEND_SET the target shift, and beside them only the reply and the class-0 record.
A released context keeps its other fields (R123). -/
def Obligations.ShadowCommandsFrame : Prop :=
  ∀ (p : Pkt) (s : State), p.timed = false →
    (∃ t, exec (.objUpdate p) s = .next t
      ∧ sameBut [.rings, .params, .firmware, .journal, .shadow] s t ∧ t.shd.force = s.shd.force
      ∧ ∀ n, n ∉ entryIds (ownOf 0x0101 p s) → t.ctx n = s.ctx n)
    ∧ (∃ t, exec (.objRelease p) s = .next t
      ∧ sameBut [.rings, .params, .firmware, .journal, .shadow] s t ∧ t.shd.force = s.shd.force
      ∧ (∀ n, n ∉ maskIds (ownOf 0x0102 p s) → t.ctx n = s.ctx n)
      ∧ ∀ n, t.ctx n = s.ctx n ∨ t.ctx n = { s.ctx n with active := false })
    ∧ (∃ t, exec (.objClearAll p) s = .next t
      ∧ sameBut [.rings, .params, .firmware, .journal, .shadow] s t
      ∧ (bitOf ((ownOf 0x0103 p s).u32 16) 0 = false → t.shd.force = s.shd.force)
      ∧ ∀ n, t.ctx n = s.ctx n ∨ t.ctx n = { s.ctx n with active := false })
    ∧ (∃ t, exec (.forceLevel p) s = .next t
      ∧ sameBut [.rings, .params, .firmware, .journal, .shadow] s t ∧ t.shd.ctx = s.shd.ctx)
    ∧ (∃ t, exec (.bendSet p) s = .next t
      ∧ sameBut [.rings, .params, .firmware, .journal, .compose] s t
      ∧ { t.comp with bendX := 0, bendY := 0 } = { s.comp with bendX := 0, bendY := 0 })

/-- Each of these commands changes only the registers of its own unit, beside its reply, its journal
entry and its parameters; a command that writes shadow values while COMMIT is set, or sets it, also
starts a new provisional set (R193). A durable entry, beside its own line, may meet an error in that line and cut
a self-test slice on its sector short; where no error stands and no slice runs it does neither. -/
def Obligations.RegisterCommandsFrame : Prop :=
  ∀ (p : Pkt) (s : State), p.timed = false →
    (∀ c ∈ ([.eventAck p, .ringConfig p, .bistConfig p, .jrnlMark p, .windowSet p, .sceneMix p, .strLevel p,
        .crestLoad p, .crestStop p, .crestStart p, .crestResume p, .crestStopAndSet p, .ovlSet p, .ovlClear p,
        .nodeSet p, .groupSet p, .authOpen p, .authLoadKey p, .authClose p, .cvuConfig p] : List Instr),
      Touches (.firmware :: .frames :: .strings :: .compose :: .groups :: durParts) c s)
    ∧ (p.durable = false ∨ s.calm = true →
      (∀ c ∈ ([.eventAck p, .ringConfig p, .bistConfig p, .jrnlMark p] : List Instr),
        Touches [.rings, .params, .firmware, .journal, .memory] c s)
      ∧ (∀ c ∈ ([.windowSet p, .sceneMix p] : List Instr),
        Touches [.rings, .params, .firmware, .journal, .memory, .frames] c s)
      ∧ (∀ c ∈ ([.strLevel p, .crestLoad p, .crestStop p, .crestStart p, .crestResume p,
          .crestStopAndSet p] : List Instr),
        Touches [.rings, .params, .firmware, .journal, .memory, .strings] c s)
      ∧ (∀ c ∈ ([.ovlSet p, .ovlClear p] : List Instr),
        Touches [.rings, .params, .firmware, .journal, .memory, .frames, .compose] c s)
      ∧ (∀ c ∈ ([.authOpen p, .authClose p] : List Instr),
        Touches [.rings, .params, .firmware, .journal, .memory, .free] c s))
    ∧ (s.calm = true →
      (∀ c ∈ ([.nodeSet p, .groupSet p] : List Instr),
        Touches [.rings, .params, .firmware, .journal, .memory, .groups, .stored] c s)
      ∧ Touches [.rings, .params, .firmware, .journal, .memory, .stored] (.authLoadKey p) s
      ∧ Touches [.rings, .params, .firmware, .journal, .memory] (.cvuConfig p) s)

/-- A command that stores to memory leaves every byte outside the span that its packet gives as it was,
and MRAM whole, however it ends; the registers of the other units too. A line that the span takes in only
in part is read first, and may be put back whole from its source where an error stands in it (R273, R277): then the
bytes outside the span's lines are as they were. -/
def Obligations.MemoryWritesFrame : Prop :=
  ∀ (p : Pkt) (s : State), p.timed = false →
    (∃ t, exec (.memWrite p) s = .next t
      ∧ sameBut (.firmware :: .bytes :: durParts) s t ∧ t.mem.mram = s.mem.mram
      ∧ let q := ownOf 0x0802 p s
        (∀ a, (lineOf a + 64 ≤ q.u32 16 ∨ q.u32 16 + writeLen q ≤ lineOf a) → t.sram a = s.sram a)
        ∧ (s.calm = true → sameBut [.rings, .params, .firmware, .journal, .memory, .diag, .bytes] s t
          ∧ ∀ a, (a < q.u32 16 ∨ q.u32 16 + writeLen q ≤ a) → t.sram a = s.sram a))
    ∧ (∃ t, exec (.sceneWrite p) s = .next t
      ∧ sameBut (.firmware :: .bytes :: durParts) s t ∧ t.mem.mram = s.mem.mram
      ∧ let q := ownOf 0x0301 p s
        let b := 0x800000 + 65536 * q.u8 16 + q.u32 20
        (∀ a, (a < b ∨ b + 64 * q.u16 18 ≤ a) → t.sram a = s.sram a)
        ∧ (s.calm = true → sameBut [.rings, .params, .firmware, .journal, .memory, .bytes] s t))
    ∧ (∃ t, exec (.symbolWrite p) s = .next t
      ∧ sameBut (.firmware :: .bytes :: durParts) s t ∧ t.mem.mram = s.mem.mram
      ∧ let q := ownOf 0x0304 p s
        let b := 0x400000 + q.u32 16
        (∀ a, (a < b ∨ b + q.u16 20 ≤ a) → t.sram a = s.sram a)
        ∧ (s.calm = true → sameBut [.rings, .params, .firmware, .journal, .memory, .diag, .bytes] s t))
    ∧ (∃ t, exec (.fluxWrite p) s = .next t
      ∧ sameBut (.firmware :: .bytes :: durParts) s t ∧ t.mem.mram = s.mem.mram
      ∧ let q := ownOf 0x0705 p s
        (∀ a, (∀ r, r < q.u16 22 → lineOf a + 64 ≤ fluxRow q r ∨ fluxRow q r + q.u16 20 ≤ lineOf a) →
          t.sram a = s.sram a)
        ∧ (s.calm = true → sameBut [.rings, .params, .firmware, .journal, .memory, .diag, .bytes] s t
          ∧ ∀ a, (∀ r, r < q.u16 22 → a < fluxRow q r ∨ fluxRow q r + q.u16 20 ≤ a) → t.sram a = s.sram a))

/-- The engine checks every MEM_READ and MEM_WRITE against the map of R33: an access that no one range
holds whole is rejected with BAD_PARAM, one marked LOCKED with LOCKED, and a rejected access changes
no byte and answers none. -/
def Obligations.MemoryChecksByMap : Prop :=
  (∀ (p : Pkt) (ups : Upsets) (s : State), let v := s.arise ups
    reaches 0x0801 memReadDef p v = true →
    let q := ownOf 0x0801 p v
    let u := authOf 0x0801 p v
    (memRange (q.u32 16) (q.u16 20) = none →
      exec (.memRead p ups) s = .next (u.reject 0x0801 p stBadParam [] false))
    ∧ (∀ r, memRange (q.u32 16) (q.u16 20) = some r → r.2.2.1 = false → memFields q = true →
        p.replyBits = 0 → (usesCvu q = true → u.cvuGate (cvuOf q) = none) →
      exec (.memRead p ups) s = .next (u.reject 0x0801 p stLocked [] false)))
  ∧ (∀ (p : Pkt) (s : State), reaches 0x0802 memWriteDef p s = true →
    let q := ownOf 0x0802 p s
    let u := authOf 0x0802 p s
    (memRange (q.u32 16) (writeLen q) = none →
      exec (.memWrite p) s = .next (u.reject 0x0802 p stBadParam [] false))
    ∧ (∀ r, memRange (q.u32 16) (writeLen q) = some r → r.2.2.2 = false → memFields q = true →
        (usesCvu q = true → 8 ≤ q.u16 20) → p.replyBits = 0 →
        (usesCvu q = true → u.cvuGate (cvuOf q) = none) →
      exec (.memWrite p) s = .next (u.reject 0x0802 p stLocked [] false)))
  ∧ (∀ (op : Nat) (p : Pkt) (s : State) (st a : Nat) (ups : Upsets),
    ((authOf op p (s.arise ups)).reject op p st [] false).byte a = s.byte a)

/-- A byte reads as it was last written, and a write changes no other byte; two memories in canonical
form in which every byte reads alike are the same data (log 1). -/
def Obligations.MemoryIsItsBytes : Prop :=
  (∀ (s : State) (a b : Nat) (l : List Byte),
    (s.writeSram a l).sram b = if a ≤ b ∧ b < a + l.length then byteAt l (b - a) else s.sram b)
  ∧ (∀ (s : State) (a b : Nat) (l : List Byte),
    (s.writeMram a l).mram b = if a ≤ b ∧ b < a + l.length then byteAt l (b - a) else s.mram b)
  ∧ (∀ (s : State) (a : Nat) (l : List Byte), Memory.wf s.mem = true →
    Memory.wf (s.writeSram a l).mem = true ∧ Memory.wf (s.writeMram a l).mem = true)
  ∧ (∀ (d : Nat → Byte) (t u : Tab Byte), twf d t = true → twf d u = true →
    (∀ k, tget d t k = tget d u k) → t = u)

/-- The engine replies when ACKREQ is set, when the status is neither OK nor ACCEPTED, and to a
duplicate; otherwise it does not. With ACKREQ clear a completion event is posted only if the final
status is not OK. The same holds of unicast, broadcast and group packets. -/
def Obligations.RepliesSentWhen : Prop :=
  (∀ (s : State) (op : Nat) (p : Pkt) (st step steps : Nat) (j : Word) (r : List Word) (gap : Bool),
    ((p.ackreq = true ∨ (st ≠ stOk ∧ st ≠ stAccepted)) →
      s.reply op p st step steps j r gap false
        = s.postReply p (replyBytes s op p st step steps j r gap false))
    ∧ (p.ackreq = false → st = stOk ∨ st = stAccepted → ∀ keep, s.reply op p st step steps j r gap keep = s))
  ∧ (∀ (s : State) (op : Nat) (p : Pkt) (e : Word), ∃ b, s.duplicate op p e = s.postReply p b)
  ∧ (∀ (s : State) (op : Nat) (p : Pkt) (st : Nat),
    ((p.ackreq = true ∨ st ≠ stOk) → s.cmdDone op p st
      = s.evt 0x0001 (if st = stOk then 0 else 1) p.ring op st p.seq.toNat p.tag.toNat)
    ∧ (p.ackreq = false → st = stOk → s.cmdDone op p st = s))

/-- A unicast packet is in order, a gap or a duplicate by its distance from the expected SEQ of its port
and ring; while none is expected it is in order; broadcast and group packets are exempt. Each
accepted unicast packet sets the expected SEQ to its own plus 1. A gap is rejected on a STRICT ring
and taken, with the GAP flag, on an ADVANCE ring. A full reset and a RING_CONFIG of the ring leave
no expected SEQ. -/
def Obligations.SequenceNumbersJudged : Prop :=
  ∀ (s : State) (op : Nat) (p : Pkt),
    (p.unicast = false → s.sequence op p = s.takeIn op p false)
    ∧ (p.unicast = true → s.expected p = none → s.sequence op p = (s.expectNext p).takeIn op p false)
    ∧ (∀ e, p.unicast = true → s.expected p = some e → p.seq = e →
        s.sequence op p = (s.expectNext p).takeIn op p false)
    ∧ (∀ e, p.unicast = true → s.expected p = some e → 1 ≤ (p.seq - e).toNat → (p.seq - e).toNat < 2 ^ 31 →
        (s.ring p.ring).advance = true → s.sequence op p = (s.expectNext p).takeIn op p true)
    ∧ (∀ e, p.unicast = true → s.expected p = some e → 1 ≤ (p.seq - e).toNat → (p.seq - e).toNat < 2 ^ 31 →
        (s.ring p.ring).advance = false →
        s.sequence op p = s.postReply p (replyBytes s op p stSeqGap 0 1 0xFFFFFFFF [e] false false)
        ∧ (s.sequence op p).expected p = some e)
    ∧ (∀ e, p.unicast = true → s.expected p = some e → 2 ^ 31 ≤ (p.seq - e).toNat →
        s.sequence op p = s.duplicate op p e)
    ∧ (∀ gap, ((s.expectNext p).takeIn op p gap).expected p = some (p.seq + 1)
        ∧ (s.takeIn op p gap).expected p = s.expected p)
    ∧ (∀ (boot : Boot) (cause wake : Nat), (s.fullReset boot cause wake).expected p = none)
    ∧ (∀ (q : Pkt) (j : Word), q.u16 16 ≠ 0 → p.ring < 48 → p.ring ∈ (ringEntries q).map (·.1) →
        (ringConfigDef.run j q s).s.expected p = none)

/-- NODE selects the engines that accept a packet: that of the address, all, the members of the group,
or none; a packet with GROUP and BCAST, or with a group and NODE[13:6] non-zero, is dropped and
counted; any other packet that this engine does not accept changes nothing. A NODE_SET is accepted
by its serial as well. Model's choices in it: log 36. -/
def Obligations.AddressingJudged : Prop :=
  ∀ (s : State) (port : Port) (l : List Byte), arrivalSound l = true →
    let op := opcodeOf l
    let p := packetOf port l
    let taken := if s.pwr.linkOff then s.bump pPwrDrops 1 else s.arrive op p
    let serial := op ≠ 0x0E01 ∨ serialMeant (nodeSerial p (if p.timed then 24 else 16)) = true
    (p.group = false → p.bcast = false → s.packetIn port l =
      if p.node.toNat % 16384 = s.grp.node.toNat ∧ serial then taken else s)
    ∧ (p.group = false → p.bcast = true → s.packetIn port l = if serial then taken else s)
    ∧ (p.group = true → p.bcast = false → bits p.node.toNat 13 6 = 0 → s.packetIn port l =
      if bitOf s.grp.groups.toNat (bits p.node.toNat 5 0) = true ∧ serial then taken else s)
    ∧ (p.group = true → p.bcast = false → bits p.node.toNat 13 6 ≠ 0 →
      s.packetIn port l = s.bump pAddrDrops 1)
    ∧ (p.group = true → p.bcast = true → s.packetIn port l = s.bump pAddrDrops 1)

/-- ALERTn is asserted while an output ring enabled in ALERT_MASK holds a record or a severity-3 event
is unacknowledged, whatever FAULTn's own registers hold. A severity-3 event stays unacknowledged
until an EVENT_ACK covers its ESEQ: reading its record does not acknowledge it. -/
def Obligations.AlertnAsserted : Prop :=
  (∀ s : State, s.alertn = true ↔
    ((∃ n, n < 16 ∧ bitOf (s.live pAlertMask) n = true ∧ s.outRing (48 + n) ≠ []) ∨ s.cmd.unack ≠ []))
  ∧ (∀ (s : State) (code sev src a0 a1 a2 a3 : Nat), (s.evt code sev src a0 a1 a2 a3).cmd.unack
      = if sev = 3 then s.cmd.unack ++ [s.cmd.eseq] else s.cmd.unack)
  ∧ (∀ (s : State) (r : Nat), (s.popOut r).cmd.unack = s.cmd.unack)
  ∧ (∀ (s : State) (q : Pkt) (j e : Word), e ∈ (eventAckDef.run j q s).s.cmd.unack ↔
      (e ∈ s.cmd.unack ∧ 2 ^ 31 ≤ (w32 (q.u32 16) - e).toNat))
  ∧ (∀ (s : State) (diag : Diag), { s with diag := diag }.alertn = s.alertn)

/-- An event takes the next ESEQ and is posted, the same 32 bytes with a right trailer, to the ring of
its severity on every port enabled in EVENT_PORTS and on no other; a copy whose ring is full is
discarded and counted; nothing else changes. -/
def Obligations.EventsRaised : Prop :=
  ∀ (s : State) (code sev src a0 a1 a2 a3 : Nat), sev < 4 →
    let t := s.evt code sev src a0 a1 a2 a3
    let b := eventBytes s code sev src a0 a1 a2 a3
    b.length = 32 ∧ ofLe (b.drop 28) = crc32 (b.take 28)
    ∧ t.cmd.eseq = s.cmd.eseq + 1
    ∧ (∀ k, k < 2 → s.flag pEventPorts k = true → 1 ≤ s.outFree (56 + 4 * k + sev) →
        t.outRing (56 + 4 * k + sev) = s.outRing (56 + 4 * k + sev) ++ [{ bytes := b, src := src }])
    ∧ (∀ k, k < 2 → s.flag pEventPorts k = true → s.outFree (56 + 4 * k + sev) = 0 →
        t.outRing (56 + 4 * k + sev) = s.outRing (56 + 4 * k + sev)
        ∧ (s.live pEventsLost < t.live pEventsLost ∨ s.live pEventsLost = 2 ^ 32 - 1))
    ∧ (∀ r, (∀ k, k < 2 → s.flag pEventPorts k = true → r ≠ 56 + 4 * k + sev) → t.outRing r = s.outRing r)
    ∧ (∀ id, id ≠ pEventsLost → t.live id = s.live id)
    ∧ sameBut [.rings, .params] s t

/-- A new journal entry takes the JSEQ after the newest, 0xFFFFFFFF skipped, and 0 when there is none
(R344, R350); it is the newest of the cache, with its times, and the older entries stand behind it
as they were, 2,048 in all (R349); nothing but the journal changes. -/
def Obligations.JournalSequence : Prop :=
  ∀ (s : State) (e : JEntry) (durable : Bool),
    let x := s.jAdd e durable
    (s.jrn.newest = none → x.2 = 0)
    ∧ (∀ n, s.jrn.newest = some n → n ≠ 0xFFFFFFFE → x.2 = n + 1)
    ∧ (s.jrn.newest = some 0xFFFFFFFE → x.2 = 0)
    ∧ (s.jrn.newest ≠ some 0xFFFFFFFF → x.2 ≠ 0xFFFFFFFF)
    ∧ x.1.jrn.newest = some x.2
    ∧ x.1.jrn.cache = { e with
        jseq := x.2
        time := BitVec.ofNat 48 s.us
        tAccept := BitVec.ofNat 48 s.us
        frame := s.frm.frame } :: s.jrn.cache.take 2047
    ∧ (∃ l ∈ x.1.jrn.lines, l.jseq = x.2)
    ∧ x.1.nvm = s.nvm ∧ sameBut [.journal] s x.1

/-- The CRC of R40 run on over more bytes is the CRC of all of them, which is what DIGEST continues
(R347); the bytes 1 to 9 in ASCII give 0xCBF43926; a packet whose bytes end in the CRC of those
before them passes step 1 of R42 where its FLAGS bit 7 is clear and its length is PLEN's. -/
def Obligations.ChecksumContinues : Prop :=
  (∀ (a b : List Byte), crc32From (crc32 a) b = crc32 (a ++ b))
  ∧ crc32 nineDigits = 0xCBF43926
  ∧ (∀ l : List Byte, crc32 l < 2 ^ 32)
  ∧ (∀ h b : List Byte, h.length = 16 → ofLe ((h.drop 10).take 2) ≤ 1020 →
      b.length = 4 * ofLe ((h.drop 10).take 2) → bitOf (byteAt h 2).toNat 7 = false →
      arrivalSound (withCrc (h ++ b)) = true)

/-- What a lane's transmitter sends, a receiver with the same scrambler state and the same precoder
setting decodes: the block's bytes come back, with the scrambler left where the transmitter left it, which
moves over the block's 240 bit times at once.
The block has its BSEQ, its type and its SOP in a header of even parity, its payload filled up with
zeros, and a right CRC8. -/
def Obligations.LineCodingRoundTrip : Prop :=
  ∀ (x : LaneSt) (typ : Nat) (sop : Bool) (payload : List Byte), typ < 8 → typ ≠ 5 →
    payload.length ≤ 28 → x.retBseq < 8 →
    let y := sendBlock x typ sop payload
    let u := Burst.blocks 1 typ sop payload x.retBseq x.retLfsr x.preRet
    let b := blockBytes x.retBseq typ sop payload
    let r := unscramble { x with lfsr := x.retLfsr, fresh := false, preFwd := x.preRet } u.levels
    y.sent = x.sent ++ [u] ∧ u.blockList = [b] ∧ r.1 = b ∧ r.2.lfsr = y.retLfsr
    ∧ b.length = 30 ∧ blockType b = typ ∧ blockSop b = sop ∧ blockBseq b = x.retBseq
    ∧ ones (byteAt b 0).toNat % 2 = 0 ∧ blockGood b = true
    ∧ (b.drop 1).take payload.length = payload
    ∧ y.retBseq = (x.retBseq + 1) % 8

/-- Over the N sub-frames of a frame a pixel's dithered codes add up to E, so the frame holds E steps of
lit time; each code is E div N or one more, and none exceeds 1,023 (R76, R77). -/
def Obligations.DitherHoldsIntensity : Prop :=
  ∀ (ctrl n x y i : Nat), (n = 4 ∨ n = 8 ∨ n = 16 ∨ n = 32) → i ≤ 65535 → bitOf ctrl 0 = true →
    let e := (i * 1023 * n + 32767) / 65535
    sumOf ((List.range n).map fun k => ditherCode ctrl n k x y i) = e
    ∧ (∀ k, k < n → (ditherCode ctrl n k x y i = e / n ∨ ditherCode ctrl n k x y i = e / n + 1)
        ∧ ditherCode ctrl n k x y i ≤ 1023)
    ∧ ((List.range n).filter fun k => decide (ditherCode ctrl n k x y i = e / n + 1)).length = e % n

/-- The assertion of RESETn empties the rings and forgets every expected SEQ, ends the sessions and the
timed entries, blanks every cell, and leaves MRAM, its records and the always-on data as they were:
both memories' MRAM bytes, the remapping and the marks of unusable blocks (R63, R287, R302, R352). Records that
inhibited writes have kept out of MRAM are as MRAM holds them (R314).
-/
def Obligations.FullResetLeaves : Prop :=
  ∀ (s : State) (dt : Nat), ∃ t, exec (.resetnAssert dt) s = .next t
    ∧ (∀ r, t.outRing r = []) ∧ t.cmd.waiting = [] ∧ (∀ p, t.expected p = none) ∧ t.cmd.eseq = 0
    ∧ t.fw.sessions = [] ∧ t.grp.queue = [] ∧ t.prm = variantPrm s.nvm.variant
    ∧ (∀ g n, n < 4096 → ((t.rg g).list).getD n {} = { code := 0, mask := true })
    ∧ (∀ g, (t.rg g).pending = none) ∧ (∀ x y, t.trim x y = 32)
    ∧ (∀ n, (t.ctx n).active = false) ∧ t.diag.safe = 4 ∧ t.faultn = true
    ∧ (∀ a, t.mram a = s.mram a) ∧ t.nvm = s.nvm.asStored ∧ (s.nvm.held = none → t.nvm = s.nvm)
    ∧ t.pwr.tickNs = s.pwr.tickNs
    ∧ t.pwr.ppmEntry = s.pwr.ppmEntry
    ∧ t.mem.table = [] ∧ t.mem.repairQ = []
    ∧ (∀ a, a < 0x10000000 → a ∉ t.mem.poison)
    ∧ (∀ a, 0x10000000 ≤ a → a < 0x20000000 → (a ∈ t.mem.poison ↔ a ∈ s.mem.poison))
    ∧ t.pwr.resetLow = true ∧ t.pwr.boot = .held ∧ t.pending = s.pending

/-- The node address and the groups are what is stored once the logic starts after a full reset, else
16,383 and none; NODE_SET and GROUP_SET change them, and what is stored only with STORE. -/
def Obligations.NodeAndGroups : Prop :=
  (∀ s : State, s.logicReady.grp.node = s.nvm.node.getD 16383 ∧ s.logicReady.grp.groups = s.nvm.groups)
  ∧ State.reset.nvm.node = none ∧ State.reset.nvm.groups = 0
  ∧ (∀ (p : Pkt) (s : State), serialMeant (nodeSerial p (if p.timed then 24 else 16)) = true →
    passes 0x0E01 nodeSetDef p s = true → s.confTakes [0] = true →
    ∃ t, exec (.nodeSet p) s = .next t
      ∧ t.grp.node = BitVec.ofNat 14 ((ownOf 0x0E01 p s).u16 24) ∧ t.grp.groups = s.grp.groups
      ∧ t.nvm.groups = s.nvm.groups
      ∧ t.nvm.node = if bitOf ((ownOf 0x0E01 p s).u16 26) 0
        then some (BitVec.ofNat 14 ((ownOf 0x0E01 p s).u16 24)) else s.nvm.node)
  ∧ (∀ (p : Pkt) (s : State), passes 0x0E02 groupSetDef p s = true → s.confTakes [1] = true →
    let q := ownOf 0x0E02 p s
    let g := groupsAfter s.grp.groups (BitVec.ofNat 64 (q.u64 16)) (BitVec.ofNat 64 (q.u64 24))
    ∃ t, exec (.groupSet p) s = .next t ∧ t.grp.groups = g ∧ t.grp.node = s.grp.node
      ∧ t.nvm.node = s.nvm.node
      ∧ (∀ n, n < 64 → bitOf g.toNat n = if bitOf (q.u64 16) n then bitOf (q.u64 24) n
          else bitOf s.grp.groups.toNat n)
      ∧ t.nvm.groups = if bitOf (q.u32 32) 0 then g else s.nvm.groups)

/-- A session ends at AUTH_CLOSE, at a new AUTH_OPEN on its port, which puts the new one in its place,
at any reset, and on entry to STANDBY and DORMANT from ACTIVE or IDLE. -/
def Obligations.SessionsEnd : Prop :=
  (∀ (p : Pkt) (s : State), passes 0x0C07 authCloseDef p s = true →
    ∃ t, exec (.authClose p) s = .next t ∧ t.session p.port = none)
  ∧ (∀ (p : Pkt) (s : State), passes 0x0C06 authOpenDef (p.fix 17 0) s = true →
    ∃ t ks, exec (.authOpen p) s = .next t ∧ t.session p.port = some
      { key := (ownOf 0x0C06 (p.fix 17 0) s).u8 16
        rings := BitVec.ofNat 64 ((ownOf 0x0C06 (p.fix 17 0) s).u64 20)
        ks := ks, ctr := none, fails := 0 })
  ∧ (∀ (s : State) (boot : Boot) (cause wake : Nat) (port : Port),
    (s.fullReset boot cause wake).session port = none)
  ∧ (∀ (s : State) (level cause : Nat) (port : Port), (s.seqRestart level cause).session port = none)
  ∧ (∀ (s : State) (n : Nego) (port : Port), (s.toStandby n).session port = none)
  ∧ (∀ (s : State) (armed : Nat) (burst : Bool) (timer : Word) (act : Bool) (port : Port),
    (s.toDormant armed burst timer act).session port = none)

/-- FALLBACK_ENTER never moves the engine to a less degraded state; where it passes its checks the cause
that it names is present, and outside a sleep negotiation the engine is at least at that cause's
target (R139, R238, R240). -/
def Obligations.FallbackEnterNeverLightens : Prop :=
  (∀ (p : Pkt) (s t : State), p.timed = false → exec (.fallbackEnter p) s = .next t →
    s.diag.safe ≤ t.diag.safe)
  ∧ (∀ (p : Pkt) (s t : State), passes 0x0105 fallbackEnterDef p s = true →
    exec (.fallbackEnter p) s = .next t → s.pwr.nego = none →
    t.hasCause ((ownOf 0x0105 p s).u8 16) = true
    ∧ causeTarget ((ownOf 0x0105 p s).u8 16) ≤ t.diag.safe)

/-! ### Every command that carries an opcode completes -/

/-- PING, IDENTIFY, PARAM_GET, STATUS_GET and TIME_STATUS complete with OK and the result words of
02_command_model.md and 15_power_states.md; they change no state but the records of the reply, and
STATUS_GET clears its restart flag. -/
def Obligations.SystemReadsComplete : Prop :=
  ∀ (s : State) (p : Pkt),
    Runs (.ping p) 0x0001 pingDef p s (fun q u =>
      u.answered 0x0001 q (words64 u.pwr.devtime.toNat ++ wordsOf q.params))
    ∧ Runs (.identify p) 0x0002 identifyDef p s (fun q u => u.answered 0x0002 q (identifyWords u))
    ∧ Runs (.paramGet p) 0x0004 paramGetDef p s (fun q u =>
        u.answered 0x0004 q (w32 (q.u16 16) :: (getIds q).flatMap (getEntry u (bitOf (q.u16 18) 0))))
    ∧ Runs (.statusGet p) 0x0006 statusGetDef p s (fun q u =>
        State.answered { u with cmd := { u.cmd with restarted := false } } 0x0006 q (statusWords u))
    ∧ Runs (.timeStatus p) 0x000A timeStatusDef p s (fun q u => u.answered 0x000A q (timeStatusWords u))

/-- PARAM_SET writes its entries in list order and commits if asked; EVENT_ACK drops the unacknowledged
events up to its ESEQ; RING_CONFIG with no entry describes the 64 rings, else configures its rings,
which lose their sequence and their retained replies; SET_TIME at once steps DEVTIME, for an edge
that was captured steps it from that edge, and for an edge to come holds its reply. -/
def Obligations.SystemWritesComplete : Prop :=
  ∀ (s : State) (p : Pkt),
    Runs (.paramSet p) 0x0005 paramSetDef p s (fun q u => u.journaled 0x0005 q q.durable fun v =>
      (v.writeEntries (setEntries q) (bitOf (q.u16 18) 0), [halves (q.u16 16) 0xFFFF]))
    ∧ Runs (.eventAck p) 0x0007 eventAckDef p s (fun q u => u.journaled 0x0007 q q.durable fun v =>
        let left := v.cmd.unack.filter fun e => !decide ((w32 (q.u32 16) - e).toNat < 2 ^ 31)
        ({ v with cmd := { v.cmd with unack := left } },
          [halves (v.cmd.unack.length - left.length) left.length]))
    ∧ RunsWhen (.ringConfig p) 0x0008 ringConfigDef p s (fun q _ => decide (q.u16 16 = 0))
        (fun q u => u.answered 0x0008 q ((List.range 64).flatMap (ringWords u)))
    ∧ RunsWhen (.ringConfig p) 0x0008 ringConfigDef p s (fun q _ => decide (q.u16 16 ≠ 0))
        (fun q u => u.journaled 0x0008 q q.durable fun v =>
          let l := ringEntries q
          let drop := fun (n : Nat) => !(l.map (·.1)).contains (n % 64)
          ({ v with cmd := { v.cmd with
              rings := ringsAfter v l
              heads := tkeep v.cmd.heads fun r => !(l.map (·.1)).contains r
              expSeq := tkeep v.cmd.expSeq drop
              kept := tkeep v.cmd.kept drop } },
            [w32 (8192 - depthSum (ringsAfter v l))]))
    ∧ RunsWhen (.setTime p) 0x0009 setTimeDef p s (fun q _ => timeNow q)
        (fun q u => u.journaled 0x0009 q q.durable fun v =>
          let new : BitVec 64 := BitVec.ofNat 64 (q.u64 24)
          (v.timeStep q.ring new.toNat true 0, setTimeWords (new - v.pwr.devtime) new))
    ∧ (∀ t : BitVec 64, RunsWhen (.setTime p) 0x0009 setTimeDef p s
        (fun q u => !timeNow q && decide (u.edgeAt (w32 (q.u32 16)) = some t))
        (fun q u => u.journaled 0x0009 q q.durable fun v =>
          let new : BitVec 64 := BitVec.ofNat 64 (q.u64 24)
          (v.timeStep q.ring (v.pwr.devtime + (new - t)).toNat false (q.u32 16), setTimeWords (new - t) new)))
    ∧ RunsWhen (.setTime p) 0x0009 setTimeDef p s
        (fun q u => !timeNow q && (u.edgeAt (w32 (q.u32 16))).isNone)
        (fun q u => u.opened 0x0009 q q.durable fun j v =>
          { v with cmd := { v.cmd with held := v.cmd.held ++
            [{ opcode := 0x0009, pkt := q, jseq := j,
               kind := .edge (w32 (q.u32 16)) (BitVec.ofNat 64 (q.u64 24)), since := v.clk }] } })

/-- RESET replies OK, its entry durable, and then restarts the sequencer (level 0), does a pipeline soft
reset (level 1), or, once the reply of a command that came over the link has gone, a full reset whose release
follows at once (level 2). Model's choices in it: logs 10, 14, 40. -/
def Obligations.ResetLevelsComplete : Prop :=
  ∀ (s : State) (p : Pkt),
    Runs (.sequencerRestart p) 0x0003 resetDef (p.fix 16 0) s
      (fun q u => (u.journaled 0x0003 q true fun v => (v, [])).restartDue 0)
    ∧ Runs (.pipelineSoftReset p) 0x0003 resetDef (p.fix 16 1) s
      (fun q u => (u.journaled 0x0003 q true fun v => (v, [])).seqRestart 1 0)
    ∧ Runs (.fullReset p) 0x0003 resetDef (p.fix 16 2) s
      (fun q u => ((u.journaled 0x0003 q true fun v => (v, [])).replyLeaves q .a).fullReset .regulator 0 2)

/-- The class-0 commands complete under the record that covers them: OBJ_UPDATE writes its contexts in
packet order and answers the active contexts, OBJ_RELEASE and OBJ_CLEAR_ALL release contexts,
FORCE_LEVEL sets or clears the forced level and answers the old one, FALLBACK_ENTER posts its event
and adds the cause of its level, FALLBACK_EXIT clears the host's causes, BEND_SET sets the bend and
answers the applied one. -/
def Obligations.ClassZeroCommandsComplete : Prop :=
  ∀ (s : State) (p : Pkt),
    Runs (.objUpdate p) 0x0101 objUpdateDef p s (fun q u => u.coalesced 0x0101 q fun v =>
      let w := (List.range (q.u8 16)).foldl (fun t k => t.objWrite q (entOff k)) v
      (w, [w32 w.activeCount]))
    ∧ Runs (.objRelease p) 0x0102 objReleaseDef p s (fun q u => u.coalesced 0x0102 q fun v =>
        let w := v.releaseAll (maskIds q)
        (w, [w32 (((maskIds q).filter fun i => (v.ctx i).active).length + 256 * w.activeCount)]))
    ∧ Runs (.objClearAll p) 0x0103 objClearAllDef p s (fun q u => u.coalesced 0x0103 q fun v =>
        let w := v.releaseAll (v.activeCtx.map (·.1))
        (if bitOf (q.u32 16) 0 then w.clearForce else w, [w32 v.activeCount]))
    ∧ RunsWhen (.forceLevel p) 0x0104 forceLevelDef p s
        (fun q _ => decide (q.u16 16 = 0 ∨ q.u16 18 = 65535))
        (fun q u => u.coalesced 0x0104 q fun v =>
          ({ v with shd := { v.shd with force := {} } },
            [halves v.shd.force.tiles.toNat v.shd.force.level.toNat]))
    ∧ RunsWhen (.forceLevel p) 0x0104 forceLevelDef p s
        (fun q _ => decide (q.u16 16 ≠ 0 ∧ q.u16 18 ≠ 65535))
        (fun q u => u.coalesced 0x0104 q fun v =>
          ({ v with shd := { v.shd with force :=
              { tiles := BitVec.ofNat 16 (q.u16 16)
                level := BitVec.ofNat 16 (q.u16 18)
                start := BitVec.ofNat 48 v.us
                hold := BitVec.ofNat 16 (q.u16 20) } } },
            [halves v.shd.force.tiles.toNat v.shd.force.level.toNat]))
    ∧ Runs (.fallbackEnter p) 0x0105 fallbackEnterDef p s (fun q u => u.coalesced 0x0105 q fun v =>
        let w := (v.evt 0x0103 2 q.ring (q.u8 16) (q.u16 18) q.seq.toNat v.diag.safe).addCause (q.u8 16)
        (w, [w32 w.diag.safe]))
    ∧ Runs (.fallbackExit p) 0x0106 fallbackExitDef p s (fun q u => u.coalesced 0x0106 q fun v =>
        let w := v.clearCauses (exitMask (bitOf (q.u32 16) 0))
        (w, [w32 (w.diag.safe + 256 * b2n w.exitPending + 512 * b2n (!w.causeList.isEmpty))]))
    ∧ Runs (.bendSet p) 0x0107 bendSetDef p s (fun q u => u.coalesced 0x0107 q fun v =>
        ({ v with comp := { v.comp with bendX := q.s16 16, bendY := q.s16 18 } },
          [w32 (v.prmRead pBendNow)]))

/-- FRAME_COMMIT sets the commit request and answers at once or holds its reply; SCAN_SELECT writes
SCAN_MODE and SCAN_BASE and answers the old base; VIDEO_CONFIG writes VIDEO_CTRL and HOST_STALE and
answers them as they stand; TIMING_STATUS and FREEZE_STATUS answer their words and change nothing.
-/
def Obligations.FrameCommandsComplete : Prop :=
  ∀ (s : State) (p : Pkt),
    RunsWhen (.frameCommit p) 0x0201 frameCommitDef p s (fun q _ => decide (q.u32 16 = 0))
      (fun q u => u.journaled 0x0201 q q.durable fun v => (v.setCommit, [0xFFFFFFFF, 0]))
    ∧ RunsWhen (.frameCommit p) 0x0201 frameCommitDef p s (fun q _ => decide (q.u32 16 ≠ 0))
      (fun q u => u.opened 0x0201 q q.durable fun j v =>
        let w := v.setCommit
        { w with cmd := { w.cmd with held := w.cmd.held ++
          [{ opcode := 0x0201, pkt := q, jseq := j, kind := .commitTaken, since := w.clk }] } })
    ∧ Runs (.scanSelect p) 0x0202 scanSelectDef p s (fun q u => u.journaled 0x0202 q q.durable fun v =>
        (v.writeEntries [(pScanMode, q.u8 16), (pScanBase, q.u32 20)] (bitOf (q.u32 24) 0),
          [w32 (v.live pScanBase)]))
    ∧ Runs (.timingStatus p) 0x0203 timingStatusDef p s (fun q u => u.answered 0x0203 q (timingWords u))
    ∧ Runs (.freezeStatus p) 0x0204 freezeStatusDef p s (fun q u => u.answered 0x0204 q (freezeWords u))
    ∧ Runs (.videoConfig p) 0x0205 videoConfigDef p s (fun q u => u.journaled 0x0205 q q.durable fun v =>
        ((v.setLive pVideoCtrl (videoCtrlOf q)).setLive pHostStale (q.u16 20),
          [w32 (v.live pVideoCtrl), w32 (v.live pHostStale)]))

/-- SCENE_WRITE writes its lines of the scene store; SCENE_STORE begins its 18 steps; SCENE_MIX writes
the shadow parameters of the mix; SYMBOL_WRITE writes its bytes of the symbol store where its CRC
agrees and every line that it writes in part can be read. -/
def Obligations.SceneCommandsComplete : Prop :=
  ∀ (s : State) (p : Pkt),
    Runs (.sceneWrite p) 0x0301 sceneWriteDef p s (fun q u => u.journaled 0x0301 q q.durable fun v =>
      (v.writeSram (0x800000 + 65536 * q.u8 16 + q.u32 20) (q.bytes 24 (64 * q.u16 18)), []))
    ∧ Runs (.sceneStore p) 0x0302 sceneStoreDef p s (fun q u =>
        u.begun 0x0302 q true
          (fun _ => .sceneStore (q.u8 16) (bitOf (q.u8 17) 0)
            (if bitOf (q.u8 17) 1 then some (w32 (q.u32 20)) else none)) 18 18 fun v => v)
    ∧ Runs (.sceneMix p) 0x0303 sceneMixDef p s (fun q u => u.journaled 0x0303 q q.durable fun v =>
        (v.writeEntries
          ([(pMixCfg, q.u8 16 + 16 * q.u8 17 + 256 * q.u16 20 + 2 ^ 17 * q.u16 22),
            (pMixTime, q.u16 24), (pBaseLevel, q.u16 26)]
            ++ if bitOf (q.u16 18) 1 then [(pCompCtrl, setBit (v.shadow pCompCtrl) 0)] else [])
          (bitOf (q.u16 18) 0), []))
    ∧ RunsWhen (.symbolWrite p) 0x0304 symbolWriteDef p s
        (fun q u => (!bitOf (q.u16 22) 0 || decide (crc32 (q.bytes 28 (q.u16 20)) = q.u32 24))
          && ((u.entered 0x0304 q q.durable).1.readParts 5 (0x400000 + q.u32 16) (q.bytes 28 (q.u16 20)).length).2)
        (fun q u => u.journaled 0x0304 q q.durable fun v =>
          ((v.readParts 5 (0x400000 + q.u32 16) (q.bytes 28 (q.u16 20)).length).1.writeSram (0x400000 + q.u32 16)
            (q.bytes 28 (q.u16 20)), []))

/-- OVL_SET stages one overlay context, OVL_CLEAR clears EN of the named contexts, staged and with NOW
live, and then in a seam set that is already formed; LUT_WRITE writes its entries of the shadow table, and during a bank copy waits for its end;
WINDOW_SET writes the window's shadow parameters. -/
def Obligations.OverlayCommandsComplete : Prop :=
  ∀ (s : State) (p : Pkt),
    Runs (.ovlSet p) 0x0305 ovlSetDef p s (fun q u => u.journaled 0x0305 q q.durable fun v =>
      let w := v.stageOvl (tput (fun _ => {}) v.comp.ovlStaged (q.u8 16) (ovlOf q))
      (if bitOf (q.u16 18) 0 then w.setCommit else w, [w32 (enMask w.comp.ovlStaged)]))
    ∧ Runs (.ovlClear p) 0x0306 ovlClearDef p s (fun q u => u.journaled 0x0306 q q.durable fun v =>
        let w := v.stageOvl (clearEn v.comp.ovlStaged (q.u32 16))
        let x := if bitOf (q.u32 20) 1 then
          { w with
            comp := { w.comp with ovlLive := clearEn w.comp.ovlLive (q.u32 16) }
            frm := { w.frm with seam := w.frm.seam.map fun (y : SeamSet) => { y with ovl := clearEn y.ovl (q.u32 16) } } }
          else w
        (if bitOf (q.u32 20) 0 then x.setCommit else x, [w32 (enMask x.comp.ovlLive)]))
    ∧ (s.comp.lutCopying = false → Runs (.lutWrite p) 0x0307 lutWriteDef p s (fun q u =>
        u.journaled 0x0307 q q.durable fun v =>
          let l := (List.range (q.u16 18)).map fun i => (BitVec.ofNat 16 (q.u16 (24 + 2 * i)) : Half)
          let w := { v with comp := { v.comp with lutShadow := tputs lutDef v.comp.lutShadow (q.u16 16) l } }
          let x := if w.prm.commit then w.bumpGen else w
          (if bitOf (q.u32 20) 0 then x.setCommit else x, [])))
    ∧ (s.comp.lutCopying = true → exec (.lutWrite p) s = .next { s with comp := { s.comp with
        lutWaiting := s.comp.lutWaiting ++ [{ opcode := 0x0307, pkt := p, gap := false }] } })
    ∧ Runs (.windowSet p) 0x0308 windowSetDef p s (fun q u => u.journaled 0x0308 q q.durable fun v =>
        (v.writeEntries [(pWinX, q.u32 16), (pWinY, q.u32 20), (pWinCtrl, q.u32 24 % 4)]
          (bitOf (q.u32 24) 8), []))

/-- TILE_REF_SET writes the shadow references of its tiles; DRIVE_STATUS answers the drive figures,
restarts the least slack and clears its counters if asked; BUDGET_SET writes the budget, the tile
cap and the guard, and resets the scale if asked; SADDLE_STATUS answers Saddle's figures and clears
its extremes if asked. -/
def Obligations.DriveCommandsComplete : Prop :=
  ∀ (s : State) (p : Pkt),
    Runs (.tileRefSet p) 0x0401 tileRefSetDef p s (fun q u => u.journaled 0x0401 q q.durable fun v =>
      (v.writeEntries ((refTiles q).map fun t => (pTileRef + t, refCode q t)) (bitOf (q.u16 18) 0),
        [w32 (q.u16 16)]))
    ∧ Runs (.driveStatus p) 0x0402 driveStatusDef p s (fun q u =>
        (u.allTiles fun t => { t with
          slackMin := 0xFFFF
          late := if bitOf (q.u32 16) 0 then 0 else t.late
          compSf := if bitOf (q.u32 16) 0 then 0 else t.compSf
          trunc := if bitOf (q.u32 16) 0 then 0 else t.trunc }).answered 0x0402 q (driveWords u))
    ∧ Runs (.budgetSet p) 0x0403 budgetSetDef p s (fun q u => u.journaled 0x0403 q q.durable fun v =>
        let b := budgetAfter q v
        let w := ((v.budgetWrite b.1).setLive pTileCap b.2.1).setLive pGuard b.2.2
        let x := if bitOf (q.u16 22) 0 then { w with sad := { w.sad with k := 4096, kRun := 0 } } else w
        (x, [halves (v.live pBudget) (b.1 * x.thm.tf / 4096), w32 x.thm.tf]))
    ∧ Runs (.saddleStatus p) 0x0404 saddleStatusDef p s (fun q u =>
        (if bitOf (q.u32 16) 0 then
          { u with sad := { u.sad with zMin := 12288, clamps := 0, slews := 0, headMin := 32767 } }
         else u).answered 0x0404 q (saddleWords u (bitOf (q.u32 16) 1)))

/-- STR_CONFIG and STR_LEVEL leave their values for the next period or seam; STR_STATUS answers the
channel's words; CREST_LOAD writes steps of a stopped or ended engine's program; the four actions of
CREST_CONTROL act at once, or with SEAM or in class 1 at the next latch instant. Model's choices in
it: logs 10, 26. -/
def Obligations.StringCommandsComplete : Prop :=
  ∀ (s : State) (p : Pkt),
    Runs (.strConfig p) 0x0501 strConfigDef p s (fun q u => u.journaled 0x0501 q q.durable fun v =>
      let w := v.modChan (q.u8 16) fun c => { c with nextCfg := some (strFields q c) }
      (w, [w32 (v.strFaults (q.u8 16))]))
    ∧ Runs (.strLevel p) 0x0502 strLevelDef p s (fun q u => u.journaled 0x0502 q q.durable fun v =>
        let l := (bitList (q.u16 18) 16).map fun i => (i, strEntry (q.u16 (20 + 2 * i)))
        let put := fun (t : Tab StrEntry) => l.foldl (fun t e => tins t e.1 e.2) t
        (v.modChan (q.u8 16) fun c =>
          if bitOf (q.u8 17) 0 ∨ q.cls = 1 then { c with seamLvl := put c.seamLvl }
          else { c with nextLvl := put c.nextLvl }, []))
    ∧ Runs (.strStatus p) 0x0503 strStatusDef p s (fun q u =>
        u.answered 0x0503 q (strWords u (q.u8 16)))
    ∧ Runs (.crestLoad p) 0x0504 crestLoadDef p s (fun q u => u.journaled 0x0504 q q.durable fun v =>
        let w := v.modCrest (q.u8 16) fun k => { k with
          prog := tputs (fun _ => {}) k.prog (q.u8 17) ((List.range (q.u8 18)).map fun i => stepAt q (20 + 8 * i))
          loops := [] }
        (w, [w32 (crc32 (w.crest (q.u8 16)).bytes)]))
    ∧ (∀ e ∈ [(Instr.crestStop p, p.fix 17 0), (Instr.crestStart p, p.fix 17 1),
          (Instr.crestResume p, p.fix 17 2), (Instr.crestStopAndSet p, p.fix 17 3)],
        RunsWhen e.1 0x0505 crestControlDef e.2 s (fun q _ => !bitOf (q.u8 18) 0 && decide (q.cls ≠ 1))
          (fun q u => u.journaled 0x0505 q q.durable fun v =>
            let w := v.crestControl (crestActOf q)
            (w, [w32 w.crestRunning]))
        ∧ RunsWhen e.1 0x0505 crestControlDef e.2 s (fun q _ => bitOf (q.u8 18) 0 || decide (q.cls = 1))
          (fun q u => u.journaled 0x0505 q q.durable fun v =>
            ({ v with str := { v.str with seamActs := v.str.seamActs ++ [crestActOf q] } },
              [w32 (v.crestControl (crestActOf q)).crestRunning])))

/-- DIAG_STATUS answers the diagnostic figures, and clears the weak counts if asked; DIAG_MAP_READ
answers the rows of a tile's status map, or records of it; PIXEL_MASK sets or clears HMASK over its
rectangle; FAULT_CLEAR clears causes, latches and map entries; FAULT_CONFIG writes its parameters.
The lines that they read, and that the two that change the map write in part, can be read. -/
def Obligations.DiagnosticCommandsComplete : Prop :=
  ∀ (s : State) (p : Pkt),
    Runs (.diagStatus p) 0x0601 diagStatusDef p s (fun q u =>
      (if bitOf (q.u32 16) 0 then u.allTiles fun t => { t with weak := 0 } else u).answered 0x0601 q
        (diagWords u))
    ∧ RunsWhen (.diagMapRead p) 0x0602 diagMapReadDef p s
        (fun q u => decide (q.u8 16 = 0) && (u.readLines 5 (u.mapReadLines q)).2.isNone)
        (fun q u => (u.readLines 5 (u.mapReadLines q)).1.answered 0x0602 q
          (wordsOf ((List.range (q.u16 22)).flatMap fun k =>
            u.sramBytes (mapRowAddr (q.u8 18) (q.u16 20 + k)) 128)))
    ∧ RunsWhen (.diagMapRead p) 0x0602 diagMapReadDef p s
        (fun q u => decide (q.u8 16 ≠ 0) && (u.readLines 5 (u.mapReadLines q)).2.isNone)
        (fun q u =>
          let l := u.mapRecords (q.u32 24) (q.u16 22) (bitOf (q.u8 17) 0) (bitOf (q.u8 17) 1)
          (u.readLines 5 (u.mapReadLines q)).1.answered 0x0602 q
            ([w32 l.2, w32 l.1.length] ++ l.1.map fun e => w32 (e.1 + 2048 * e.2.1 + 2 ^ 20 * e.2.2)))
    ∧ RunsWhen (.pixelMask p) 0x0603 pixelMaskDef p s
        (fun q u => ((u.entered 0x0603 q q.durable).1.readRect (rectAt q 18)).2)
        (fun q u => u.journaled 0x0603 q q.durable fun v =>
          let r := (v.readRect (rectAt q 18)).1.mapRect (rectAt q 18) (putHmask (decide (q.u8 16 = 1)))
          (r.1, [w32 r.2]))
    ∧ RunsWhen (.faultClear p) 0x0604 faultClearDef p s
        (fun q u => decide (q.u16 22 ≠ 1) || ((u.entered 0x0604 q q.durable).1.readRect (rectAt q 24)).2)
        (fun q u => u.journaled 0x0604 q q.durable fun v =>
          let m := if q.u16 22 = 1 then (v.readRect (rectAt q 24)).1 else v
          let w := (m.clearExtras (q.u32 16)).clearCauses (q.u32 16)
          let x := { w with diag := { w.diag with latch := w.diag.latch &&& ~~~ BitVec.ofNat 16 (q.u16 20) } }
          let r := if q.u16 22 = 1 then x.mapRect (rectAt q 24) clearEntry else (x, 0)
          (r.1, [w32 r.1.diag.causes.toNat, w32 r.1.diag.latch.toNat, w32 r.2]))
    ∧ Runs (.faultConfig p) 0x0605 faultConfigDef p s (fun q u => u.journaled 0x0605 q q.durable fun v =>
        (v.writeEntries (faultEntries q) false, [halves (v.live pFaultnEn) v.diag.latch.toNat]))

/-- CAL_SWEEP begins its 18 steps, or with RESUME goes on at its second with those that are left; CAL_COMMIT
begins its 4 steps; CAL_STATUS answers its words; CAL_ABORT ends a running job and discards the build if asked;
FLUX_WRITE writes its rectangle where its CRC agrees and every line that it writes in part can be read. Model's
choices in it: log 22. -/
def Obligations.CalibrationCommandsComplete : Prop :=
  ∀ (s : State) (p : Pkt),
    RunsWhen (.calSweep p) 0x0701 calSweepDef p s (fun q _ => decide (q.u16 18 ≠ 1))
      (fun q u => u.begun 0x0701 q true (fun j => .calSweep (BitVec.ofNat 16 (q.u16 16)) false j) 18 18 fun v => v)
    ∧ RunsWhen (.calSweep p) 0x0701 calSweepDef p s (fun q _ => decide (q.u16 18 = 1))
        (fun q u =>
          let v := (u.entered 0x0701 q true).1
          let w := { v with cal := { v.cal with phase := .armed } }
          u.begunAs 2 0x0701 q true (fun _ => .calSweep (BitVec.ofNat 16 (q.u16 16)) true (w32 (q.u32 20)))
            (1 + (w.tilesLeft (q.u32 20)).length) 18 fun _ => w)
    ∧ Runs (.calCommit p) 0x0702 calCommitDef p s (fun q u =>
        u.begun 0x0702 q true (fun _ => .calCommit (w32 (q.u32 16))) 4 4 fun v => v)
    ∧ Runs (.calStatus p) 0x0703 calStatusDef p s (fun q u =>
        u.answered 0x0703 q (if bitOf (q.u32 16) 0 then calFull u else calSummary u))
    ∧ RunsWhen (.calAbort p) 0x0704 calAbortDef p s
        (fun q u =>
          let w := (u.entered 0x0704 q q.durable).1
          let x := abortJob w
          !(bitOf (q.u32 16) 0 && (w.cal.buildId.isSome || x.1.building)) || x.1.discardBuild.2)
        (fun q u => u.journaled 0x0704 q q.durable fun v =>
          let x := abortJob v
          if bitOf (q.u32 16) 0 && (v.cal.buildId.isSome || x.1.building) then
            (x.1.discardBuild.1, [w32 (x.2 + 2 ^ 24)])
          else (x.1, [w32 x.2]))
    ∧ RunsWhen (.fluxWrite p) 0x0705 fluxWriteDef p s
        (fun q u => (!bitOf (q.u32 24) 0 || decide (crc32 (q.bytes 32 (fluxSize q)) = q.u32 28))
          && ((u.entered 0x0705 q q.durable).1.readRows q).2)
        (fun q u => u.journaled 0x0705 q q.durable fun v =>
          ((List.range (q.u16 22)).foldl (fun t r =>
            t.writeSram (fluxRow q r) (((q.bytes 32 (fluxSize q)).drop (q.u16 20 * r)).take (q.u16 20)))
            (v.readRows q).1, []))

/-- MEM_READ answers the bytes of its range, with the CVU's CRC if asked, where every line can be read;
MEM_WRITE writes its bytes where the CVU's CRC, if asked for, agrees and every line that it writes in part can be
read; CVU_CONFIG sets a unit up and answers the CRC of the nine digits; CVU_RUN begins a run;
ERRLOG_READ answers the error table, and empties it if asked; SCRUB_STATUS answers its words.
Model's choices in it: log 28. -/
def Obligations.MemoryCommandsComplete : Prop :=
  ∀ (s : State) (p : Pkt) (ups : Upsets),
    let cut := fun (q : Pkt) (u : State) => if usesCvu q then u.abortCvu (cvuOf q) else u
    let rd := fun (q : Pkt) (u : State) =>
      ((cut q u).abortMrams (linesOf (q.u32 16) (q.u16 20))).readLines 5 (linesOf (q.u32 16) (q.u16 20))
    RunsWhen (.memRead p ups) 0x0801 memReadDef p s (fun q u => !usesCvu q && (rd q u).2.isNone)
      (fun q u => (rd q u).1.answered 0x0801 q (wordsOf ((rd q u).1.bytesAt (q.u32 16) (q.u16 20))))
    ∧ RunsWhen (.memRead p ups) 0x0801 memReadDef p s (fun q u => usesCvu q && (rd q u).2.isNone)
      (fun q u =>
        let d := (rd q u).1.bytesAt (q.u32 16) (q.u16 20)
        (rd q u).1.answered 0x0801 q (wordsOf d ++ [w32 (((rd q u).1.cvu (cvuOf q)).crc d)]))
    ∧ RunsWhen (.memWrite p) 0x0802 memWriteDef p s
        (fun q u =>
          let v := cut q (u.entered 0x0802 q q.durable).1
          (!usesCvu q || decide ((v.cvu (cvuOf q)).crc (q.bytes 24 (writeLen q)) = q.u32 (24 + writeLen q)))
          && (v.readParts 5 (q.u32 16) (writeLen q)).2)
        (fun q u => u.journaled 0x0802 q q.durable fun v =>
          (((cut q v).readParts 5 (q.u32 16) (writeLen q)).1.writeSram (q.u32 16) (q.bytes 24 (writeLen q)), []))
    ∧ Runs (.cvuConfig p) 0x0803 cvuConfigDef p s (fun q u => u.journaled 0x0803 q q.durable fun v =>
        ((v.abortCvu (q.u8 16)).setCvu (q.u8 16) (cvuSettings q), [w32 ((cvuSettings q).crc nineDigits)]))
    ∧ Runs (.cvuRun p) 0x0804 cvuRunDef p s (fun q u =>
        u.begun 0x0804 q q.durable (fun _ => .cvuRun (q.u8 16)) 1 1 fun v =>
          let w := v.abortCvu (q.u8 16)
          w.setCvu (q.u8 16) { w.cvu (q.u8 16) with run := some (cvuRunOf q) })
    ∧ Runs (.errlogRead p) 0x0805 errlogReadDef p s (fun q t =>
        let u := t.ringsWritten
        (if bitOf (q.u32 16) 0 then { u with mem := { u.mem with table := [] } } else u).answered 0x0805 q
          (errlogWords u))
    ∧ Runs (.scrubStatus p) 0x0806 scrubStatusDef p s (fun q u => u.answered 0x0806 q (scrubWords u))

/-- BIST_CONFIG writes its two parameters and answers the old control; BIST_RUN begins the segments of
its test; BIST_RESULT answers a test's result; SPUR_ASSIGN asks for a handover at the next seam;
THERM_STATUS answers its words; THERM_CONFIG writes the six levels or the NTC table, and with STORE
their record. Model's choices in it: logs 31, 32. -/
def Obligations.TestAndThermalCommandsComplete : Prop :=
  ∀ (s : State) (p : Pkt),
    Runs (.bistConfig p) 0x0901 bistConfigDef p s (fun q u => u.journaled 0x0901 q q.durable fun v =>
      ((v.setLive pBistCtrl (q.u8 16 + 256 * q.u8 17)).setLive pBistTiming (q.u16 18 + 65536 * q.u16 20),
        [w32 (v.live pBistCtrl)]))
    ∧ Runs (.bistRun p) 0x0902 bistRunDef p s (fun q u =>
        u.begun 0x0902 q q.durable (fun _ => .bistRun (q.u8 16) (q.u8 17) (bitOf (q.u16 18) 0))
          (segsOf (q.u8 16)) (segsOf (q.u8 16)) fun v =>
            v.modTest (q.u8 16) (q.u8 17) fun x => { x with seg := 0, aborts := 0 })
    ∧ Runs (.bistResult p) 0x0903 bistResultDef p s (fun q u =>
        let x := u.resultSig (q.u8 16) (q.u8 17)
        x.1.answered 0x0903 q (bistWords x.1 (q.u8 16) (q.u8 17) x.2))
    ∧ Runs (.spurAssign p) 0x0904 spurAssignDef p s (fun q u => u.journaled 0x0904 q q.durable fun v =>
        let w := v.abortSlice fun ty _ => decide (ty = 2)
        ({ w with bist := { w.bist with
            move := if v.spurTile = q.u8 16 then none
              else if q.u8 16 = 0xFF then some (.giveBack 2) else some (.take (q.u8 16) 2)
            movedIn := false } },
          [w32 (v.spurTile + 256 * q.u8 16)]))
    ∧ Runs (.thermStatus p) 0x0A01 thermStatusDef p s (fun q u => u.answered 0x0A01 q (thermWords u))
    ∧ RunsWhen (.thermConfig p) 0x0A02 thermConfigDef p s (fun q u => decide (q.u8 16 = 0) && u.confTakes [2])
        (fun q u => u.journaled 0x0A02 q (bitOf (q.u8 17) 0 || q.durable) fun v =>
          let v := if bitOf (q.u8 17) 0 then (v.storeConf [2]).1 else v
          let w := (List.range 6).foldl
            (fun (t : State) k => t.setLive (thermParams.getD k 0) ((configValues q).getD k 0)) v
          (if bitOf (q.u8 17) 0 then
              { w with nvm := { w.nvm with thermal := some ((configValues q).map w32) } } else w,
            [w32 (v.live pThermLevels)]))
    ∧ RunsWhen (.thermConfig p) 0x0A02 thermConfigDef p s (fun q u => decide (q.u8 16 ≠ 0) && u.confTakes [3, 4])
        (fun q u => u.journaled 0x0A02 q (bitOf (q.u8 17) 0 || q.durable) fun v =>
          let v := if bitOf (q.u8 17) 0 then (v.storeConf [3, 4]).1 else v
          let w := { v with thm := { v.thm with ntcTab := configNtc q } }
          (if bitOf (q.u8 17) 0 then { w with nvm := { w.nvm with ntc := configNtc q } } else w,
            [w32 (crc32 (((configNtc q).getD ntcDefault).flatMap fun i => leBytes 2 (twos 16 i)))]))

/-- PWR_STATE with the present state as its target answers OK; to ACTIVE it enters ACTIVE and holds its
reply until the seam; to a lower state it begins the negotiation. PWR_STATUS answers its words and
clears PWR_FAULT if asked. Model's choices in it: log 33. -/
def Obligations.PowerCommandsComplete : Prop :=
  ∀ (s : State) (p : Pkt),
    RunsWhen (.pwrState p) 0x0B01 pwrStateDef p s (fun q u => decide (pwrTarget q = u.pwrNow))
      (fun q u => u.journaled 0x0B01 q (decide (2 ≤ pwrTarget q) || q.durable) fun v =>
        (v, [w32 (256 * v.pwrNow)]))
    ∧ RunsWhen (.pwrState p) 0x0B01 pwrStateDef p s
        (fun q u => decide (pwrTarget q ≠ u.pwrNow) && decide (pwrTarget q = 0))
        (fun q u => u.opened 0x0B01 q q.durable fun j v =>
          let w := v.enterActive 0xFFFF
          { w with cmd := { w.cmd with held := w.cmd.held ++
            [{ opcode := 0x0B01, pkt := q, jseq := j, kind := .fallbackSeam, since := w.clk }] } })
    ∧ RunsWhen (.pwrState p) 0x0B01 pwrStateDef p s
        (fun q u => decide (pwrTarget q ≠ u.pwrNow) && decide (pwrTarget q ≠ 0)
          && !(lowers q u).2)
        (fun q u => u.opened 0x0B01 q (decide (2 ≤ pwrTarget q) || q.durable) fun j v =>
          v.negoGo (v.negoOf j q) (sleepBlocks (v.negoOf j q).target))
    ∧ RunsWhen (.pwrState p) 0x0B01 pwrStateDef p s
        (fun q u => decide (pwrTarget q ≠ u.pwrNow) && decide (pwrTarget q ≠ 0)
          && (lowers q u).2)
        (fun q u => u.journaled 0x0B01 q (decide (2 ≤ pwrTarget q) || q.durable) fun v =>
          let w := v.negoGo (v.negoOf u.jNext q) (sleepBlocks (v.negoOf u.jNext q).target)
          (w, (w.pwr.nego.map fun m => negoWord m 0).toList))
    ∧ Runs (.pwrStatus p) 0x0B02 pwrStatusDef p s (fun q u =>
        (if bitOf (q.u32 16) 0 then { u with pwr := { u.pwr with fault := 0 } } else u).answered 0x0B02 q
          (pwrStatusWords u))

/-- JRNL_READ answers NEWEST, NEXT and the entries from its JSEQ on, and counts the entries that are
lost; past the newest entry it answers none. JRNL_MARK adds its mark, durable if asked, and answers
with the mark's JSEQ. STATE_DIGEST answers the 48 digest words where every line of its ranges can be
read. Model's choices in it: logs 29, 40. -/
def Obligations.JournalCommandsComplete : Prop :=
  ∀ (s : State) (p : Pkt),
    RunsWhen (.jrnlRead p) 0x0C01 jrnlReadDef p s (fun q u => !u.jPast (w32 (q.u32 16)))
      (fun q u =>
        let f := u.jFrom (w32 (q.u32 16))
        let r := u.jScan 16400 (q.u16 20) f.1
        (if r.2.2.1 = 0 then r.1 else r.1.bump pJrnlLost r.2.2.1).answered 0x0C01 q
          ([w32 (u.prmRead pJrnlNewest), r.2.2.2, w32 (r.2.1.length + 65536 * b2n f.2)] ++ r.2.1.flatMap wordsOf))
    ∧ RunsWhen (.jrnlRead p) 0x0C01 jrnlReadDef p s (fun q u => u.jPast (w32 (q.u32 16)))
        (fun q u => u.freeW.1.answered 0x0C01 q [w32 (u.prmRead pJrnlNewest), u.freeW.2, 0])
    ∧ Runs (.jrnlMark p) 0x0C02 jrnlMarkDef p s (fun q u =>
        let x := u.jAdd (markEntry q) q.durable
        (if q.durable then x.1.jDurable x.2 else x.1).reply 0x0C02 q stOk 1 1 x.2 [] false true)
    ∧ RunsWhen (.stateDigest p) 0x0C03 stateDigestDef p s
        (fun _ u => (u.readSpan 4 0x800000 0x180000).2.isEmpty)
        (fun q u =>
          let r := u.readSpan 4 0x800000 0x180000
          r.1.answered 0x0C03 q (digestWords r.1 (q.u8 16)))

/-- FW_STAGE BEGIN takes a signed header into the slot that is not running, DATA writes its bytes where the lines
that it writes in part can be read, FINISH makes a slot STAGED whose lines can be read and whose digest agrees, and
both where their writes verify; QUERY answers; FW_ACTIVATE begins the activation of
a valid STAGED slot, and with CONFIRM a TRIAL slot becomes ACTIVE. Model's choices in it: logs 10,
30, 40. -/
def Obligations.FirmwareCommandsComplete : Prop :=
  ∀ (s : State) (p : Pkt) (k : Nat) (h : List Byte),
    RunsWhen (.fwStageBegin p) 0x0C04 fwStageDef (p.fix 16 0) s
      (fun _ u => decide (u.stageSlot = some k))
      (fun q u =>
        if hdrSigned (q.bytes 28 256) ∧ u.nvm.floor.toNat ≤ hdrVersion (q.bytes 28 256) then
          u.journaled 0x0C04 q q.durable fun v =>
            let w := v.setSlot k .staging
            let x := { w with nvm := { w.nvm with stageHdr := some (q.bytes 28 256), stageNext := 0 } }
            (x, stageWords x)
        else u.failed 0x0C04 q q.durable stCheckFail fun v => v)
    ∧ RunsWhen (.fwStageData p) 0x0C04 fwStageDef (p.fix 16 1) s
        (fun q u =>
          let l := linesOf (slotBase k + 256 + stageOff q) (q.bytes 28 (stageLen q)).length
          let r := (u.entered 0x0C04 q q.durable).1.readParts 7 (slotBase k + 256 + stageOff q)
            (q.bytes 28 (stageLen q)).length
          decide (u.stageSlot = some k) && u.nvm.stageHdr.isSome && r.2
            && ((r.1.abortMrams l).verifyLines l).2)
        (fun q u => u.journaled 0x0C04 q q.durable fun v =>
          let a := slotBase k + 256 + stageOff q
          let d := q.bytes 28 (stageLen q)
          let l := linesOf a d.length
          let w := (((v.readParts 7 a d.length).1.abortMrams l).verifyLines l).1.writeMram a d
          let x := if stageOff q = w.nvm.stageNext then
            { w with nvm := { w.nvm with stageNext := stageOff q + stageLen q } } else w
          (x, stageWords x))
    ∧ RunsWhen (.fwStageFinish p) 0x0C04 fwStageDef (p.fix 16 2) s
        (fun q u =>
          let r := finishReads k h (u.entered 0x0C04 q q.durable).1
          decide (u.stageSlot = some k) && decide (u.nvm.stageHdr = some h) && r.2.isEmpty
            && decide (sha256 (r.1.mramBytes (slotBase k + 256) (hdrLength h)) = (h.drop 16).take 32)
            && (r.1.verifyLines (linesOf (slotBase k) 256)).2)
        (fun q u => u.journaled 0x0C04 q q.durable fun v =>
          let w := (((finishReads k h v).1.verifyLines (linesOf (slotBase k) 256)).1.writeMram (slotBase k) h).setSlot k
            .staged
          let x := { w with nvm := { w.nvm with stageHdr := none } }
          (x, stageWords x))
    ∧ Runs (.fwStageQuery p) 0x0C04 fwStageDef (p.fix 16 3) s
        (fun q u => u.journaled 0x0C04 q q.durable fun v => (v, stageWords v))
    ∧ RunsWhen (.fwActivate p) 0x0C05 fwActivateDef (p.fixBit 16 false) s
        (fun q u => decide (u.slotIn .staged = some k) && ((u.entered 0x0C05 q true).1.verifySlot k).2)
        (fun q u => u.begun 0x0C05 q true (fun _ => .fwActivate (bitOf (q.u32 16) 1)) 1 1 fun v => (v.verifySlot k).1)
    ∧ RunsWhen (.fwConfirm p) 0x0C05 fwActivateDef (p.fixBit 16 true) s
        (fun _ u => decide (u.slotIn .trial = some k))
        (fun q u => u.journaled 0x0C05 q true fun v => (v.makeActive k, []))

/-- AUTH_OPEN opens the session of its port under a key slot and answers the nonce and its MAC; with
MODE 1 it writes a key slot; AUTH_CLOSE closes the port's session and answers its CTR. Model's
choices in it: logs 3, 10, 30. -/
def Obligations.SessionCommandsComplete : Prop :=
  ∀ (s : State) (p : Pkt) (key : List Byte) (x : Session) (c : Word),
    RunsWhen (.authOpen p) 0x0C06 authOpenDef (p.fix 17 0) s
      (fun q u => decide (u.keyOf (q.u8 16) = some key))
      (fun q u => u.journaled 0x0C06 q q.durable fun v =>
        let n := v.free
        let ne := wordBytes [Config.freeWord n, Config.freeWord (n + 1)]
        let w := { v with free := n + 2 }
        let ks := w.sessionKey key (q.bytes 28 8) ne q.port
        (w.setSession q.port (some { key := q.u8 16, rings := BitVec.ofNat 64 (q.u64 20), ks := ks }),
          [Config.freeWord n, Config.freeWord (n + 1)] ++ wordsOf ((cmac ks ([2] ++ q.bytes 28 8)).take 8)))
    ∧ RunsWhen (.authLoadKey p) 0x0C06 authOpenDef (p.fix 17 1) s
        (fun q u => (u.keyOf (q.u8 16)).isNone && u.confTakes [5 + q.u8 16])
        (fun q u => u.journaled 0x0C06 q true fun v =>
          let v := (v.storeConf [5 + q.u8 16]).1
          ({ v with nvm := { v.nvm with
              keys := tput (fun _ => none) v.nvm.keys (q.u8 16) (some (q.bytes 36 16)) } }, []))
    ∧ RunsWhen (.authLoadKey p) 0x0C06 authOpenDef (p.fix 17 1) s
        (fun q u => (u.keyOf (q.u8 16)).isSome && decide (u.covering q = some x) && u.confTakes [5 + q.u8 16])
        (fun q u => u.journaled 0x0C06 q true fun v =>
          let v := (v.storeConf [5 + q.u8 16]).1
          ({ v with nvm := { v.nvm with
              keys := tput (fun _ => none) v.nvm.keys (q.u8 16) (some (aesUnwrap x.ks (q.bytes 36 16))) } }, []))
    ∧ RunsWhen (.authClose p) 0x0C07 authCloseDef p s
        (fun q u => match u.session q.port with | some v => decide (v.ctr = some c) | none => false)
        (fun q u => u.journaled 0x0C07 q q.durable fun v => (v.setSession q.port none, [c]))

/-- LINK_STATUS and EYE_READ answer their words; LINK_RETRAIN replies and then retrains, and LANE_MODE
replies with the mode to come and then changes it: a reply over the link has gone out by then. Model's choices in it:
logs 27, 40. -/
def Obligations.LinkCommandsComplete : Prop :=
  ∀ (s : State) (p : Pkt),
    Runs (.linkStatus p) 0x0D01 linkStatusDef p s (fun q u => u.answered 0x0D01 q
      ([w32 (u.fld pLinkCtrl 1 0 + 256 * u.carryMask)] ++ linkLane u .a ++ linkLane u .b))
    ∧ Runs (.linkRetrain p) 0x0D02 linkRetrainDef p s (fun q u =>
        ((u.journaled 0x0D02 q q.durable fun v => (v, [])).replyLeaves q (laneOf (q.u8 16))).linkRetrain
          (laneOf (q.u8 16)) (q.u8 17))
    ∧ Runs (.laneMode p) 0x0D03 laneModeDef p s (fun q u =>
        ((u.journaled 0x0D03 q q.durable fun v =>
          (v, [w32 (v.fld pLinkCtrl 1 0 + 256 * (v.laneMode (q.u8 16)).carryMask)])).replyLeaves q .a).laneMode
          (q.u8 16))
    ∧ Runs (.eyeRead p) 0x0D04 eyeReadDef p s (fun q u =>
        u.answered 0x0D04 q (eyeWords u (laneOf (q.u8 16))))

/-- NODE_SET takes the node address when it names this engine's serial or none, and an engine that is
not meant ignores it; GROUP_SET changes the memberships under its mask; both store them if asked, and where the
store fails, no spare sector being free, change nothing of them.
SCHEDULE places the inner command in the timed queue with ACCEPTED, and waits at the head of its ring while its
reply has no slot; CANCEL ends the named entries;
LIST and GROUP_STATUS answer their words. Model's choices in it: logs 10, 34, 40. -/
def Obligations.GroupCommandsComplete : Prop :=
  ∀ (s : State) (p : Pkt),
    (serialMeant (nodeSerial p (if p.timed then 24 else 16)) = true →
      RunsWhen (.nodeSet p) 0x0E01 nodeSetDef p s (fun _ u => u.confTakes [0]) (fun q u =>
        u.journaled 0x0E01 q (bitOf (q.u16 26) 0 || q.durable) fun v =>
          let v := if bitOf (q.u16 26) 0 then (v.storeConf [0]).1 else v
          let n : BitVec 14 := BitVec.ofNat 14 (q.u16 24)
          ({ v with
              grp := { v.grp with node := n }
              nvm := { v.nvm with node := if bitOf (q.u16 26) 0 then some n else v.nvm.node } },
            [w32 v.grp.node.toNat])))
    ∧ (serialMeant (nodeSerial p (if p.timed then 24 else 16)) = false → exec (.nodeSet p) s = .next s)
    ∧ (s.freeSpare 0 = none →
      (serialMeant (nodeSerial p (if p.timed then 24 else 16)) = true → passes 0x0E01 nodeSetDef p s = true →
        bitOf ((ownOf 0x0E01 p s).u16 26) 0 = true → s.confTakes [0] = false →
        ∃ t, exec (.nodeSet p) s = .next t ∧ t.grp = s.grp ∧ t.nvm.node = s.nvm.node)
      ∧ (passes 0x0E02 groupSetDef p s = true → bitOf ((ownOf 0x0E02 p s).u32 32) 0 = true →
        s.confTakes [1] = false →
        ∃ t, exec (.groupSet p) s = .next t ∧ t.grp = s.grp ∧ t.nvm.groups = s.nvm.groups))
    ∧ RunsWhen (.groupSet p) 0x0E02 groupSetDef p s (fun _ u => u.confTakes [1]) (fun q u =>
        u.journaled 0x0E02 q (bitOf (q.u32 32) 0 || q.durable) fun v =>
          let v := if bitOf (q.u32 32) 0 then (v.storeConf [1]).1 else v
          let mask := BitVec.ofNat 64 (q.u64 16)
          let g := (v.grp.groups &&& ~~~mask) ||| (BitVec.ofNat 64 (q.u64 24) &&& mask)
          ({ v with
              grp := { v.grp with groups := g }
              nvm := { v.nvm with groups := if bitOf (q.u32 32) 0 then g else v.nvm.groups } },
            words64 g.toNat))
    ∧ (∀ d, opDef ((ownOf 0x0E03 (p.fix 16 0) s).u16 28) = some d → scheduleRuns (p.fix 16 0) s d = true →
        exec (.schedule p) s = .next
          (let q := ownOf 0x0E03 (p.fix 16 0) s
           let i := innerPkt q
           (authOf 0x0E03 (p.fix 16 0) s).enqueue 0x0E03 (q.u16 28) (p.fix 16 0) i i.params (q.u16 18)
             (bitOf (q.u8 17) 0) (q.u64 20) false))
    ∧ (opPermitted 0x0E03 p.cls = true → s.outFree (replyRing p) = 0 →
        exec (.schedule p) s = .next (s.putBack 0x0E03 (p.fix 16 0) false))
    ∧ Runs (.cancel p) 0x0E03 timedExecDef (p.fix 16 1) s
        (fun q u =>
          let l := cancelled q u
          let v := { u with grp := { u.grp with queue := u.grp.queue.filter fun t => !l.contains t } }
          (l.foldl (fun t e => t.cancelEntry e) v).answered 0x0E03 q [w32 l.length])
    ∧ Runs (.list p) 0x0E03 timedExecDef (p.fix 16 2) s
        (fun q u => u.answered 0x0E03 q (w32 u.grp.queue.length :: u.grp.queue.flatMap timedWords))
    ∧ Runs (.groupStatus p) 0x0E04 groupStatusDef p s (fun q u =>
        u.answered 0x0E04 q (groupSummary u ++ if bitOf (q.u32 16) 0 then groupFull u else []))

/-! ### Every event of the block's own clocks, pins and ports completes -/

/-- A forward block time takes what each lane received, puts the copies in the deskew buffer, and
delivers the selected blocks in the order of BSEQ; a record that can be read goes out on an open return as blocks of
28 bytes, in mirror mode on both with the same BSEQ, and leaves its ring; with the SPI port on, PKT_WRITE delivers its
bytes as a packet,
RING_READ drives the head record, once it can be read, and consumes one that is clocked out whole, and STATUS_POLL
drives the poll word and clears SUB_FULL. Model's choices in it: logs 9, 36, 40. -/
def Obligations.PortsComplete : Prop :=
  ∀ (s : State) (dt : Nat),
    (∀ a b, Answers (.blockReceived dt a b) s (s.elapse dt).lines (fun _ => true) fun u =>
      let x := u.ageCopies.laneIn .a a
      let y := x.1.laneIn .b b
      let t := (y.1.putCopy .a x.2).putCopy .b y.2
      (State.drain (!(t.mirror && t.hears .a && t.hears .b)) 16 t).negoTick)
    ∧ (∀ (l : Lane) (r : Nat) (x : Record), Answers (.recordSend dt l) s (s.elapse dt).lines
        (fun u => u.admits l && returnOpen (u.lane l) && decide ((State.firstRecord linkRings u).2 = some (r, x)))
        fun u =>
          let v := (State.firstRecord linkRings u).1
          let typ := if r < 56 then 3 else 4
          let w := v.setLane l (sendRecord (v.lane l) typ x.bytes v.clk)
          let m := if v.mirror ∧ returnOpen (v.lane (partner l)) then
              w.setLane (partner l)
                (sendRecord { v.lane (partner l) with retBseq := (v.lane l).retBseq } typ x.bytes v.clk)
            else w
          (m.popOut r).negoTick)
    ∧ (∀ l, After (.pktWrite dt l) dt s (fun u => u.spiOn) fun u =>
        State.packetIn { u with cmd := { u.cmd with sdo := some [] } } .spi l)
    ∧ (∀ (sel : Byte) (n r : Nat) (x : Record), After (.ringRead dt sel n) dt s
        (fun u => u.spiOn && decide (u.readRing sel = some r) && decide ((u.outHead r).2 = some x))
        fun u =>
          let v := (u.outHead r).1
          let w := { v with cmd := { v.cmd with sdo := some (0 :: (leBytes 2 x.bytes.length ++ x.bytes.take n)) } }
          if x.bytes.length ≤ n then (w.popOut r).negoTick else w)
    ∧ (∀ (sel : Byte) (n r : Nat), After (.ringRead dt sel n) dt s
        (fun u => u.spiOn && decide (u.readRing sel = some r) && (u.outHead r).2.isNone)
        fun u =>
          let v := (u.outHead r).1
          { v with cmd := { v.cmd with sdo := some (0 :: leBytes 2 0) } })
    ∧ After (.statusPoll dt) dt s (fun u => u.spiOn)
        fun u => { u with cmd := { u.cmd with sdo := some (0 :: leBytes 8 u.pollWord), subFull := false } }

/-- The class-0 decoder takes the oldest class-0 packet; the sequencer takes a released timed entry of
the class it picks, or the packet at the head of the ring it picks, and counts the pick; a packet whose lines can be
read runs, and one that cannot be read is not executed, counts, and is answered with MEM_FAULT if its first line can be
read (R276); the oldest job that is ready runs its next step; the class-0 accounting interval ends with C0_OVERLOAD;
entries that are due are released in the order of the queue. Model's choices in it: logs 6, 9, 36, 40. -/
def Obligations.SequencerComplete : Prop :=
  ∀ (s : State) (dt : Nat) (ups : Upsets),
    let lines := fun (w : Waiting) (u : State) => u.ringLines w.pkt.ring (u.headSlot w.pkt.ring) (pktSlots w.pkt)
    let rd := fun (w : Waiting) (u : State) => u.ringsWritten.readEach 10 (lines w u)
    let runs := fun (w : Waiting) (u : State) =>
      let t := (rd w u).1.unqueue w
      if (rd w u).2 = [] then serveTaken w t
      else if (lines w u).headD 0 ∈ (rd w u).2 then t.bump pRingMemDrops 1
      else (t.bump pRingMemDrops 1).reject w.opcode w.pkt stMemFault [] w.gap
    (∀ w : Waiting, After (.contextWrite dt) dt s
      (fun u => u.seqClocked && !u.pwr.linkOff
        && decide ((u.cmd.waiting.find? fun x => decide (x.pkt.cls = 0)) = some w)) (runs w))
    ∧ (∀ (c : Nat) (t : Timed), Answers (.sequencerTake dt ups) s ((s.elapse dt).arise ups)
        (fun u => u.cmd.serving && u.seqRuns && !u.pwr.linkOff && decide (u.pickClass = some c)
          && decide (u.nextTimed c = some t))
        fun u => State.takeTimed { u with cmd := { u.cmd with picks := (u.cmd.picks + 1) % 16 } } t)
    ∧ (∀ (c r : Nat) (w : Waiting), Answers (.sequencerTake dt ups) s ((s.elapse dt).arise ups)
        (fun u => u.cmd.serving && u.seqRuns && !u.pwr.linkOff && decide (u.pickClass = some c)
          && (u.nextTimed c).isNone && decide (u.nextRing c = some r) && decide (u.ringHead r = some w))
        fun u => runs w { u with cmd := { u.cmd with
          picks := (u.cmd.picks + 1) % 16
          lastRing := tput (fun _ => 48) u.cmd.lastRing c r } })
    ∧ (∀ b : Job, Answers (.multiStepResume dt ups) s ((s.elapse dt).arise ups)
        (fun u => u.cmd.serving && u.seqRuns && decide (u.cmd.jobs.find? u.stepReady = some b))
        fun u => (u.runStep b).negoTick)
    ∧ (∀ c : C0Interval, After (.c0Overload dt) dt s (fun u => decide (u.cmd.c0Open = some c))
        fun u => State.evt { u with cmd := { u.cmd with c0Open := none } } 0x0004 1 c.first
          (min c.count 65535) 0 c.largest 0)
    ∧ After (.timedRelease dt) dt s
        (fun u => u.frm.running && decide (u.pwr.time ≠ .invalid) && decide (u.pwr.time ≠ .unset))
        fun u => (u.grp.queue.filter u.dueNow).foldl (fun v t => v.releaseOne t) u

/-- A start token starts the pass of its row-group; a pass that completes leaves its codes and the
tile's next token starts; a load deadline, a slot start, a notch row access with its 16 probes, a notch end with its 64
measured values, each do their work while the frame engine runs, lit or dark. Model's choices in it: logs 9, 25, 39.
-/
def Obligations.PassAndSlotEventsComplete : Prop :=
  ∀ (s : State) (dt : Nat) (ups : Upsets) (g : Fin 256),
    Answers (.startToken dt g ups) s ((s.elapse dt).arise ups) (fun _ => true) (fun u => u.startToken g)
    ∧ (∀ (t : Fin 16) (e : Nat × Pass), Answers (.passComplete dt t ups) s ((s.elapse dt).arise ups)
        (fun u => decide ((u.comp.passes.find? fun x => decide (x.1 = t.val)) = some e))
        fun u => (u.passDone t e.2).nextToken t)
    ∧ (∀ bad, After (.loadDeadline dt g bad) dt s (fun u => u.frm.running) fun u => u.deadline g bad)
    ∧ After (.slotStart dt g) dt s (fun u => u.frm.running) (fun u => u.slotStart g)
    ∧ (∀ probes low, probes.length = 16 → After (.notchRowAccess dt probes low) dt s
        (fun u => u.frm.running) fun u => u.notchAccess probes low)
    ∧ (∀ m, m.length = 64 → After (.notchEnd dt m) dt s (fun u => u.frm.running) fun u => u.notchEnd m)

/-- The plan instant aborts a slice of the budget engine's test, plans the next sub-frame and compares
the two budget engines; the commit cutoff forms the seam set; the latch instant latches it; a sync
edge of the polarity that SYNC_CTRL selects, and no other, a missed edge while locked, the phase lock of a bridge, a finished frame copy, and a finished
bank copy do what R183 to R200 and R92 give them. Model's choices in it: logs 9, 16, 35. -/
def Obligations.FrameEventsComplete : Prop :=
  ∀ (s : State) (dt : Nat),
    (∀ dup, After (.planInstant dt dup) dt s
      (fun u => u.plansNow && !(decide (u.frm.ret = some .limpToFallback) && u.seamNext))
      fun u =>
        let v := u.abortSlice fun ty _ => decide (ty = 4)
        (v.makePlan v.seamNext).govCompare dup)
    ∧ (∀ dup, After (.planInstant dt dup) dt s
      (fun u => u.plansNow && decide (u.frm.ret = some .limpToFallback) && u.seamNext)
      fun u =>
        let v := State.abortSlice { u with frm := { u.frm with retArmed := true } } fun ty _ => decide (ty = 4)
        (v.makePlan v.seamNext).govCompare dup)
    ∧ After (.commitCutoff dt) dt s (fun u => u.frm.running && u.frm.seam.isNone) (fun u => u.formSeam)
    ∧ (∀ x : SeamSet, After (.latchInstant dt) dt s (fun u => u.frm.running && decide (u.frm.seam = some x))
        fun u => (u.latch x).negoTick)
    ∧ (∀ x : SeamSet, After (.latchInstant dt) dt s
        (fun u => u.frm.running && u.frm.seam.isNone && decide (u.formSeam.frm.seam = some x))
        fun u => (u.formSeam.latch x).negoTick)
    ∧ (∀ falling, After (.syncInEdge ⟨dt, falling⟩) dt s (fun u => decide (falling = u.flag pSyncCtrl 2))
        (fun u => u.syncEdge))
    ∧ (∀ falling, After (.syncInEdge ⟨dt, falling⟩) dt s (fun u => decide (falling ≠ u.flag pSyncCtrl 2)) (fun u => u))
    ∧ After (.syncEdgeMissed dt) dt s (fun u => decide (u.frm.state = .locked) || u.frm.change.isSome)
        (fun u => u.loseLock)
    ∧ (∀ (off : Nat) (c : Change), After (.ptbLock dt off) dt s
        (fun u => decide (u.frm.change = some c) && c.bridge && !c.fixed)
        fun u => { u with frm := { u.frm with change := some (u.fixChange c off) } })
    ∧ (∀ (b : Nat) (f : Word) (m : Nat), After (.frameReady dt) dt s
        (fun u => decide (u.frm.copying = some (b, f, m))) fun u => u.frameReady b f m)
    ∧ After (.lutBankCopyDone dt) dt s (fun u => u.comp.lutCopying) (fun u =>
        u.comp.lutWaiting.foldl (fun v w => serveOp 0x0307 lutWriteDef w.pkt w.gap v)
          { u with comp := { u.comp with lutCopying := false, lutWaiting := [], lutShadow := u.comp.lutNext } })

/-- A timeout scan round releases the contexts that are due; a hard trip at 11 tenths of the budget
acts; a stale host adds its cause after HOST_STALE; the fallback check passes, or fails and adds
cause 10; the limp loader reads its lines, with substitutes for those that fail, and forms the codes. Model's choices in
it: logs 9, 18, 21, 40. -/
def Obligations.SafeStateEventsComplete : Prop :=
  ∀ (s : State) (dt : Nat),
    After (.timeoutScanRound dt) dt s
      (fun u => u.logicUp && (decide (u.pwr.state = .active) || decide (u.pwr.state = .idle)))
      (fun u => u.scanRound)
    ∧ (∀ ma, After (.hardTrip dt ma) dt s
        (fun u => decide (11 * u.tripBudget ≤ 10 * ma) && u.frm.running && decide (u.diag.safe ≠ 4))
        fun u => u.hardTrip ma)
    ∧ (∀ t, After (.hostStale dt) dt s
        (fun u => decide (u.frm.staleStart = some t) && decide (u.pwr.state = .active)
          && decide (u.live pHostStale ≠ 0) && decide (u.live pHostStale * 1000000 ≤ u.clk - t))
        fun u => u.hostStale t)
    ∧ After (.fallbackCheck dt) dt s
        (fun u => decide (u.diag.safe = 2) && u.comp.fbCheck.running
          && decide (u.comp.fbCheck.endSub < u.frm.sub) && u.fbFailed.isEmpty)
        (fun u => State.reevaluate { u with comp := { u.comp with
          fbCheck := { u.comp.fbCheck with running := false, passed := true } } })
    ∧ After (.fallbackCheck dt) dt s
        (fun u => decide (u.diag.safe = 2) && u.comp.fbCheck.running
          && decide (u.comp.fbCheck.endSub < u.frm.sub) && !u.fbFailed.isEmpty)
        (fun u =>
          let v := { u with comp := { u.comp with
            fbCheck := { u.comp.fbCheck with running := false, passed := false } } }
          (v.evt 0x0306 3 0xFF (ofBitList u.fbFailed) 0 v.frm.frame.toNat 0).addCause 10)
    ∧ (∀ m t z, Answers (.limpCodesReady dt m t z) s
        ((s.elapse dt).arise ((m ++ t ++ z).map fun a => (a, LineRead.lost)))
        (fun u => decide (u.comp.limp.stage = .reading)) fun u =>
        let r := u.limpReads
        { r.1 with comp := { r.1.comp with limp := { r.1.comp.limp with
          stage := .ready
          codes := (List.range 256).map fun g => (g, r.1.limpCodes r.2.1 r.2.2.1 r.2.2.2 g)
          substLines := r.2.1.length + r.2.2.2.length } } })

/-- A termination poll, the end of a backoff, a training result whose windows have settled with its eyes at guard (R169)
and the three timeouts move a lane through DETECT, TRAIN, LOCK and CAPS as R167 to R170 say: each timeout, a loss of signal, a lost
termination and a training tap mismatch take the lane down with their cause. Model's choices in it:
logs 9, 27, 40. -/
def Obligations.LaneTrainingEventsComplete : Prop :=
  ∀ (s : State) (dt : Nat) (l : Lane),
    Answers (.detectPoll dt l false) s (s.elapse dt).lines (fun u => u.laneRuns l && decide ((u.lane l).stage = .detect))
      (fun u => (u.modLane l fun x => { x with term := false }).tryTrain l)
    ∧ Answers (.detectPoll dt l true) s (s.elapse dt).lines (fun u => u.laneRuns l && decide ((u.lane l).stage = .detect))
      (fun u =>
        let v := u.abortSlice fun ty tg => decide (ty = 5) && decide (tg = l.num)
        (v.modLane l fun x => { x with term := true }).tryTrain l)
    ∧ Answers (.backoffExpiry dt l) s (s.elapse dt).lines (fun _ => true)
      (fun u => (u.modLane l fun x => { x with backoffRun := false }).tryTrain l)
    ∧ (∀ found, Answers (.rxReady dt l found) s (s.elapse dt).lines
        (fun u => u.adaptEnds (u.lane l) found && !(u.lane l).rxReady && decide ((u.lane l).stage = .train))
        fun u =>
          let y := (adaptAll (u.lane l) found.windows).headD (u.lane l)
          (u.setLane l { y with
            rxReady := true
            everTrained := true
            eyeH := found.eye.height
            eyeW := found.eye.width
            ctle := bestCtle found.ctleEyes
            offsets := found.offsets }).leaveTrain l)
    ∧ (∀ found, Answers (.rxReady dt l found) s (s.elapse dt).lines
        (fun u => u.adaptEnds (u.lane l) found && !(u.lane l).rxReady
          && decide ((u.lane l).stage = .active) && decide ((u.lane l).fwd = .l2))
        fun u => u.setLane l (tellReady l (adapted (u.lane l) found)))
    ∧ Answers (.trainTimeout dt l) s (s.elapse dt).lines (fun u => decide ((u.lane l).stage = .train)) (fun u => u.laneDown l 3)
    ∧ Answers (.lockTimeout dt l) s (s.elapse dt).lines (fun u => decide ((u.lane l).stage = .lock)) (fun u => u.laneDown l 4)
    ∧ Answers (.capsTimeout dt l) s (s.elapse dt).lines
        (fun u => decide ((u.lane l).stage = .caps) && decide (3 ≤ (u.lane l).tries + 1))
        (fun u => u.laneDown l 5)
    ∧ Answers (.capsTimeout dt l) s (s.elapse dt).lines
        (fun u => decide ((u.lane l).stage = .caps) && decide ((u.lane l).tries + 1 < 3))
        (fun u => u.setLane l { u.lane l with tries := (u.lane l).tries + 1, capsRx := false, capsTx := false })
    ∧ Answers (.lossOfSignal dt l) s (s.elapse dt).lines (fun u => (u.lane l).up && decide ((u.lane l).fwd = .l0))
        (fun u => u.laneDown l 1)
    ∧ Answers (.terminationLost dt l) s (s.elapse dt).lines (fun u => (u.lane l).up) (fun u => u.laneDown l 6)
    ∧ Answers (.trainTapMismatch dt l) s (s.elapse dt).lines
        (fun u => decide ((u.lane l).stage = .train) && !u.marked (17 + l.num)) (fun u => u.tapFails l)

/-- In service a lane adapts on a rich window and is frozen on a poor one; an eye scan leaves its
figures and acts on the fourth low scan of an eye; L2 resumes by training anew; an idle return goes
to its sleep level and comes back for a record, or where RET_POLICY is 0; a return that is not ready in time takes the
lane down. Model's choices in it: logs 9, 27. -/
def Obligations.LaneServiceEventsComplete : Prop :=
  ∀ (s : State) (dt : Nat) (l : Lane),
    (∀ w, Answers (.adaptWindowEnd dt l w) s (s.elapse dt).lines
      (fun u => decide ((u.lane l).stage = .active) && decide ((u.lane l).fwd = .l0)
        && decide (u.fld pRichMin 7 0 ≤ w.rich) && decide (u.fld pRichMin 15 8 ≤ w.trans))
      fun u => u.setLane l (adaptMove { u.lane l with rich := w.rich, trans := w.trans } w))
    ∧ (∀ w, Answers (.adaptWindowEnd dt l w) s (s.elapse dt).lines
        (fun u => decide ((u.lane l).stage = .active) && decide ((u.lane l).fwd = .l0)
          && !(decide (u.fld pRichMin 7 0 ≤ w.rich) && decide (u.fld pRichMin 15 8 ≤ w.trans)))
        fun u => (u.bump pAdaptFrozen 1).setLane l { u.lane l with
          rich := w.rich
          trans := w.trans
          frozen := satAdd 32 (u.lane l).frozen 1
          frozenLast := true })
    ∧ (∀ eye, Answers (.eyeScanDone dt l eye) s (s.elapse dt).lines
        (fun u => decide ((u.lane l).stage = .active) && decide ((u.lane l).fwd = .l0))
        fun u =>
          let x := u.lane l
          let low := (List.range 3).map fun k => if u.eyeLow eye k then x.lowScans.getD k 0 + 1 else 0
          let ok := (List.range 3).all fun k => !u.eyeLow eye k
          let v := u.setLane l { x with
            eyeH := eye.height
            eyeW := eye.width
            eyeAt := some u.clk
            lowScans := low
            reseatReq := x.reseatReq && !ok
            reseatTries := if ok then 0 else x.reseatTries
            noAsk := x.noAsk && !ok }
          match (List.range 3).find? fun k => 4 ≤ low.getD k 0 with
          | some k => v.eyeAction l k
          | none => v)
    ∧ Answers (.l2Resume dt l) s (s.elapse dt).lines
        (fun u => decide ((u.lane l).stage = .active) && decide ((u.lane l).fwd = .l2) && !u.pwr.linkOff)
        (fun u => u.setLane l { u.lane l with rxReady := false, trainStart := u.clk })
    ∧ (∀ pol, (pol = 1 ∨ pol = 2) → Answers (.returnIdleTimeout dt l) s (s.elapse dt).lines
        (fun u => decide ((u.lane l).stage = .active) && decide ((u.lane l).ret = .l0) && !(u.lane l).retTrain
          && !u.recordWaits && decide (u.fld pRetSleep 1 0 = pol))
        fun u =>
          let y := sendBlock (u.lane l) 0 false [BitVec.ofNat 8 pol]
          u.setLane l { y with ret := if pol = 1 then .l1 else .l2 })
    ∧ Answers (.returnResume dt l) s (s.elapse dt).lines
        (fun u => decide ((u.lane l).stage = .active) && (u.recordWaits || decide (u.fld pRetSleep 1 0 = 0))
          && !(u.lane l).retTrain && decide (u.pwr.state ≠ .standby) && decide ((u.lane l).ret = .l1))
        (fun u => (u.setLane l { sendLast l (sendPrbs (u.lane l) 800) with ret := .l0, retIdleAt := u.clk }).joinReturn l)
    ∧ Answers (.returnResume dt l) s (s.elapse dt).lines
        (fun u => decide ((u.lane l).stage = .active) && (u.recordWaits || decide (u.fld pRetSleep 1 0 = 0))
          && !(u.lane l).retTrain && decide (u.pwr.state ≠ .standby) && decide ((u.lane l).ret = .l2))
        (fun u => u.setLane l { u.lane l with retTrain := true, retReady := false, retrainAt := u.clk })
    ∧ Answers (.retReadyTimeout dt l) s (s.elapse dt).lines
        (fun u => decide ((u.lane l).stage = .active) && (u.lane l).retTrain) (fun u => u.laneDown l 9)

/-- A string period samples and then runs the four channels; an open position is bypassed when its
voltage passes the limit while its switch is open; a Crest tick runs the eight engines. Model's choices in it: logs 9, 26. -/
def Obligations.StringEventsComplete : Prop :=
  ∀ (s : State) (dt : Nat),
    (∀ l, After (.stringPeriodStart dt l) dt s (fun u => u.frm.running)
      fun u =>
        let v := u.sampleAll l
        (List.range 4).foldl (fun w n => w.chanPeriod n) { v with str := { v.str with startClk := v.clk } })
    ∧ (∀ (pos : Fin 64) (mv : Nat), After (.openDetected dt pos mv) dt s
        (fun u => (u.chan (pos.val / 16)).en && decide (pos.val % 16 < (u.chan (pos.val / 16)).count)
          && !((u.chan (pos.val / 16)).at_ (pos.val % 16)).opened
          && ((u.chan (pos.val / 16)).at_ (pos.val % 16)).isOpen (pos.val % 16) u.strStep && decide (u.vOpenMv < mv))
        fun u => u.markOpen (pos.val / 16) (pos.val % 16) mv)
    ∧ After (.crestTick dt) dt s (fun _ => true) (fun u => (List.range 8).foldl (fun v i => v.crestTick i) u)

/-- Temperature inputs act while the monitors run: the NTC inputs that are enabled and the derating of
the four channels, the twenty readings with the sixteen voltages, the return from thermal shutdown,
the relaxation of TF towards its target, and the factory correction, one LSB at a time. Model's
choices in it: logs 9, 32. -/
def Obligations.ThermalEventsComplete : Prop :=
  ∀ (s : State) (dt : Nat),
    (∀ a b, After (.ntcUpdate dt a b) dt s (fun u => u.monitors && decide (a < 4096) && decide (b < 4096)) fun u =>
      let v := if u.flag pThermCtrl 2 then u.ntcInput 20 a else u
      let w := if v.flag pThermCtrl 3 then v.ntcInput 21 b else v
      (List.range 4).foldl (fun x n => x.derate n) w)
    ∧ (∀ r v, r.length = 20 → v.length = 16 → After (.thermalUpdate dt r v) dt s (fun u => u.monitors)
        fun u => u.thermalUpdate r v)
    ∧ After (.thermalResume dt) dt s
        (fun u => decide (3 ≤ u.thm.level) && u.coolFor1s)
        (fun u => u.thermalResume)
    ∧ After (.thermalRelax dt) dt s
        (fun u => u.monitors && !u.substituting && decide (u.thm.tf < u.thm.tfTarget))
        (fun u => { u with thm := { u.thm with
          tf := min u.thm.tfTarget (u.thm.tf + u.fld pThermRise 23 16) } })
    ∧ After (.factoryCorrection dt) dt s (fun u => u.monitors && !u.thm.factoryBad)
        (fun u => { u with thm := { u.thm with
          bandgap := clampI (u.thm.bandgap - 1) (u.thm.bandgap + 1) (tableAt Config.bandgapTable u.coreTemp)
          sleepPpm := tableAt Config.sleepTimerTable u.coreTemp } })
    ∧ After (.factoryCorrection dt) dt s (fun u => u.monitors && u.thm.factoryBad)
        (fun u => { u with thm := { u.thm with
          bandgap := clampI (u.thm.bandgap - 1) (u.thm.bandgap + 1) 0
          sleepPpm := 0 } })

/-- Talus reads its next line of either memory while that scrub is enabled, and repairs the front of its
queue; a line write of MRAM ends, and so does a journal line while it is not inhibited; the class-0
record of a ring closes; a CVU run ends. Model's choices in it: logs 9, 28. -/
def Obligations.MemoryEventsComplete : Prop :=
  ∀ (s : State) (dt : Nat),
    (∀ o, After (.talusRead dt true o) dt s (fun u => u.talusOn && u.flag pScrubCtrl 1) fun u => u.talusMram o)
    ∧ (∀ o, After (.talusRead dt false o) dt s (fun u => u.talusOn && u.flag pScrubCtrl 0)
        fun u => u.talusSram o)
    ∧ (∀ b, After (.repaired dt b) dt s (fun u => u.talusOn) fun u => u.repairFront b)
    ∧ (∀ b, After (.mramLineWrite dt b) dt s (fun _ => true) fun u => (u.lineWritten b).negoTick)
    ∧ (∀ b, After (.journalLineWrite dt b) dt s (fun u => !u.thm.jInhibit)
        fun u => (u.journalWritten b).negoTick)
    ∧ (∀ (p : Port) (r : Fin 8) (w : Window), After (.coalesceWindowClose dt p r) dt s
        (fun u => decide ((u.jrn.windows.find? fun x => decide (x.port = p) && decide (x.ring = r.val)) = some w)
          && u.windowOver w)
        fun u => u.closeWindow w)
    ∧ (∀ (k : Fin 4) (ups : Upsets), After (.cvuDone dt k ups) dt s (fun _ => true)
        fun u => ((u.arise ups).cvuDone k.val).negoTick)

/-- A self-test slice starts when one is due; a slice ends with the results of its segments, of as many as fit, a budget
engine's with one for each engine; a bank that has migrated is in service. Model's choices in it:
logs 9, 31. -/
def Obligations.SelfTestEventsComplete : Prop :=
  ∀ (s : State) (dt : Nat),
    After (.bistSliceStart dt) dt s (fun _ => true) (fun u => u.sliceDue)
    ∧ (∀ (ty tg : Nat) (r : SegResult) (l : List SegResult), After (.sliceEnd dt (r :: l)) dt s
        (fun u => decide (u.bist.slice = some (ty, tg)) && decide (ty ≠ 4))
        fun u => u.sliceOver.segsEnd ty tg ((r :: l).take (max 1 (u.sliceOver.segsFit ty))))
    ∧ (∀ (tg : Nat) (r : SegResult) (l : List SegResult), After (.sliceEnd dt (r :: l)) dt s
        (fun u => decide (u.bist.slice = some (4, tg))) fun u => u.sliceOver.govEnds r (l.headD r))
    ∧ (∀ k, After (.bankMigrated dt) dt s (fun u => decide (u.bist.migrating = some k)) fun u => u.migrated k)

/-- The resets of the supply, the pins and the test port, and the stages of power-up: each takes the
engine where R325 to R329 and R44 send it. Model's choices in it: logs 9, 33. -/
def Obligations.ResetEventsComplete : Prop :=
  ∀ (s : State) (dt : Nat),
    (∀ rail, After (.supplyTrip dt rail) dt s
      (fun u => decide (u.pwr.state ≠ .dormant) && !u.supplyHolds && decide (u.pwr.boot ≠ .held)) fun u =>
        let v := u.fullReset .held 5 7
        { v with pwr := { v.pwr with supply := some (rail, v.clk), supplyMs := none } })
    ∧ (∀ rail, After (.supplyTrip dt rail) dt s
        (fun u => decide (u.pwr.state ≠ .dormant) && !u.supplyHolds && decide (u.pwr.boot = .held))
        fun u => { u with pwr := { u.pwr with supply := some (rail, u.clk), supplyMs := none } })
    ∧ (∀ (rail : Rail) (t : Nat), After (.supplyMonitorRecovery dt) dt s
        (fun u => decide (u.pwr.supply = some (rail, t)) && u.supplyHolds)
        fun u => State.letGo { u with pwr := { u.pwr with supplyMs := some ((u.clk - t) / 1000000) } })
    ∧ After (.vaonPowerOn dt) dt s (fun _ => true) (fun u =>
        let v := u.fullReset (if u.pwr.resetLow then .held else .regulator) 6 0
        { v with
          jtag := 2
          boundary := 0
          tapHold := false
          pwr := { v.pwr with
            fault := 0
            failedUps := false
            supply := none
            supplyMs := none
            tickNs := 1000000
            ppmEntry := 0 } })
    ∧ After (.resetnAssert dt) dt s (fun _ => true) (fun u =>
        let v := u.fullReset .held 4 1
        { v with pwr := { v.pwr with resetLow := true } })
    ∧ After (.resetnRelease dt) dt s (fun _ => true)
        (fun u => State.letGo { u with pwr := { u.pwr with resetLow := false } })
    ∧ After (.powerupStageReady dt) dt s (fun u => decide (stageOf u.pwr.boot ≠ 0)) (fun u => u.stageReady)
    ∧ (∀ d : Byte, After (.powerupStageTimeout dt d) dt s (fun u => decide (stageOf u.pwr.boot ≠ 0))
        fun u => u.stageTimeout d.toNat)
    ∧ (∀ dac cmp, After (.stepTrimsDone dt dac cmp) dt s
        (fun u => (decide (u.pwr.boot = .trims) || u.pwr.trimming) && decide (u.pwr.state = .active) && !u.fw.noImage)
        fun u => u.trimsDone dac cmp)
    ∧ (∀ code, tapHolds code = true → After (.jtagInstructionUpdate dt code) dt s (fun u => !u.tapHold)
        fun u => { u.fullReset .held 4 1 with jtag := code, tapHold := true })
    ∧ (∀ code, tapHolds code = false → After (.jtagInstructionUpdate dt code) dt s (fun _ => true)
        fun u => { u with jtag := code })
    ∧ After (.testLogicReset dt) dt s (fun u => u.tapHold)
        (fun u => State.letGo { u.fullReset .held 4 1 with jtag := 2, tapHold := false })
    ∧ After (.testLogicReset dt) dt s (fun u => !u.tapHold) (fun u => { u with jtag := 2 })

/-- A lost reference makes the time INVALID, raises CLOCK_LOSS and adds cause 9, and its return ends that; the three wake
sources, a lane's only where its envelope is one that R329 accepts, a quiesce timeout, the sleep entry, the stored stress, the measured clock figures and a
SET_TIME whose edge does not come do what R330 to R343 give them. Model's choices in it: logs 9, 15,
33. -/
def Obligations.PowerEventsComplete : Prop :=
  ∀ (s : State) (dt : Nat),
    After (.referenceLoss dt) dt s
      (fun u => u.pwr.oscLost.isNone && u.logicUp && decide (u.pwr.state ≠ .dormant))
      (fun u => (State.evt { u with
        pwr := { u.pwr with time := .invalid, oscLost := some u.clk }
        diag := { u.diag with clockAt := u.clk } } 0x0606 3 0xFF 0 0 0 u.frm.frame.toNat).addCause 9)
    ∧ (∀ n, After (.clockRestored dt n) dt s (fun u => u.pwr.oscLost.isSome) fun u => u.clockBack n)
    ∧ After (.wakeLand dt) dt s (fun _ => true) (fun u => u.wakeUp 0 3)
    ∧ (∀ env, After (.laneWake dt ⟨.a, env⟩) dt s (fun u => u.laneHeard env) (fun u => u.wakeUp 1 4))
    ∧ (∀ env, After (.laneWake dt ⟨.b, env⟩) dt s (fun u => u.laneHeard env) (fun u => u.wakeUp 2 5))
    ∧ (∀ l env, After (.laneWake dt ⟨l, env⟩) dt s (fun u => !u.laneHeard env) (fun u => u))
    ∧ After (.sleepTimerWake dt) dt s (fun _ => true) (fun u => u.wakeUp 3 6)
    ∧ (∀ b, After (.quiesceTimeout dt b) dt s (fun _ => true) fun u => u.quiesceTimeout b)
    ∧ (∀ n : Nego, After (.sleepEntry dt) dt s (fun u => decide (u.pwr.nego = some n) && decide (n.block = 9))
        fun u => u.enterSleep n)
    ∧ After (.stressStore dt) dt s (fun u => decide (u.pwr.state = .active)) (fun u => u.storeStress)
    ∧ (∀ n, After (.tExitMeasured dt n) dt s (fun _ => true) fun u => u.exitMeasured n)
    ∧ (∀ n, After (.tickPeriodMeasured dt n) dt s
        (fun u => decide (u.pwr.state ≠ .dormant) && u.pwr.oscLost.isNone && decide (u.pwr.boot ≠ .held)
          && decide (u.pwr.boot ≠ .regulator) && decide (u.pwr.boot ≠ .oscillator))
        fun u => { u with pwr := { u.pwr with tickNs := n % 2 ^ 32 } })
    ∧ After (.setTimeEdgeTimeout dt) dt s (fun _ => true)
        (fun u => u.edgeTimeouts fun h => decide (u.edgeWait ≤ u.clk - h.since))

/-- A watchdog expiry, a lockstep mismatch and a failed fetch of code or data from the sequencer's region restart the sequencer with
causes 1, 2 and 3; the end of a restart hold lets it start; the recovery pass, the pipeline's
reinitialisation and the self-check of an activated image end. Model's choices in it: logs 9, 29,
30. -/
def Obligations.RecoveryEventsComplete : Prop :=
  ∀ (s : State) (dt : Nat),
    After (.watchdogExpiry dt) dt s (fun u => u.seqRuns) (fun u => u.restartDue 1)
    ∧ After (.lockstepMismatch dt) dt s (fun u => u.seqRuns) (fun u => u.restartDue 2)
    ∧ (∀ a, regionOf (lineOf a) = 8 → After (.instructionFetchFault dt a) dt s (fun u => u.seqRuns)
        fun u => (u.lineLost (lineOf a) (if u.codeLine (lineOf a) then 3 else 4)).restartDue 3)
    ∧ (∀ a, regionOf (lineOf a) ≠ 8 → After (.instructionFetchFault dt a) dt s (fun u => u.seqRuns)
        fun u => u.restartDue 3)
    ∧ After (.restartHoldExpiry dt) dt s (fun u => u.holdOver)
        (fun u => u.seqRestart 0 u.jrn.restartCause)
    ∧ After (.recoveryPass dt) dt s (fun u => u.jrn.recover && u.seqRuns && !u.fw.noImage && !u.fw.starting)
        (fun u => u.recoveryPass)
    ∧ After (.pipelineReinitDone dt) dt s (fun u => u.jrn.pipeBusy) (fun u => u.pipeReinit)
    ∧ After (.fwSelfCheckPassed dt) dt s (fun u => u.fw.selfCheck) (fun u => u.selfCheckPassed)
    ∧ After (.fwSelfCheckTimeout dt) dt s (fun u => u.fw.selfCheck) (fun u => u.selfCheckFails)
end

