-- ==== Sys2Proof/Laws/Command.lean ====
section
/-! SUPPORT. What serving a packet does once its checks have passed: one lemma for the path of R42,
one for each way in which a command's entry and reply are made. -/

namespace Sys2Proof.Machine

/-- A packet that passes its checks is executed on the state after step 6, with its own parameters. -/
theorem serveOp_passes {op : Nat} {d : OpDef} {p : Pkt} {s : State} (h : passes op d p s = true) :
    serveOp op d p false s
      = (authOf op p s).execute op d (ownOf op p s) (ownOf op p s).params false := by
  simp only [passes, Bool.and_eq_true, Bool.not_eq_true', Bool.or_eq_true, decide_eq_true_eq,
    Option.isNone_iff_eq_none] at h
  obtain ⟨⟨⟨⟨⟨hp, ht⟩, ha⟩, hc⟩, hl⟩, hg⟩ := h
  obtain ⟨body, hb⟩ := Option.isSome_iff_exists.mp ha
  have hs : ¬(p.cls ≠ 0 ∧ opPermitted op p.cls = true ∧ (!s.canStart d p) = true) := by
    rintro ⟨h0, -, hn⟩
    cases hc with
    | inl h => exact h0 h
    | inr h => simp [h] at hn
  have hq : ownOf op p s = { p with params := body } := by simp [ownOf, hb]
  have hu : (authOf op p s).layoutBad d p { p with params := body } = none := by
    rw [hq] at hl
    exact hl
  have hg' : d.gate { p with params := body } (authOf op p s) = none := by
    rw [hq] at hg
    exact hg
  have hf : serveOp op d p false s = runOp op d p false s := by
    unfold serveOp
    exact if_neg hs
  rw [hf, hq]
  unfold runOp
  rw [if_neg (by simp [hp])]
  simp only [hb, ht]
  simp only [authOf] at hu hg' ⊢
  simp [hu, hg']

/-- A packet that passes its checks has its opcode's layout. -/
theorem passes_len {op : Nat} {d : OpDef} {p : Pkt} {s : State} (h : passes op d p s = true) :
    d.len (ownOf op p s) = true := by
  simp only [passes, Bool.and_eq_true, Option.isNone_iff_eq_none] at h
  have hl := h.1.2
  unfold State.layoutBad at hl
  cases hc : d.len (ownOf op p s) with
  | true => rfl
  | false =>
    rw [if_pos (Or.inl (by simp [hc]))] at hl
    cases hl

/-- A packet that passes its checks at once has TIMED clear. -/
theorem passes_timed {op : Nat} {d : OpDef} {p : Pkt} {s : State} (h : passes op d p s = true) :
    p.timed = false := by
  simp only [passes, Bool.and_eq_true, Bool.not_eq_true'] at h
  exact h.1.1.1.1.2

/-- The packet as its opcode sees it holds a first part of the parameters. -/
theorem ownOf_params (op : Nat) (p : Pkt) (s : State) : ∃ n, (ownOf op p s).params = p.params.take n := by
  unfold ownOf State.authenticate
  dsimp only
  split
  · exact ⟨p.params.length, by simp⟩
  · split
    · split <;> exact ⟨p.params.length, by simp⟩
    · split
      · exact ⟨_, rfl⟩
      · split <;> exact ⟨p.params.length, by simp⟩

/-- A byte that a row of the table fixes is what it fixes, wherever the packet has that byte. -/
theorem ownOf_fix {op off : Nat} {v : Byte} {p : Pkt} {s : State}
    (ht : p.timed = false) (h : off - 16 < (ownOf op (p.fix off v) s).params.length) :
    (ownOf op (p.fix off v) s).u8 off = v.toNat := by
  have ho : p.ownOff off = off := by simp [Pkt.ownOff, ht]
  obtain ⟨n, hn⟩ := ownOf_params op (p.fix off v) s
  rw [hn] at h
  have h' := h
  simp only [Pkt.fix, ho, List.length_take, List.length_set, Nat.lt_min] at h'
  unfold Pkt.u8 byteAt
  rw [hn]
  simp [Pkt.fix, ho, h'.1, h'.2]

/-- What the arm of a served command answers once its packet has passed its checks. -/
theorem exec_passes {c : Instr} {op : Nat} {d : OpDef} {p : Pkt} {s t : State}
    (hc : exec c s = .next (serveOp op d p false s)) (h : passes op d p s = true)
    (he : (authOf op p s).execute op d (ownOf op p s) (ownOf op p s).params false = t) :
    exec c s = .next t := by
  rw [hc, serveOp_passes h, he]

/-- A command that is not journaled: its effect, and the reply. -/
theorem execute_answered {op : Nat} {d : OpDef} {q : Pkt} {u : State} {eff : State → State × List Word}
    (hj : d.jnl q = 0)
    (hr : ∀ j, d.run j q u = { s := (eff u).1, results := (eff u).2 }) :
    u.execute op d q q.params false = (eff u).1.answered op q (eff u).2 := by
  simp [State.execute, State.answered, hj, hr]

/-- A command journaled on request or always, that ends at once. -/
theorem execute_journaled {op : Nat} {d : OpDef} {q : Pkt} {u : State} {b : Bool}
    {eff : State → State × List Word} (hb : b = (decide (d.jnl q = 2) || q.durable))
    (hj : d.jnl q = 1 ∨ d.jnl q = 2)
    (hr : d.run (u.entered op q b).2 q (u.entered op q b).1
      = { s := (eff (u.entered op q b).1).1
          results := (eff (u.entered op q b).1).2 }) :
    u.execute op d q q.params false = u.journaled op q b eff := by
  subst hb
  cases hj with
  | inl h => cases hd : q.durable <;> simp [State.entered, h, hd] at hr <;> simp [State.execute, State.journaled, State.entered, h, hr, hd]
  | inr h => simp [State.entered, h] at hr; simp [State.execute, State.journaled, State.entered, h, hr]

/-- A journaled command whose own check fails. -/
theorem execute_failed {op : Nat} {d : OpDef} {q : Pkt} {u : State} {b : Bool} {st : Nat}
    {eff : State → State} (hb : b = (decide (d.jnl q = 2) || q.durable))
    (hj : d.jnl q = 1 ∨ d.jnl q = 2) (hs : st ≠ stAccepted)
    (hr : d.run (u.entered op q b).2 q (u.entered op q b).1
      = { s := eff (u.entered op q b).1, status := st, step := 0 }) :
    u.execute op d q q.params false = u.failed op q b st eff := by
  subst hb
  cases hj with
  | inl h =>
    cases hd : q.durable <;> simp [State.entered, h, hd] at hr
      <;> simp [State.execute, State.failed, State.entered, h, hr, hd, hs]
  | inr h => simp [State.entered, h] at hr; simp [State.execute, State.failed, State.entered, h, hr, hs]

/-- A class-0 command. -/
theorem execute_coalesced {op : Nat} {d : OpDef} {q : Pkt} {u : State} {eff : State → State × List Word}
    (hj : d.jnl q = 3)
    (hr : d.run (u.coalesce op q).2 q (u.coalesce op q).1
      = { s := (eff (u.coalesce op q).1).1, results := (eff (u.coalesce op q).1).2 }) :
    u.execute op d q q.params false = u.coalesced op q eff := by
  simp [State.execute, State.coalesced, hj, hr]

/-- A command that replies ACCEPTED and goes on, its first step begun or not. -/
theorem execute_begunAs {op : Nat} {d : OpDef} {q : Pkt} {u : State} {b g : Bool} {kind : Word → JobKind}
    {steps total : Nat} {eff : State → State} (hb : b = (decide (d.jnl q = 2) || q.durable))
    (hj : d.jnl q = 1 ∨ d.jnl q = 2)
    (hr : d.run (u.entered op q b).2 q (u.entered op q b).1
      = { (eff (u.entered op q b).1).startJob (kind (u.entered op q b).2) op q (u.entered op q b).2 steps with
          steps := total
          begun := g }) :
    u.execute op d q q.params false = u.begunAs (if g then 2 else 1) op q b kind steps total eff := by
  subst hb
  cases hj with
  | inl h =>
    cases hd : q.durable <;> simp [State.entered, h, hd] at hr
      <;> cases g <;> simp [State.execute, State.begunAs, State.entered, State.jOpen, State.startJob, h, hr, hd]
  | inr h =>
    simp [State.entered, h] at hr
    cases g <;> simp [State.execute, State.begunAs, State.entered, State.jOpen, State.startJob, h, hr]

/-- A command that replies ACCEPTED and goes on. -/
theorem execute_begun {op : Nat} {d : OpDef} {q : Pkt} {u : State} {b : Bool} {kind : Word → JobKind}
    {steps total : Nat} {eff : State → State} (hb : b = (decide (d.jnl q = 2) || q.durable))
    (hj : d.jnl q = 1 ∨ d.jnl q = 2)
    (hr : d.run (u.entered op q b).2 q (u.entered op q b).1
      = { (eff (u.entered op q b).1).startJob (kind (u.entered op q b).2) op q (u.entered op q b).2 steps with
          steps := total }) :
    u.execute op d q q.params false = u.begun op q b kind steps total eff :=
  execute_begunAs (g := false) hb hj hr

/-- A command whose reply is held. -/
theorem execute_opened {op : Nat} {d : OpDef} {q : Pkt} {u : State} {b : Bool} {eff : Word → State → State}
    (hb : b = (decide (d.jnl q = 2) || q.durable)) (hj : d.jnl q = 1 ∨ d.jnl q = 2)
    (hr : d.run (u.entered op q b).2 q (u.entered op q b).1
      = { s := eff (u.entered op q b).2 (u.entered op q b).1, step := 0, replies := false }) :
    u.execute op d q q.params false = u.opened op q b eff := by
  subst hb
  cases hj with
  | inl h => cases hd : q.durable <;> simp [State.entered, h, hd] at hr <;> simp [State.execute, State.opened, State.entered, State.jOpen, h, hr, hd]
  | inr h => simp [State.entered, h] at hr; simp [State.execute, State.opened, State.entered, State.jOpen, h, hr]

end Sys2Proof.Machine
end

