-- ==== Sys2Proof/Laws/Tab.lean ====
section
/-! SUPPORT. The laws of the sparse tables: what a table reads as after each change, that each change
keeps the canonical form, and that equal readings are equal data (DESIGN CHOICE, log 1). -/

namespace Sys2Proof

/-- Dropping an entry gives the default there, and nothing else changes. -/
theorem tget_tdel {α : Type} (d : Nat → α) (t : Tab α) (k j : Nat) :
    tget d (tdel t k) j = if j = k then d j else tget d t j := by
  induction t with
  | nil => simp [tdel, tget]
  | cons e r ih =>
    obtain ⟨i, w⟩ := e
    by_cases h : i = k
    · subst h
      by_cases hj : j = i
      · subst hj; simp [tdel, ih]
      · simp [tdel, ih, tget, hj, Ne.symm hj]
    · by_cases hj : j = k
      · subst hj; simp [tdel, tget, h, ih]
      · simp [tdel, tget, h, hj, ih]

/-- A value put in reads back, and nothing else changes. -/
theorem tget_tins {α : Type} (d : Nat → α) (t : Tab α) (k j : Nat) (v : α) :
    tget d (tins t k v) j = if j = k then v else tget d t j := by
  induction t with
  | nil =>
    by_cases hj : j = k
    · subst hj; simp [tins, tget]
    · simp [tins, tget, hj, Ne.symm hj]
  | cons e r ih =>
    obtain ⟨i, w⟩ := e
    unfold tins
    split
    · by_cases hj : j = k
      · subst hj; simp [tget]
      · simp [tget, hj, Ne.symm hj]
    · split
      · rename_i h; subst h
        by_cases hj : j = k
        · subst hj; simp [tget]
        · simp [tget, hj, Ne.symm hj]
      · rename_i h
        by_cases hj : j = k
        · subst hj; simp [tget, ih, Ne.symm h]
        · simp [tget, ih, hj]

/-- A value written reads back, and nothing else changes. -/
theorem tget_tput {α : Type} [DecidableEq α] (d : Nat → α) (t : Tab α) (k j : Nat) (v : α) :
    tget d (tput d t k v) j = if j = k then v else tget d t j := by
  unfold tput
  split
  · rename_i h; rw [tget_tdel]; split
    · rename_i hj; rw [h, hj]
    · rfl
  · exact tget_tins d t k j v

/-- A run of values written reads back, and nothing else changes. -/
theorem tget_tputs {α : Type} [DecidableEq α] (d : Nat → α) (l : List α) (t : Tab α) (k j : Nat) :
    tget d (tputs d t k l) j = if k ≤ j then (l[j - k]?).getD (tget d t j) else tget d t j := by
  induction l generalizing t k with
  | nil => simp [tputs]
  | cons v vs ih =>
    rw [tputs, ih, tget_tput]
    by_cases h1 : k + 1 ≤ j
    · have h2 : k ≤ j := by omega
      have h3 : j - k = (j - (k + 1)) + 1 := by omega
      rw [if_pos h1, if_pos h2, if_neg (by omega), h3]
      simp
    · rw [if_neg h1]
      by_cases h2 : j = k
      · subst h2; simp
      · rw [if_neg h2, if_neg (by omega)]

/-! ### The canonical form -/

/-- The form, entry by entry. -/
theorem twfFrom_cons {α : Type} [DecidableEq α] {d : Nat → α} {lo : Option Nat} {i : Nat} {v : α} {r : Tab α} :
    twfFrom d lo ((i, v) :: r) = true
      ↔ (∀ a, lo = some a → a < i) ∧ v ≠ d i ∧ twfFrom d (some i) r = true := by
  cases lo <;> simp [twfFrom, and_assoc]

/-- A bound below the first number may be lowered. -/
theorem twfFrom_weaken {α : Type} [DecidableEq α] {d : Nat → α} {lo : Option Nat} {b : Nat} {t : Tab α}
    (h : ∀ a, lo = some a → a ≤ b) (w : twfFrom d (some b) t = true) : twfFrom d lo t = true := by
  cases t with
  | nil => rfl
  | cons e r =>
    obtain ⟨i, v⟩ := e
    rw [twfFrom_cons] at w ⊢
    exact ⟨fun a ha => Nat.lt_of_le_of_lt (h a ha) (w.1 b rfl), w.2⟩

/-- Dropping an entry keeps the form. -/
theorem twfFrom_tdel {α : Type} [DecidableEq α] {d : Nat → α} (t : Tab α) (lo : Option Nat) (k : Nat)
    (w : twfFrom d lo t = true) : twfFrom d lo (tdel t k) = true := by
  induction t generalizing lo with
  | nil => rfl
  | cons e r ih =>
    obtain ⟨i, v⟩ := e
    rw [twfFrom_cons] at w
    unfold tdel
    split
    · exact ih lo (twfFrom_weaken (fun a ha => Nat.le_of_lt (w.1 a ha)) w.2.2)
    · exact twfFrom_cons.mpr ⟨w.1, w.2.1, ih _ w.2.2⟩

/-- Putting in a value that is not the default keeps the form. -/
theorem twfFrom_tins {α : Type} [DecidableEq α] {d : Nat → α} (t : Tab α) (lo : Option Nat) (k : Nat) (v : α)
    (hv : v ≠ d k) (hk : ∀ a, lo = some a → a < k) (w : twfFrom d lo t = true) :
    twfFrom d lo (tins t k v) = true := by
  induction t generalizing lo with
  | nil => exact twfFrom_cons.mpr ⟨hk, hv, rfl⟩
  | cons e r ih =>
    obtain ⟨i, x⟩ := e
    have w' := twfFrom_cons.mp w
    unfold tins
    split
    · rename_i h
      exact twfFrom_cons.mpr ⟨hk, hv, twfFrom_cons.mpr ⟨fun a ha => by cases ha; exact h, w'.2⟩⟩
    · split
      · rename_i h
        exact twfFrom_cons.mpr ⟨hk, hv, by rw [h]; exact w'.2.2⟩
      · exact twfFrom_cons.mpr ⟨w'.1, w'.2.1, ih (some i) (fun a ha => by cases ha; omega) w'.2.2⟩

/-- A write keeps the canonical form. -/
theorem twf_tput {α : Type} [DecidableEq α] {d : Nat → α} {t : Tab α} (k : Nat) (v : α) (w : twf d t = true) :
    twf d (tput d t k v) = true := by
  unfold tput
  split
  · exact twfFrom_tdel t none k w
  · rename_i h; exact twfFrom_tins t none k v h (fun _ h => by cases h) w

/-- A run of writes keeps the canonical form. -/
theorem twf_tputs {α : Type} [DecidableEq α] {d : Nat → α} (l : List α) (t : Tab α) (k : Nat) (w : twf d t = true) :
    twf d (tputs d t k l) = true := by
  induction l generalizing t k with
  | nil => exact w
  | cons v vs ih => exact ih _ _ (twf_tput k v w)

/-- Below its bound a table in canonical form lists nothing. -/
theorem tget_below {α : Type} [DecidableEq α] {d : Nat → α} (t : Tab α) (a j : Nat) (w : twfFrom d (some a) t = true)
    (h : j ≤ a) : tget d t j = d j := by
  induction t generalizing a with
  | nil => rfl
  | cons e r ih =>
    obtain ⟨i, v⟩ := e
    rw [twfFrom_cons] at w
    simp only [tget, if_neg (show ¬ i = j by have := w.1 a rfl; omega)]
    exact ih i w.2.2 (by have := w.1 a rfl; omega)

/-- Tables in canonical form that read alike are the same data. -/
theorem tab_ext {α : Type} [DecidableEq α] {d : Nat → α} (t u : Tab α) (lo : Option Nat)
    (wt : twfFrom d lo t = true) (wu : twfFrom d lo u = true) (h : ∀ k, tget d t k = tget d u k) : t = u := by
  induction t generalizing u lo with
  | nil =>
    cases u with
    | nil => rfl
    | cons e r =>
      obtain ⟨i, v⟩ := e
      rw [twfFrom_cons] at wu
      have := h i
      simp only [tget, if_true] at this
      exact absurd this.symm wu.2.1
  | cons e r ih =>
    obtain ⟨i, v⟩ := e
    rw [twfFrom_cons] at wt
    cases u with
    | nil =>
      have := h i
      simp only [tget, if_true] at this
      exact absurd this wt.2.1
    | cons e' r' =>
      obtain ⟨j, w⟩ := e'
      rw [twfFrom_cons] at wu
      have hij : i = j := by
        rcases Nat.lt_trichotomy i j with g | g | g
        · have := h i
          simp only [tget, if_true, if_neg (show ¬ j = i by omega)] at this
          rw [tget_below r' j i wu.2.2 (by omega)] at this
          exact absurd this wt.2.1
        · exact g
        · have := h j
          simp only [tget, if_true, if_neg (show ¬ i = j by omega)] at this
          rw [tget_below r i j wt.2.2 (by omega)] at this
          exact absurd this.symm wu.2.1
      subst hij
      have hv : v = w := by have := h i; simpa [tget] using this
      subst hv
      congr 1
      refine ih r' (some i) wt.2.2 wu.2.2 fun k => ?_
      have hk := h k
      by_cases hik : i = k
      · subst hik
        rw [tget_below r i i wt.2.2 (Nat.le_refl _), tget_below r' i i wu.2.2 (Nat.le_refl _)]
      · simpa [tget, hik] using hk

end Sys2Proof
end

