-- ==== Sys2Proof/Laws/Memory.lean ====
section
/-! SUPPORT. The laws of the two memories: a write is read back, leaves every other byte alone, and
keeps the canonical form; making lines whole changes no byte. -/

namespace Sys2Proof.Machine

/-- A byte of a list, where it has one. -/
theorem byteAt_getElem? (l : List Byte) (i : Nat) (h : i < l.length) (x : Byte) : (l[i]?).getD x = byteAt l i := by
  simp [byteAt, h]

/-- What is written to SRAM is read back, and every other byte stays. -/
theorem setSram_sram (s : State) (a b : Nat) (l : List Byte) :
    (s.setSram a l).sram b = if a ≤ b ∧ b < a + l.length then byteAt l (b - a) else s.sram b := by
  show tget sramDef (tputs sramDef s.mem.sram a l) b = _
  rw [tget_tputs]
  by_cases h : a ≤ b
  · rw [if_pos h]
    by_cases g : b < a + l.length
    · rw [if_pos ⟨h, g⟩, byteAt_getElem? l _ (by omega)]
    · rw [if_neg (fun c => g c.2), List.getElem?_eq_none (by omega)]
      rfl
  · rw [if_neg h, if_neg (fun c => h c.1)]
    rfl

/-- What is written to MRAM is read back, and every other byte stays. -/
theorem setMram_mram (s : State) (a b : Nat) (l : List Byte) :
    (s.setMram a l).mram b = if a ≤ b ∧ b < a + l.length then byteAt l (b - a) else s.mram b := by
  show tget mramDef (tputs mramDef s.mem.mram a l) b = _
  rw [tget_tputs]
  by_cases h : a ≤ b
  · rw [if_pos h]
    by_cases g : b < a + l.length
    · rw [if_pos ⟨h, g⟩, byteAt_getElem? l _ (by omega)]
    · rw [if_neg (fun c => g c.2), List.getElem?_eq_none (by omega)]
      rfl
  · rw [if_neg h, if_neg (fun c => h c.1)]
    rfl

/-- A write of SRAM changes no byte of MRAM. -/
@[simp] theorem setSram_mram (s : State) (a b : Nat) (l : List Byte) : (s.setSram a l).mram b = s.mram b := rfl
/-- A write of MRAM changes no byte of SRAM. -/
@[simp] theorem setMram_sram (s : State) (a b : Nat) (l : List Byte) : (s.setMram a l).sram b = s.sram b := rfl

/-- Making lines whole changes no byte. -/
@[simp] theorem wholeWritten_bytes (s : State) (f : Nat → Bool) :
    (s.wholeWritten f).mem.sram = s.mem.sram ∧ (s.wholeWritten f).mem.mram = s.mem.mram := ⟨rfl, rfl⟩

/-- Making a line whole changes no byte. -/
@[simp] theorem lineWhole_bytes (s : State) (a : Nat) :
    (s.lineWhole a).mem.sram = s.mem.sram ∧ (s.lineWhole a).mem.mram = s.mem.mram := ⟨rfl, rfl⟩

/-- A host's, video's or the sequencer's write of SRAM leaves the two memories as the bytes written. -/
theorem writeSram_bytes (s : State) (a : Nat) (l : List Byte) :
    (s.writeSram a l).mem.sram = tputs sramDef s.mem.sram a l ∧ (s.writeSram a l).mem.mram = s.mem.mram := ⟨rfl, rfl⟩

/-- A verified write of MRAM leaves the two memories as the bytes written. -/
theorem writeMram_bytes (s : State) (a : Nat) (l : List Byte) :
    (s.writeMram a l).mem.mram = tputs mramDef s.mem.mram a l ∧ (s.writeMram a l).mem.sram = s.mem.sram := ⟨rfl, rfl⟩

/-- The canonical form depends on the two memories alone. -/
theorem wf_of_bytes {m n : Mem} (h : n.sram = m.sram ∧ n.mram = m.mram) (w : Memory.wf m = true) :
    Memory.wf n = true := by
  unfold Memory.wf at w ⊢
  rw [h.1, h.2]
  exact w

/-- Writing SRAM keeps the canonical form. -/
theorem setSram_wf (s : State) (a : Nat) (l : List Byte) (w : Memory.wf s.mem = true) :
    Memory.wf (s.setSram a l).mem = true := by
  unfold Memory.wf at w ⊢
  rw [Bool.and_eq_true] at w ⊢
  exact ⟨twf_tputs l _ a w.1, w.2⟩

/-- Writing MRAM keeps the canonical form. -/
theorem setMram_wf (s : State) (a : Nat) (l : List Byte) (w : Memory.wf s.mem = true) :
    Memory.wf (s.setMram a l).mem = true := by
  unfold Memory.wf at w ⊢
  rw [Bool.and_eq_true] at w ⊢
  exact ⟨w.1, twf_tputs l _ a w.2⟩

/-- Making lines whole keeps the canonical form. -/
theorem lineWhole_wf (s : State) (a : Nat) (w : Memory.wf s.mem = true) : Memory.wf (s.lineWhole a).mem = true :=
  wf_of_bytes (lineWhole_bytes s a) w

/-- The memories after reset are in canonical form. -/
theorem reset_wf : Memory.wf State.reset.mem = true := rfl

end Sys2Proof.Machine
end

