-- ==== Sys2Proof/Laws/Frame.lean ====
section
/-! SUPPORT. What each shared operation can change: one lemma for each, as a frame (Safety.lean). -/

namespace Sys2Proof.Machine

/-! ### Frames compose -/

theorem sameBut_refl (l : List Part) (s : State) : sameBut l s s := by
  intro x _
  cases x <;> first | rfl | exact ⟨rfl, rfl⟩ | exact ⟨rfl, rfl, rfl⟩

theorem samePart_trans {s t u : State} {x : Part} (h : samePart s t x) (k : samePart t u x) :
    samePart s u x := by
  cases x with
  | devtime => exact ⟨k.1.trans h.1, k.2.trans h.2⟩
  | tap => exact ⟨k.1.trans h.1, k.2.1.trans h.2.1, k.2.2.trans h.2.2⟩
  | bytes => exact ⟨k.1.trans h.1, k.2.trans h.2⟩
  | journal => exact ⟨k.1.trans h.1, k.2.trans h.2⟩
  | _ => exact Eq.trans k h

theorem sameBut_trans {l : List Part} {s t u : State} (h : sameBut l s t) (k : sameBut l t u) :
    sameBut l s u := fun x hx => samePart_trans (h x hx) (k x hx)

theorem sameBut_mono {l m : List Part} {s t : State} (h : sameBut l s t) (hm : ∀ x ∈ l, x ∈ m) :
    sameBut m s t := fun x hx => h x fun hl => hx (hm x hl)

/-- A step that keeps a frame keeps it after others that do. -/
theorem sameBut_then {l : List Part} {s t : State} (f : State → State) (hf : ∀ u, sameBut l u (f u))
    (h : sameBut l s t) : sameBut l s (f t) := sameBut_trans h (hf t)

/-- A fold of steps that keep a frame keeps it. -/
theorem sameBut_foldl {α : Type} {l : List Part} {f : State → α → State}
    (h : ∀ s a, sameBut l s (f s a)) (xs : List α) (s : State) : sameBut l s (xs.foldl f s) := by
  induction xs generalizing s with
  | nil => exact sameBut_refl l s
  | cons a r ih => exact sameBut_trans (h s a) (ih (f s a))

/-! ### Records and counters -/

theorem bump_frame (s : State) (id n : Nat) : sameBut [.params] s (s.bump id n) := by
  intro x hx
  cases x <;> first | exact absurd (by decide) hx | rfl | exact ⟨rfl, rfl⟩ | exact ⟨rfl, rfl, rfl⟩

theorem pushOut_frame (s : State) (r : Nat) (x : Record) : sameBut [.rings] s (s.pushOut r x) := by
  intro x hx
  cases x <;> first | exact absurd (by decide) hx | rfl | exact ⟨rfl, rfl⟩ | exact ⟨rfl, rfl, rfl⟩

theorem postEvent_frame (s : State) (r src : Nat) (b : List Byte) :
    sameBut [.rings, .params] s (s.postEvent r src b) := by
  unfold State.postEvent
  split <;> intro x hx <;>
    cases x <;> first | exact absurd (by decide) hx | rfl | exact ⟨rfl, rfl⟩ | exact ⟨rfl, rfl, rfl⟩

theorem evt_frame (s : State) (code sev src a0 a1 a2 a3 : Nat) :
    sameBut [.rings, .params] s (s.evt code sev src a0 a1 a2 a3) := by
  unfold State.evt
  have h : ∀ e u, sameBut [.rings, .params] s
      { s with cmd := { s.cmd with eseq := e, unack := u } } := by
    intro e u x hx
    cases x <;> first | exact absurd (by decide) hx | rfl | exact ⟨rfl, rfl⟩ | exact ⟨rfl, rfl, rfl⟩
  dsimp only
  split <;> split
  · exact sameBut_trans (h _ _) (sameBut_trans (postEvent_frame _ _ _ _) (postEvent_frame _ _ _ _))
  · exact sameBut_trans (h _ _) (postEvent_frame _ _ _ _)
  · exact sameBut_trans (h _ _) (postEvent_frame _ _ _ _)
  · exact h _ _

theorem postReply_frame (s : State) (p : Pkt) (b : List Byte) :
    sameBut [.rings, .params] s (s.postReply p b) := by
  unfold State.postReply
  dsimp only
  split <;> intro x hx <;>
    cases x <;> first | exact absurd (by decide) hx | rfl | exact ⟨rfl, rfl⟩ | exact ⟨rfl, rfl, rfl⟩

theorem reply_frame (s : State) (op : Nat) (p : Pkt) (st step steps : Nat) (j : Word) (r : List Word)
    (gap keep : Bool) : sameBut [.rings, .params] s (s.reply op p st step steps j r gap keep) := by
  unfold State.reply
  dsimp only
  split
  · have h := postReply_frame s p (replyBytes s op p st step steps j r gap false)
    generalize s.postReply p (replyBytes s op p st step steps j r gap false) = u at h ⊢
    split
    · refine sameBut_trans h ?_
      intro x hx
      cases x <;> first | exact absurd (by decide) hx | rfl | exact ⟨rfl, rfl⟩ | exact ⟨rfl, rfl, rfl⟩
    · exact h
  · exact sameBut_refl _ s

theorem reject_frame (s : State) (op : Nat) (p : Pkt) (st : Nat) (r : List Word) (gap : Bool) :
    sameBut [.rings, .params] s (s.reject op p st r gap) := reply_frame _ _ _ _ _ _ _ _ _ _

theorem cmdDone_frame (s : State) (op : Nat) (p : Pkt) (st : Nat) :
    sameBut [.rings, .params] s (s.cmdDone op p st) := by
  unfold State.cmdDone
  split
  · exact evt_frame _ _ _ _ _ _ _ _
  · exact sameBut_refl _ s

theorem reserve_frame (s : State) (p : Pkt) : sameBut [.rings] s (s.reserve p) := by
  intro x hx
  cases x <;> first | exact absurd (by decide) hx | rfl | exact ⟨rfl, rfl⟩ | exact ⟨rfl, rfl, rfl⟩

theorem markGap_frame (s : State) (p : Pkt) (j : Word) (gap : Bool) :
    sameBut [.rings, .power] s (s.markGap p j gap) := by
  intro x hx
  cases x <;> first | exact absurd (by decide) hx | rfl | exact ⟨rfl, rfl⟩ | exact ⟨rfl, rfl, rfl⟩

/-! ### The journal -/

theorem jWait_frame (s : State) (j : Word) (d : Bool) : sameBut [.journal] s (s.jWait j d) := by
  unfold State.jWait
  split <;> intro x hx <;>
    cases x <;> first | exact absurd (by decide) hx | rfl | exact ⟨rfl, rfl⟩ | exact ⟨rfl, rfl, rfl⟩

theorem wholeWritten_frame (s : State) (f : Nat → Bool) : sameBut [.memory] s (s.wholeWritten f) := by
  intro x hx
  cases x <;> first | exact absurd (by decide) hx | rfl | exact ⟨rfl, rfl⟩ | exact ⟨rfl, rfl, rfl⟩

theorem lineWhole_frame (s : State) (a : Nat) : sameBut [.memory] s (s.lineWhole a) := wholeWritten_frame s _

theorem dropLine_frame (s : State) (j : Word) : sameBut [.journal] s (s.dropLine j) := by
  intro x hx
  cases x <;> first | exact absurd (by decide) hx | rfl | exact ⟨rfl, rfl⟩ | exact ⟨rfl, rfl, rfl⟩

theorem jStore_frame (s : State) (j : Word) : sameBut [.journal, .memory] s (s.jStore j) := by
  unfold State.jStore
  split
  · exact sameBut_mono (dropLine_frame s j) (by simp)
  · refine sameBut_trans ?_ (sameBut_mono (lineWhole_frame _ _) (by simp))
    intro x hx
    cases x <;> first | exact absurd (by decide) hx | rfl | exact ⟨rfl, rfl⟩ | exact ⟨rfl, rfl, rfl⟩

theorem jAdd_frame (s : State) (e : JEntry) (d : Bool) : sameBut [.journal] s (s.jAdd e d).1 := by
  unfold State.jAdd
  dsimp only
  refine sameBut_trans ?_ (jWait_frame _ _ _)
  intro x hx
  cases x <;> first | exact absurd (by decide) hx | rfl | exact ⟨rfl, rfl⟩ | exact ⟨rfl, rfl, rfl⟩

theorem jPut_frame (s : State) (j : Word) (d : Bool) (f : JEntry → JEntry) :
    sameBut [.journal] s (s.jPut j d f) := by
  unfold State.jPut
  dsimp only
  split
  · refine sameBut_trans ?_ (jWait_frame _ _ _)
    intro x hx
    cases x <;> first | exact absurd (by decide) hx | rfl | exact ⟨rfl, rfl⟩ | exact ⟨rfl, rfl, rfl⟩
  · intro x hx
    cases x <;> first | exact absurd (by decide) hx | rfl | exact ⟨rfl, rfl⟩ | exact ⟨rfl, rfl, rfl⟩

theorem jSet_frame (s : State) (j : Word) (d : Bool) (f : JEntry → JEntry) :
    sameBut [.journal] s (s.jSet j d f) := jPut_frame s j d _

theorem jFinal_frame (s : State) (j : Word) (d : Bool) (st step steps : Nat) (partly : Bool) (r : Word) :
    sameBut [.journal] s (s.jFinal j d st step steps partly r) := jSet_frame s _ _ _

theorem setJrn_frame {s t : State} (h : sameBut [.journal] s t) (j : Jrn) :
    sameBut [.journal] s { t with jrn := j } := by
  refine sameBut_trans h ?_
  intro x hx
  cases x <;> first | exact absurd (by decide) hx | rfl | exact ⟨rfl, rfl⟩ | exact ⟨rfl, rfl, rfl⟩

theorem coalesce_frame (s : State) (op : Nat) (p : Pkt) : sameBut [.journal] s (s.coalesce op p).1 := by
  unfold State.coalesce
  dsimp only
  split
  · exact setJrn_frame (jPut_frame s _ _ _) _
  · exact setJrn_frame (jAdd_frame s _ _) _

/-! ### Lines -/

theorem latchFault_frame (s : State) (c : Nat) : sameBut [.diag] s (s.latchFault c) := by
  intro x hx
  cases x <;> first | exact absurd (by decide) hx | rfl | exact ⟨rfl, rfl⟩ | exact ⟨rfl, rfl, rfl⟩

theorem errLog_frame (s : State) (a k req src : Nat) :
    sameBut [.params, .memory] s (s.errLog a k req src) := by
  unfold State.errLog
  dsimp only
  split
  · intro x hx
    cases x <;> first | exact absurd (by decide) hx | rfl | exact ⟨rfl, rfl⟩ | exact ⟨rfl, rfl, rfl⟩
  · split
    · intro x hx
      cases x <;> first | exact absurd (by decide) hx | rfl | exact ⟨rfl, rfl⟩ | exact ⟨rfl, rfl, rfl⟩
    · split
      · intro x hx
        cases x <;> first | exact absurd (by decide) hx | rfl | exact ⟨rfl, rfl⟩ | exact ⟨rfl, rfl, rfl⟩
      · exact sameBut_mono (bump_frame _ _ _) (by simp)

theorem lineCorrected_frame (s : State) (a req src : Nat) :
    sameBut [.params, .memory] s (s.lineCorrected a req src) :=
  sameBut_trans (errLog_frame _ _ _ _ _) (sameBut_mono (bump_frame _ _ _) (by simp))

theorem queueRepair_frame (s : State) (a : Nat) (known : Bool) :
    sameBut [.params, .memory] s (s.queueRepair a known).1 := by
  unfold State.queueRepair
  split
  · dsimp only
    split
    · exact sameBut_refl _ s
    · exact sameBut_mono (bump_frame _ _ _) (by simp)
  · split
    · exact sameBut_refl _ s
    · split
      · exact sameBut_refl _ s
      · intro x hx
        cases x <;> first | exact absurd (by decide) hx | rfl | exact ⟨rfl, rfl⟩ | exact ⟨rfl, rfl, rfl⟩

theorem reportLost_frame (s : State) (a req how : Nat) :
    sameBut [.rings, .params] s (s.reportLost a req how) := by
  unfold State.reportLost
  dsimp only
  split
  · exact sameBut_trans (evt_frame _ _ _ _ _ _ _ _) (evt_frame _ _ _ _ _ _ _ _)
  · exact evt_frame _ _ _ _ _ _ _ _

theorem setMem_frame {s t : State} {l : List Part} (h : sameBut l s t) (hm : .memory ∈ l) (m : Mem)
    (h1 : m.sram = t.mem.sram) (h2 : m.mram = t.mem.mram) : sameBut l s { t with mem := m } := by
  refine sameBut_trans h ?_
  intro x hx
  cases x <;> first | exact absurd hm hx | rfl | exact ⟨h1, h2⟩ | exact ⟨rfl, rfl⟩ | exact ⟨rfl, rfl, rfl⟩

theorem lineLost_frame (s : State) (a req : Nat) :
    sameBut [.rings, .params, .memory, .diag] s (s.lineLost a req) := by
  unfold State.lineLost
  dsimp only
  have h : sameBut [.rings, .params, .memory, .diag] s
      (((s.errLog a (if a < 0x20000000 then 3 else 2) req 0).bump pUncCount 1).latchFault 14) :=
    sameBut_trans (sameBut_mono (errLog_frame s _ _ _ _) (by simp))
      (sameBut_trans (sameBut_mono (bump_frame _ _ _) (by simp))
        (sameBut_mono (latchFault_frame _ _) (by simp)))
  split
  · exact h
  · have q : ∀ (u : State) k, sameBut [.rings, .params, .memory, .diag] u (u.queueRepair a k).1 :=
      fun u k => sameBut_mono (queueRepair_frame u a k) (by simp)
    generalize ((s.errLog a (if a < 0x20000000 then 3 else 2) req 0).bump pUncCount 1).latchFault 14 = t at h ⊢
    generalize hm : ({ t.mem with
      poison := if t.mem.poison.contains a = true then t.mem.poison else sortIns a t.mem.poison } : Mem) = m
    have g : sameBut [.rings, .params, .memory, .diag] s { t with mem := m } :=
      setMem_frame h (by simp) m (by rw [← hm]) (by rw [← hm])
    generalize ({ t with mem := m } : State) = v at g ⊢
    split
    · exact sameBut_trans g (sameBut_trans (q _ _) (sameBut_mono (reportLost_frame _ _ _ _)
        (l := [.rings, .params]) (by simp)))
    · exact sameBut_trans g (q _ _)

/-- The parts that a read of a line changes, beside what its source puts back. -/
def readParts : List Part := [.rings, .params, .memory, .diag]

theorem lineLost_read (s : State) (a req : Nat) : sameBut readParts s (s.lineLost a req) := lineLost_frame s a req

theorem ringsWritten_frame (s : State) : sameBut [.rings, .memory] s s.ringsWritten := by
  refine sameBut_trans ?_ (sameBut_mono (wholeWritten_frame _ _) (by simp))
  intro x hx
  cases x <;> first | exact absurd (by decide) hx | rfl | exact ⟨rfl, rfl⟩ | exact ⟨rfl, rfl, rfl⟩

theorem arise_frame (s : State) (ups : Upsets) : sameBut [.rings, .memory] s (s.arise ups) :=
  setMem_frame (ringsWritten_frame s) (by simp) _ rfl rfl

theorem errGone_frame (s : State) (a : Nat) : sameBut [.memory] s (s.errGone a) :=
  setMem_frame (sameBut_refl _ s) (by simp) _ rfl rfl

theorem setSram_frame (s : State) (a : Nat) (l : List Byte) : sameBut [.bytes] s (s.setSram a l) := by
  intro x hx
  cases x <;> first | exact absurd (by decide) hx | rfl | exact ⟨rfl, rfl⟩ | exact ⟨rfl, rfl, rfl⟩

theorem setMram_frame (s : State) (a : Nat) (l : List Byte) : sameBut [.bytes] s (s.setMram a l) := by
  intro x hx
  cases x <;> first | exact absurd (by decide) hx | rfl | exact ⟨rfl, rfl⟩ | exact ⟨rfl, rfl, rfl⟩

/-- What a line's source puts back: bytes of the line, or the journal's entry there. -/
theorem restoreLine_frame (s : State) (a : Nat) : sameBut [.bytes, .journal] s (s.restoreLine a) := by
  have b : ∀ (u : State) x l, sameBut [.bytes, .journal] u (u.setSram x l) :=
    fun u x l => sameBut_mono (setSram_frame u x l) (by simp)
  have m : ∀ (u : State) x l, sameBut [.bytes, .journal] u (u.setMram x l) :=
    fun u x l => sameBut_mono (setMram_frame u x l) (by simp)
  unfold State.restoreLine
  split
  any_goals first | exact b _ _ _ | exact m _ _ _ | exact sameBut_refl _ s
  · exact sameBut_trans (b s _ _) (sameBut_foldl (fun u e => b u _ _) _ _)
  · split
    · intro x hx
      cases x <;> first | exact absurd (by decide) hx | rfl | exact ⟨rfl, rfl⟩ | exact ⟨rfl, rfl, rfl⟩
    · exact sameBut_refl _ s

/-- A line of the journal takes its entry back from the cache, and no byte of the two memories changes. -/
theorem restoreLine_journal (s : State) (a : Nat) (h : regionOf a = 21) :
    sameBut [.journal] s (s.restoreLine a) := by
  unfold State.restoreLine
  split
  all_goals first | (rename_i g; rw [h] at g; exact absurd g (by decide)) | skip
  · split
    · intro x hx
      cases x <;> first | exact absurd (by decide) hx | rfl | exact ⟨rfl, rfl⟩ | exact ⟨rfl, rfl, rfl⟩
    · exact sameBut_refl _ s
  · exact sameBut_refl _ s

/-- A read of a line keeps every frame that takes in its own parts and what its source puts back. -/
theorem readLine_keeps {l : List Part} (hl : ∀ x ∈ readParts, x ∈ l) (s : State) (req a : Nat)
    (hr : ∀ u : State, sameBut l u (u.restoreLine a)) : sameBut l s (s.readLine req a).1 := by
  have hm : ∀ x ∈ ([.memory] : List Part), x ∈ l := fun x hx => hl x (by
    rw [List.mem_singleton] at hx
    subst hx
    decide)
  have hc : ∀ x ∈ ([.params, .memory] : List Part), x ∈ l := fun x hx => hl x (by
    revert x
    decide)
  unfold State.readLine
  split
  · exact sameBut_mono (lineLost_read s a req) hl
  · split
    · exact sameBut_refl _ s
    · exact sameBut_trans (sameBut_mono (errGone_frame s a) hm) (sameBut_mono (lineCorrected_frame _ _ _ _) hc)
    · refine sameBut_trans (sameBut_mono (errGone_frame s a) hm) ?_
      unfold State.refetch
      split
      · exact sameBut_trans (hr _) (sameBut_mono (lineCorrected_frame _ _ _ _) hc)
      · exact sameBut_mono (lineLost_read _ a req) hl
    · exact sameBut_trans (sameBut_mono (errGone_frame s a) hm) (sameBut_mono (lineLost_read _ a req) hl)

theorem readLines_keeps {l : List Part} (hl : ∀ x ∈ readParts, x ∈ l) (req : Nat) (as : List Nat)
    (hr : ∀ a ∈ as, ∀ u : State, sameBut l u (u.restoreLine a)) (s : State) :
    sameBut l s (s.readLines req as).1 := by
  induction as generalizing s with
  | nil => exact sameBut_refl _ s
  | cons a r ih =>
    have h1 := readLine_keeps hl s req a (hr a (by simp))
    unfold State.readLines
    dsimp only
    split
    · exact sameBut_trans h1 (ih (fun b hb => hr b (by simp [hb])) _)
    · exact h1

theorem readEach_keeps {l : List Part} (hl : ∀ x ∈ readParts, x ∈ l) (req : Nat) (as : List Nat)
    (hr : ∀ a ∈ as, ∀ u : State, sameBut l u (u.restoreLine a)) (s : State) :
    sameBut l s (s.readEach req as).1 := by
  have h : ∀ (as : List Nat), (∀ a ∈ as, ∀ u : State, sameBut l u (u.restoreLine a)) →
      ∀ (x : State × List Nat), sameBut l s x.1 → sameBut l s (as.foldl (fun x a =>
        let y := x.1.readLine req a
        if y.2 then (y.1, x.2) else (y.1, x.2 ++ [a])) x).1 := by
    intro as
    induction as with
    | nil => exact fun _ x hx => hx
    | cons a r ih =>
      intro hr x hx
      have h1 := sameBut_trans hx (readLine_keeps hl x.1 req a (hr a (by simp)))
      refine ih (fun b hb => hr b (by simp [hb])) _ ?_
      dsimp only
      split <;> exact h1
  exact h as hr (s, []) (sameBut_refl _ s)

theorem restoreLine_source (s : State) (a : Nat) : sameBut sourceParts s (s.restoreLine a) :=
  sameBut_mono (restoreLine_frame s a) (by decide)

theorem readLine_frame (s : State) (req a : Nat) : sameBut sourceParts s (s.readLine req a).1 :=
  readLine_keeps (by decide) s req a fun u => restoreLine_source u a

theorem readLines_frame (s : State) (req : Nat) (as : List Nat) : sameBut sourceParts s (s.readLines req as).1 :=
  readLines_keeps (by decide) req as (fun a _ u => restoreLine_source u a) s

theorem readEach_frame (s : State) (req : Nat) (as : List Nat) : sameBut sourceParts s (s.readEach req as).1 :=
  readEach_keeps (by decide) req as (fun a _ u => restoreLine_source u a) s

theorem readParts_frame (s : State) (req a n : Nat) : sameBut sourceParts s (s.readParts req a n).1 := by
  unfold State.readParts
  split
  · exact sameBut_refl _ s
  · exact readEach_frame s req _

/-! ### A durable line of the journal -/

/-- The parts that the write of a durable line of the journal changes. -/
def keepParts : List Part := [.rings, .params, .memory, .diag, .journal, .stored]

/-- A choice that gives another value is not taken. -/
theorem ite_skip {c : Prop} [Decidable c] {k e n : Nat} (h : (if c then k else e) = n) (hk : k ≠ n) :
    ¬c ∧ e = n := by
  by_cases hc : c
  · rw [if_pos hc] at h
    exact absurd h hk
  · rw [if_neg hc] at h
    exact ⟨hc, h⟩

/-- The journal's lines. -/
theorem journal_lines (a : Nat) (ha : regionOf a = 21) : 0x10600000 ≤ a ∧ a < 0x10700000 := by
  unfold regionOf at ha
  replace ha := (ite_skip ha (by decide)).2
  replace ha := (ite_skip ha (by decide)).2
  replace ha := (ite_skip ha (by decide)).2
  replace ha := (ite_skip ha (by decide)).2
  replace ha := (ite_skip ha (by decide)).2
  replace ha := (ite_skip ha (by decide)).2
  replace ha := (ite_skip ha (by decide)).2
  replace ha := (ite_skip ha (by decide)).2
  replace ha := (ite_skip ha (by decide)).2
  replace ha := (ite_skip ha (by decide)).2
  replace ha := (ite_skip ha (by decide)).2
  replace ha := (ite_skip ha (by decide)).2
  replace ha := (ite_skip ha (by decide)).2
  replace ha := (ite_skip ha (by decide)).2
  replace ha := (ite_skip ha (by decide)).2
  obtain ⟨h1, ha⟩ := ite_skip ha (by decide)
  refine ⟨by omega, ?_⟩
  by_cases h : a < 0x10700000
  · exact h
  · rw [if_neg h] at ha
    replace ha := (ite_skip ha (by decide)).2
    replace ha := (ite_skip ha (by decide)).2
    replace ha := (ite_skip ha (by decide)).2
    obtain ⟨-, ha⟩ := ite_skip ha (by decide)
    exact absurd ha (by decide)

/-- The sector of a line of the journal holds lines of the journal alone. -/
theorem sector_journal (a b : Nat) (ha : regionOf a = 21)
    (h1 : 0x10000000 + 65536 * sectorOf a ≤ b) (h2 : b < 0x10000000 + 65536 * sectorOf a + 65536) :
    regionOf b = 21 := by
  have h := journal_lines a ha
  unfold sectorOf at h1 h2
  have g1 : 0x10600000 ≤ b := by omega
  have g2 : b < 0x10700000 := by omega
  unfold regionOf
  repeat rw [if_neg (by omega)]
  rw [if_pos (by omega)]

theorem remapSector_frame (s : State) (a k : Nat) (ha : regionOf a = 21) :
    sameBut keepParts s (s.remapSector a k) := by
  unfold State.remapSector
  dsimp only
  refine sameBut_trans ?_ (sameBut_mono (evt_frame _ _ _ _ _ _ _ _) (by decide))
  refine sameBut_trans (t := (s.readSpan 7 (0x10000000 + 65536 * sectorOf a) 65536).1) ?_ ?_
  · refine readEach_keeps (by decide) 7 _ (fun b hb u => ?_) s
    unfold State.troubledIn at hb
    rw [List.mem_filter, Bool.and_eq_true, decide_eq_true_eq, decide_eq_true_eq] at hb
    have hl : lineOf (0x10000000 + 65536 * sectorOf a) = 0x10000000 + 65536 * sectorOf a := by
      unfold lineOf
      omega
    rw [hl] at hb
    exact sameBut_mono (restoreLine_journal u b (sector_journal a b ha hb.2.1 hb.2.2)) (by decide)
  · intro x hx
    cases x <;> first | exact absurd (by decide) hx | rfl | exact ⟨rfl, rfl⟩ | exact ⟨rfl, rfl, rfl⟩

theorem writeFails_frame (s : State) (a : Nat) : sameBut keepParts s (s.writeFails a) := by
  unfold State.writeFails
  dsimp only
  refine sameBut_trans ?_ (sameBut_mono (evt_frame _ _ _ _ _ _ _ _) (by decide))
  intro x hx
  cases x <;> first | exact absurd (by decide) hx | rfl | exact ⟨rfl, rfl⟩ | exact ⟨rfl, rfl, rfl⟩

theorem verifyLine_frame (s : State) (a : Nat) (ha : regionOf a = 21) :
    sameBut keepParts s (s.verifyLine a).1 := by
  unfold State.verifyLine
  have g : sameBut keepParts s (s.errGone a) := sameBut_mono (errGone_frame s a) (by decide)
  split
  · exact sameBut_refl _ s
  · split
    · exact sameBut_trans g (remapSector_frame _ a _ ha)
    · exact sameBut_trans g (writeFails_frame _ a)

theorem jAddr_region (j : Word) : regionOf (jAddr j) = 21 := by
  have h : j.toNat % 16384 < 16384 := Nat.mod_lt _ (by decide)
  unfold jAddr regionOf
  generalize j.toNat % 16384 = k at h
  repeat rw [if_neg (by omega)]
  rw [if_pos (by omega)]

theorem jKeep_frame (s : State) (j : Word) : sameBut keepParts s (s.jKeep j) := by
  unfold State.jKeep
  split
  · exact sameBut_mono (jWait_frame s j true) (by decide)
  · dsimp only
    have h := verifyLine_frame s (jAddr j) (jAddr_region j)
    split
    · exact sameBut_trans h (sameBut_mono (jStore_frame _ j) (by decide))
    · exact sameBut_trans h (sameBut_mono (dropLine_frame _ j) (by decide))

/-! ### A self-test slice cut short -/

theorem freeW_frame (s : State) : sameBut [.free] s s.freeW.1 := by
  intro x hx
  cases x <;> first | exact absurd (by decide) hx | rfl | exact ⟨rfl, rfl⟩ | exact ⟨rfl, rfl, rfl⟩

theorem modTest_frame (s : State) (ty tg : Nat) (f : TestRes → TestRes) :
    sameBut [.selfTest] s (s.modTest ty tg f) := by
  intro x hx
  cases x <;> first | exact absurd (by decide) hx | rfl | exact ⟨rfl, rfl⟩ | exact ⟨rfl, rfl, rfl⟩

theorem setBist_frame {s t : State} {l : List Part} (h : sameBut l s t) (hm : .selfTest ∈ l) (b : Bist) :
    sameBut l s { t with bist := b } := by
  refine sameBut_trans h ?_
  intro x hx
  cases x <;> first | exact absurd hm hx | rfl | exact ⟨rfl, rfl⟩ | exact ⟨rfl, rfl, rfl⟩

theorem dropJob_frame (s : State) (b : Job) : sameBut [.rings] s (s.dropJob b) := by
  intro x hx
  cases x <;> first | exact absurd (by decide) hx | rfl | exact ⟨rfl, rfl⟩ | exact ⟨rfl, rfl, rfl⟩

theorem turnOver_frame (s : State) (ty tg : Nat) : sameBut [.selfTest] s (s.turnOver ty tg) := by
  unfold State.turnOver State.turnTo
  split
  · dsimp only
    split <;> intro x hx <;>
      cases x <;> first | exact absurd (by decide) hx | rfl | exact ⟨rfl, rfl⟩ | exact ⟨rfl, rfl, rfl⟩
  · exact sameBut_refl _ s

/-- The parts that a slice cut short changes, beside its block's own. -/
def cutParts : List Part := [.rings, .params, .memory, .diag, .journal, .stored, .selfTest]

theorem sliceAborted_frame (s : State) (ty tg : Nat) : sameBut cutParts s (s.sliceAborted ty tg) := by
  unfold State.sliceAborted
  dsimp only
  have h0 : sameBut cutParts s
      ((((({ s with bist := { s.bist with slice := none, lastEnd := some s.clk } }).bump pBistAborts 1).modTest ty tg
        fun r => { r with state := 4, complete := false, aborts := satAdd 16 r.aborts 1 })).turnOver ty tg) := by
    refine sameBut_then (fun u => u.turnOver ty tg) (fun u => sameBut_mono (turnOver_frame u _ _) (by decide)) ?_
    refine sameBut_then (fun u => u.modTest ty tg _) (fun u => sameBut_mono (modTest_frame u _ _ _) (by decide)) ?_
    refine sameBut_then (fun u => u.bump _ _) (fun u => sameBut_mono (bump_frame u _ _) (by decide)) ?_
    exact setBist_frame (sameBut_refl _ s) (by decide) _
  generalize (((({ s with bist := { s.bist with slice := none, lastEnd := some s.clk } }).bump pBistAborts 1).modTest ty tg
        fun r => { r with state := 4, complete := false, aborts := satAdd 16 r.aborts 1 })).turnOver ty tg = t at h0 ⊢
  have h1 : sameBut cutParts s
      (if 16 ≤ (t.test ty tg).aborts ∧ (!(t.test ty tg).starved) = true then
        (t.modTest ty tg fun r => { r with starved := true }).evt 0x0902 1 0xFF ty tg (t.test ty tg).aborts
          (t.test ty tg).seg else t) := by
    split
    · refine sameBut_then (fun u => u.evt _ _ _ _ _ _ _)
        (fun u => sameBut_mono (evt_frame u _ _ _ _ _ _ _) (by decide)) ?_
      exact sameBut_trans h0 (sameBut_mono (modTest_frame _ _ _ _) (by decide))
    · exact h0
  generalize (if 16 ≤ (t.test ty tg).aborts ∧ (!(t.test ty tg).starved) = true then
        (t.modTest ty tg fun r => { r with starved := true }).evt 0x0902 1 0xFF ty tg (t.test ty tg).aborts
          (t.test ty tg).seg else t) = v at h1 ⊢
  split
  · split
    · refine sameBut_then (fun u => u.cmdDone _ _ _) (fun u => sameBut_mono (cmdDone_frame u _ _ _) (by decide)) ?_
      refine sameBut_then (fun u => u.jKeep _) (fun u => sameBut_mono (jKeep_frame u _) (by decide)) ?_
      refine sameBut_then (fun u => u.jFinal _ _ _ _ _ _ _)
        (fun u => sameBut_mono (jFinal_frame u _ _ _ _ _ _ _) (by decide)) ?_
      exact sameBut_trans h1 (sameBut_mono (dropJob_frame _ _) (by decide))
    · exact h1
  · exact h1

/-- What is left of the block under test: a lane's PHY, a tile's stand-in. -/
theorem abortLeaves_frame (s : State) (ty tg : Nat) : sameBut [.selfTest, .link] s (s.abortLeaves ty tg) := by
  unfold State.abortLeaves State.laneTested State.setLane
  dsimp only
  split <;> split <;> (try split) <;> (try split) <;> intro x hx <;>
    cases x <;> first | exact absurd (by decide) hx | rfl | exact ⟨rfl, rfl⟩ | exact ⟨rfl, rfl, rfl⟩

/-- A slice on a target that is no lane and no tile leaves nothing of its block. -/
theorem abortLeaves_mem (s : State) (tg : Nat) : s.abortLeaves 1 tg = s := by
  unfold State.abortLeaves
  dsimp only
  split <;> rfl

/-- A slice cut short keeps every frame that takes in its own parts and what is left of the block. -/
theorem abortSlice_keeps {l : List Part} (hl : ∀ x ∈ (.free :: cutParts : List Part), x ∈ l) (s : State)
    (p : Nat → Nat → Bool) (hp : ∀ ty tg, p ty tg = true → ∀ u : State, sameBut l u (u.abortLeaves ty tg)) :
    sameBut l s (s.abortSlice p) := by
  have hf : ∀ u : State, sameBut l u u.freeW.1 := fun u => sameBut_mono (freeW_frame u) fun x hx => hl x (by
    revert x
    decide)
  unfold State.abortSlice
  split
  · exact sameBut_refl _ s
  · rename_i ty tg _
    split
    · rename_i h
      dsimp only
      refine sameBut_then (fun u => u.abortLeaves ty tg) (hp ty tg h) ?_
      refine sameBut_then (fun u => u.sliceAborted ty tg)
        (fun u => sameBut_mono (sliceAborted_frame u _ _) fun x hx => hl x (List.mem_cons_of_mem _ hx)) ?_
      refine sameBut_then (fun u => u.modTest ty tg _) (fun u => sameBut_mono (modTest_frame u _ _ _) fun x hx =>
        hl x (by
          revert x
          decide)) ?_
      exact sameBut_trans (hf s) (hf _)
    · exact sameBut_refl _ s

/-- The parts that a slice cut short changes. -/
def sliceParts : List Part := [.rings, .params, .memory, .diag, .journal, .stored, .selfTest, .free, .link]

theorem abortSlice_frame (s : State) (p : Nat → Nat → Bool) : sameBut sliceParts s (s.abortSlice p) :=
  abortSlice_keeps (by decide) s p fun _ _ _ u => sameBut_mono (abortLeaves_frame u _ _) (by decide)

theorem abortMram_frame (s : State) (a : Nat) : sameBut durParts s (s.abortMram a) := by
  unfold State.abortMram
  split
  · refine abortSlice_keeps (by decide) s _ fun ty tg h u => ?_
    rw [Bool.and_eq_true, decide_eq_true_eq, decide_eq_true_eq] at h
    obtain ⟨rfl, rfl⟩ := h
    rw [abortLeaves_mem]
    exact sameBut_refl _ u
  · exact sameBut_refl _ s

theorem jDurable_frame (s : State) (j : Word) : sameBut durParts s (s.jDurable j) := by
  unfold State.jDurable
  split
  · exact sameBut_mono (jKeep_frame s j) (by decide)
  · exact sameBut_trans (abortMram_frame s _) (sameBut_mono (jKeep_frame _ j) (by decide))

theorem jEnd_frame (s : State) (j : Word) (d : Bool) (st step steps : Nat) (partly : Bool) (r : Word) :
    sameBut durParts s (s.jEnd j d st step steps partly r) := by
  unfold State.jEnd
  split
  · exact sameBut_refl _ s
  · have h : sameBut durParts s (s.jFinal j d st step steps partly r) :=
      sameBut_mono (jFinal_frame s _ _ _ _ _ _ _) (by decide)
    dsimp only
    split
    · exact sameBut_trans h (jDurable_frame _ _)
    · exact h

theorem endJob_frame (s : State) (b : Job) (st step : Nat) (partly : Bool) (r : Word) :
    sameBut durParts s (s.endJob b st step partly r) := by
  unfold State.endJob
  refine sameBut_then (fun u => u.cmdDone _ _ _) (fun u => sameBut_mono (cmdDone_frame u _ _ _) (by decide)) ?_
  refine sameBut_then (fun u => u.jEnd _ _ _ _ _ _ _) (fun u => jEnd_frame u _ _ _ _ _ _ _) ?_
  exact sameBut_mono (dropJob_frame s b) (by decide)

/-! ### The same where no error stands in a line and no slice runs -/

/-- A calm state stays calm, and changes in the parts named alone. -/
def calmBut (l : List Part) (s t : State) : Prop := s.calm = true → t.calm = true ∧ sameBut l s t

theorem calm_of {s t : State} (h1 : t.mem.errs = s.mem.errs) (h2 : t.bist.slice = s.bist.slice)
    (h : s.calm = true) : t.calm = true := by
  unfold State.calm at h ⊢
  rw [h1, h2]
  exact h

theorem calmBut_refl (l : List Part) (s : State) : calmBut l s s := fun h => ⟨h, sameBut_refl l s⟩

theorem calmBut_trans {l : List Part} {s t u : State} (h : calmBut l s t) (k : calmBut l t u) :
    calmBut l s u := fun c =>
  let ⟨c1, h1⟩ := h c
  let ⟨c2, h2⟩ := k c1
  ⟨c2, sameBut_trans h1 h2⟩

/-- What leaves memory integrity and self-test alone keeps a state calm. -/
theorem calmBut_of {l m : List Part} {s t : State} (h : sameBut l s t) (hm : ∀ x ∈ l, x ∈ m)
    (h1 : .memory ∉ l) (h2 : .selfTest ∉ l) : calmBut m s t := fun c => by
  have e := h .memory h1
  have b := h .selfTest h2
  have g : t.mem.errs = s.mem.errs := by
    unfold samePart at e
    injection e
  exact ⟨calm_of g (congrArg Bist.slice b) c, sameBut_mono h hm⟩

theorem calm_good {s : State} (h : s.calm = true) (a : Nat) : s.meets a = .good := by
  unfold State.calm at h
  rw [Bool.and_eq_true, List.isEmpty_iff] at h
  unfold State.meets
  rw [h.1]
  rfl

theorem calm_abortSlice {s : State} (h : s.calm = true) (p : Nat → Nat → Bool) : s.abortSlice p = s := by
  unfold State.calm at h
  rw [Bool.and_eq_true, Option.isNone_iff_eq_none] at h
  unfold State.abortSlice
  rw [h.2]

theorem calm_abortMram {s : State} (h : s.calm = true) (a : Nat) : s.abortMram a = s := by
  unfold State.abortMram
  split
  · exact calm_abortSlice h _
  · rfl

theorem jStore_calm (s : State) (j : Word) : calmBut [.journal, .memory] s (s.jStore j) := by
  intro c
  refine ⟨?_, jStore_frame s j⟩
  unfold State.jStore
  split
  · exact calm_of rfl rfl c
  · unfold State.calm at c ⊢
    rw [Bool.and_eq_true, List.isEmpty_iff] at c ⊢
    refine ⟨?_, c.2⟩
    show (s.mem.errs.filter _) = []
    rw [c.1]
    rfl

/-- In a calm state the durable line is written, and nothing comes of it but that. -/
theorem jDurable_calm (s : State) (j : Word) : calmBut [.journal, .memory] s (s.jDurable j) := by
  intro c
  have k : calmBut [.journal, .memory] s (s.jKeep j) := by
    unfold State.jKeep
    split
    · exact calmBut_of (jWait_frame s j true) (by simp) (by simp) (by simp)
    · unfold State.verifyLine
      rw [calm_good c]
      simp only [ne_eq, reduceCtorEq, not_false_eq_true, if_true]
      exact jStore_calm s j
  unfold State.jDurable
  split
  · exact k c
  · rw [calm_abortMram c]
    exact k c

/-! ### Sessions -/

theorem authenticate_frame (s : State) (op : Nat) (p : Pkt) :
    sameBut [.rings, .params, .firmware] s (s.authenticate op p).1 := by
  unfold State.authenticate
  have h : ∀ x, sameBut [.rings, .params, .firmware] s (s.setSession p.port x) := by
    intro y x hx
    cases x <;> first | exact absurd (by decide) hx | rfl | exact ⟨rfl, rfl⟩ | exact ⟨rfl, rfl, rfl⟩
  split
  · exact sameBut_refl _ s
  · split
    · split <;> exact sameBut_refl _ s
    · split
      · exact h _
      · split
        · exact sameBut_trans (h _) (sameBut_mono (evt_frame _ _ _ _ _ _ _ _) (by simp))
        · exact h _

/-! ### Serving a packet -/

/-- What a served packet changes beside its effect: output rings and counters, sessions, the journal. A durable
entry changes `durParts` too. -/
def serveParts : List Part := [.rings, .params, .firmware, .journal]

/-- A relation that a served packet keeps, if its opcode's effect keeps it: reflexive, transitive, and
blind to what serving changes. -/
structure ServeRel (parts : List Part) (R : State → State → Prop) : Prop where
  refl  : ∀ s, R s s
  trans : ∀ {s t u}, R s t → R t u → R s u
  base  : ∀ {s t}, sameBut parts s t → R s t

theorem sameBut_serveRel {parts l : List Part} (h : ∀ x ∈ parts, x ∈ l) : ServeRel parts (sameBut l) :=
  ⟨sameBut_refl l, sameBut_trans, fun k => sameBut_mono k h⟩

theorem calmBut_serveRel {parts l : List Part} (h : ∀ x ∈ parts, x ∈ l) (h1 : .memory ∉ parts)
    (h2 : .selfTest ∉ parts) : ServeRel parts (calmBut l) :=
  ⟨calmBut_refl l, calmBut_trans, fun k => calmBut_of k h h1 h2⟩

/-- How a command's entry is kept: none is made, or the relation may see the journal, and the entry is the class-0
record, is not durable, or is one whose durable line the relation may see. -/
def keepsEntry (parts : List Part) (R : State → State → Prop) (d : OpDef) (q : Pkt) : Prop :=
  d.jnl q = 0 ∨ (.journal ∈ parts ∧ (d.jnl q = 3 ∨ (d.jnl q ≠ 2 ∧ q.durable = false) ∨ ∀ u j, R u (u.jDurable j)))

/-- A command whose effect keeps a relation keeps it with its reply, and with its entry. -/
theorem execute_rel {parts : List Part} {R : State → State → Prop} {op : Nat} {d : OpDef} {q : Pkt}
    {b : List Byte} {gap : Bool} {s : State} (hR : ServeRel parts R)
    (h1 : .rings ∈ parts) (h2 : .params ∈ parts) (hj : keepsEntry parts R d q)
    (hr : ∀ j u, R u (d.run j q u).s ∧ (d.run j q u).replies = true ∧ ∀ v, (d.run j q u).post v = v) :
    R s (s.execute op d q b gap) := by
  have reply : ∀ (u : State) st step steps j r, R u (u.reply op q st step steps j r gap true) :=
    fun u st step steps j r => hR.base (sameBut_mono (reply_frame u op q st step steps j r gap true)
      (by simp [h1, h2]))
  unfold State.execute
  dsimp only
  by_cases h0 : d.jnl q = 0
  · obtain ⟨a1, a2, a3⟩ := hr 0xFFFFFFFF s
    simp only [h0, if_true, true_or, a2, a3]
    exact hR.trans a1 (reply _ _ _ _ _ _)
  · obtain ⟨hj, hm⟩ := hj.resolve_left h0
    have jset : ∀ (u : State) j dur f, R u (u.jSet j dur f) :=
      fun u j dur f => hR.base (sameBut_mono (jSet_frame u j dur f) (by simp [hj]))
    by_cases h3 : d.jnl q = 3
    · obtain ⟨a1, a2, a3⟩ := hr (s.coalesce op q).2 (s.coalesce op q).1
      simp only [h3, if_true, or_true, a2, a3, if_neg (show ¬ (3 = 0) by decide)]
      exact hR.trans (hR.base (sameBut_mono (coalesce_frame s op q) (by simp [hj])))
        (hR.trans a1 (reply _ _ _ _ _ _))
    · have hm := hm.resolve_left h3
      have hd : ∀ dur, (decide (d.jnl q = 2) || (decide (d.jnl q = 1) && q.durable)) = dur → dur = true →
          ∀ u j, R u (u.jDurable j) := by
        intro dur e ht
        cases hm with
        | inr h => exact h
        | inl h =>
          rw [ht] at e
          simp [h.1, h.2] at e
      simp only [h0, h3, or_self, if_false]
      generalize hg : (decide (d.jnl q = 2) || (decide (d.jnl q = 1) && q.durable)) = dur
      have jend : ∀ (u : State) j st step steps partly r, R u (u.jEnd j dur st step steps partly r) := by
        intro u j st step steps partly r
        unfold State.jEnd
        split
        · exact hR.refl _
        · dsimp only
          split
          · rename_i hdur
            exact hR.trans (jset _ _ _ _) (hd dur hg hdur _ _)
          · exact jset _ _ _ _
      obtain ⟨a1, a2, a3⟩ := hr (s.jAdd (kind0 op q dur false b 1 1) dur).2
        (s.jAdd (kind0 op q dur false b 1 1) dur).1
      simp only [a2, a3, if_true]
      refine hR.trans (hR.base (sameBut_mono (jAdd_frame s _ dur) (by simp [hj]))) (hR.trans a1 ?_)
      refine hR.trans ?_ (reply _ _ _ _ _ _)
      split
      · split
        · rename_i hdur
          exact hR.trans (jset _ _ _ _) (hd dur hg hdur _ _)
        · exact jset _ _ _ _
      · exact jend _ _ _ _ _ _ _

/-- A served packet without TIMED keeps the relation that its opcode's effect keeps where its own checks of steps 8
and 9 have passed, whichever check it meets. -/
theorem serveOp_checked {parts : List Part} {R : State → State → Prop} {op : Nat} {d : OpDef} {p : Pkt}
    {s : State} (hR : ServeRel parts R) (h1 : .rings ∈ parts) (h2 : .params ∈ parts)
    (h3 : .firmware ∈ parts) (ht : p.timed = false)
    (hj : keepsEntry parts R d (ownOf op p s))
    (hr : ∀ w, d.len (ownOf op p s) = true → d.bad (ownOf op p s) w = none → d.gate (ownOf op p s) w = none → ∀ j u, let q := ownOf op p s
      R u (d.run j q u).s ∧ (d.run j q u).replies = true ∧ ∀ v, (d.run j q u).post v = v) :
    R s (serveOp op d p false s) := by
  have rej : ∀ (u : State) st r, R u (u.reject op p st r false) :=
    fun u st r => hR.base (sameBut_mono (reject_frame u op p st r false) (by simp [h1, h2]))
  unfold serveOp
  split
  · refine hR.base ?_
    intro x hx
    cases x <;> first | exact absurd h1 hx | rfl | exact ⟨rfl, rfl⟩ | exact ⟨rfl, rfl, rfl⟩
  · unfold runOp
    split
    · exact rej _ _ _
    · have ha := hR.base (sameBut_mono (authenticate_frame s op p) (by simp [h1, h2, h3]))
      dsimp only
      split
      · exact hR.trans ha (rej _ _ _)
      · rename_i body hb
        have hq : ({ p with params := body } : Pkt) = ownOf op p s := by simp [ownOf, hb]
        rw [if_neg (by simp [ht]), hq]
        refine hR.trans ha ?_
        split
        · exact rej _ _ _
        · rename_i hlay
          have hbad : d.len (ownOf op p s) = true ∧ d.bad (ownOf op p s) (s.authenticate op p).1 = none := by
            unfold State.layoutBad at hlay
            split at hlay
            · cases hlay
            · rename_i hlen
              refine ⟨?_, ?_⟩
              · cases hl : d.len (ownOf op p s) with
                | true => rfl
                | false => exact absurd (Or.inl (by simp [hl])) hlen
              · split at hlay
                · cases hlay
                · assumption
          split
          · exact rej _ _ _
          · exact execute_rel hR h1 h2 hj (hr _ hbad.1 hbad.2 (by assumption))

/-- A served packet without TIMED keeps the relation that its opcode's effect keeps. -/
theorem serveOp_rel {parts : List Part} {R : State → State → Prop} {op : Nat} {d : OpDef} {p : Pkt}
    {s : State} (hR : ServeRel parts R) (h1 : .rings ∈ parts) (h2 : .params ∈ parts)
    (h3 : .firmware ∈ parts) (ht : p.timed = false)
    (hj : keepsEntry parts R d (ownOf op p s))
    (hr : ∀ j u, let q := ownOf op p s
      R u (d.run j q u).s ∧ (d.run j q u).replies = true ∧ ∀ v, (d.run j q u).post v = v) :
    R s (serveOp op d p false s) := serveOp_checked hR h1 h2 h3 ht hj fun _ _ _ _ => hr

end Sys2Proof.Machine
end

