-- ==== Sys2Proof/Laws/State.lean ====
section
/-! SUPPORT. One lemma for each part of the state that a named update leaves alone, so that no proof
unfolds a record update; and what each update reads back as. -/

namespace Sys2Proof.Machine

/-! Time that passes. -/
@[simp] theorem elapse_pending (s : State) (dt : Nat) : (s.elapse dt).pending = s.pending := rfl
@[simp] theorem elapse_free (s : State) (dt : Nat) : (s.elapse dt).free = s.free := rfl
@[simp] theorem elapse_jtag (s : State) (dt : Nat) : (s.elapse dt).jtag = s.jtag := rfl
@[simp] theorem elapse_boundary (s : State) (dt : Nat) : (s.elapse dt).boundary = s.boundary := rfl
@[simp] theorem elapse_tapHold (s : State) (dt : Nat) : (s.elapse dt).tapHold = s.tapHold := rfl
@[simp] theorem elapse_cmd (s : State) (dt : Nat) : (s.elapse dt).cmd = s.cmd := rfl
@[simp] theorem elapse_prm (s : State) (dt : Nat) : (s.elapse dt).prm = s.prm := rfl
@[simp] theorem elapse_pix (s : State) (dt : Nat) : (s.elapse dt).pix = s.pix := rfl
@[simp] theorem elapse_comp (s : State) (dt : Nat) : (s.elapse dt).comp = s.comp := rfl
@[simp] theorem elapse_shd (s : State) (dt : Nat) : (s.elapse dt).shd = s.shd := rfl
@[simp] theorem elapse_sad (s : State) (dt : Nat) : (s.elapse dt).sad = s.sad := rfl
@[simp] theorem elapse_link (s : State) (dt : Nat) : (s.elapse dt).link = s.link := rfl
@[simp] theorem elapse_frm (s : State) (dt : Nat) : (s.elapse dt).frm = s.frm := rfl
@[simp] theorem elapse_str (s : State) (dt : Nat) : (s.elapse dt).str = s.str := rfl
@[simp] theorem elapse_diag (s : State) (dt : Nat) : (s.elapse dt).diag = s.diag := rfl
@[simp] theorem elapse_cal (s : State) (dt : Nat) : (s.elapse dt).cal = s.cal := rfl
@[simp] theorem elapse_mem (s : State) (dt : Nat) : (s.elapse dt).mem = s.mem := rfl
@[simp] theorem elapse_bist (s : State) (dt : Nat) : (s.elapse dt).bist = s.bist := rfl
@[simp] theorem elapse_thm (s : State) (dt : Nat) : (s.elapse dt).thm = s.thm := rfl
@[simp] theorem elapse_jrn (s : State) (dt : Nat) : (s.elapse dt).jrn = s.jrn := rfl
@[simp] theorem elapse_fw (s : State) (dt : Nat) : (s.elapse dt).fw = s.fw := rfl
@[simp] theorem elapse_grp (s : State) (dt : Nat) : (s.elapse dt).grp = s.grp := rfl
@[simp] theorem elapse_nvm (s : State) (dt : Nat) : (s.elapse dt).nvm = s.nvm := rfl

/-! A write of SRAM bytes. -/
@[simp] theorem setSram_pending (s : State) (a : Nat) (l : List Byte) : (s.setSram a l).pending = s.pending := rfl
@[simp] theorem setSram_clk (s : State) (a : Nat) (l : List Byte) : (s.setSram a l).clk = s.clk := rfl
@[simp] theorem setSram_free (s : State) (a : Nat) (l : List Byte) : (s.setSram a l).free = s.free := rfl
@[simp] theorem setSram_jtag (s : State) (a : Nat) (l : List Byte) : (s.setSram a l).jtag = s.jtag := rfl
@[simp] theorem setSram_boundary (s : State) (a : Nat) (l : List Byte) : (s.setSram a l).boundary = s.boundary := rfl
@[simp] theorem setSram_tapHold (s : State) (a : Nat) (l : List Byte) : (s.setSram a l).tapHold = s.tapHold := rfl
@[simp] theorem setSram_cmd (s : State) (a : Nat) (l : List Byte) : (s.setSram a l).cmd = s.cmd := rfl
@[simp] theorem setSram_prm (s : State) (a : Nat) (l : List Byte) : (s.setSram a l).prm = s.prm := rfl
@[simp] theorem setSram_pix (s : State) (a : Nat) (l : List Byte) : (s.setSram a l).pix = s.pix := rfl
@[simp] theorem setSram_comp (s : State) (a : Nat) (l : List Byte) : (s.setSram a l).comp = s.comp := rfl
@[simp] theorem setSram_shd (s : State) (a : Nat) (l : List Byte) : (s.setSram a l).shd = s.shd := rfl
@[simp] theorem setSram_sad (s : State) (a : Nat) (l : List Byte) : (s.setSram a l).sad = s.sad := rfl
@[simp] theorem setSram_link (s : State) (a : Nat) (l : List Byte) : (s.setSram a l).link = s.link := rfl
@[simp] theorem setSram_frm (s : State) (a : Nat) (l : List Byte) : (s.setSram a l).frm = s.frm := rfl
@[simp] theorem setSram_str (s : State) (a : Nat) (l : List Byte) : (s.setSram a l).str = s.str := rfl
@[simp] theorem setSram_diag (s : State) (a : Nat) (l : List Byte) : (s.setSram a l).diag = s.diag := rfl
@[simp] theorem setSram_cal (s : State) (a : Nat) (l : List Byte) : (s.setSram a l).cal = s.cal := rfl
@[simp] theorem setSram_bist (s : State) (a : Nat) (l : List Byte) : (s.setSram a l).bist = s.bist := rfl
@[simp] theorem setSram_thm (s : State) (a : Nat) (l : List Byte) : (s.setSram a l).thm = s.thm := rfl
@[simp] theorem setSram_pwr (s : State) (a : Nat) (l : List Byte) : (s.setSram a l).pwr = s.pwr := rfl
@[simp] theorem setSram_jrn (s : State) (a : Nat) (l : List Byte) : (s.setSram a l).jrn = s.jrn := rfl
@[simp] theorem setSram_fw (s : State) (a : Nat) (l : List Byte) : (s.setSram a l).fw = s.fw := rfl
@[simp] theorem setSram_grp (s : State) (a : Nat) (l : List Byte) : (s.setSram a l).grp = s.grp := rfl
@[simp] theorem setSram_nvm (s : State) (a : Nat) (l : List Byte) : (s.setSram a l).nvm = s.nvm := rfl

/-! A write of MRAM bytes. -/
@[simp] theorem setMram_pending (s : State) (a : Nat) (l : List Byte) : (s.setMram a l).pending = s.pending := rfl
@[simp] theorem setMram_clk (s : State) (a : Nat) (l : List Byte) : (s.setMram a l).clk = s.clk := rfl
@[simp] theorem setMram_free (s : State) (a : Nat) (l : List Byte) : (s.setMram a l).free = s.free := rfl
@[simp] theorem setMram_jtag (s : State) (a : Nat) (l : List Byte) : (s.setMram a l).jtag = s.jtag := rfl
@[simp] theorem setMram_boundary (s : State) (a : Nat) (l : List Byte) : (s.setMram a l).boundary = s.boundary := rfl
@[simp] theorem setMram_tapHold (s : State) (a : Nat) (l : List Byte) : (s.setMram a l).tapHold = s.tapHold := rfl
@[simp] theorem setMram_cmd (s : State) (a : Nat) (l : List Byte) : (s.setMram a l).cmd = s.cmd := rfl
@[simp] theorem setMram_prm (s : State) (a : Nat) (l : List Byte) : (s.setMram a l).prm = s.prm := rfl
@[simp] theorem setMram_pix (s : State) (a : Nat) (l : List Byte) : (s.setMram a l).pix = s.pix := rfl
@[simp] theorem setMram_comp (s : State) (a : Nat) (l : List Byte) : (s.setMram a l).comp = s.comp := rfl
@[simp] theorem setMram_shd (s : State) (a : Nat) (l : List Byte) : (s.setMram a l).shd = s.shd := rfl
@[simp] theorem setMram_sad (s : State) (a : Nat) (l : List Byte) : (s.setMram a l).sad = s.sad := rfl
@[simp] theorem setMram_link (s : State) (a : Nat) (l : List Byte) : (s.setMram a l).link = s.link := rfl
@[simp] theorem setMram_frm (s : State) (a : Nat) (l : List Byte) : (s.setMram a l).frm = s.frm := rfl
@[simp] theorem setMram_str (s : State) (a : Nat) (l : List Byte) : (s.setMram a l).str = s.str := rfl
@[simp] theorem setMram_diag (s : State) (a : Nat) (l : List Byte) : (s.setMram a l).diag = s.diag := rfl
@[simp] theorem setMram_cal (s : State) (a : Nat) (l : List Byte) : (s.setMram a l).cal = s.cal := rfl
@[simp] theorem setMram_bist (s : State) (a : Nat) (l : List Byte) : (s.setMram a l).bist = s.bist := rfl
@[simp] theorem setMram_thm (s : State) (a : Nat) (l : List Byte) : (s.setMram a l).thm = s.thm := rfl
@[simp] theorem setMram_pwr (s : State) (a : Nat) (l : List Byte) : (s.setMram a l).pwr = s.pwr := rfl
@[simp] theorem setMram_jrn (s : State) (a : Nat) (l : List Byte) : (s.setMram a l).jrn = s.jrn := rfl
@[simp] theorem setMram_fw (s : State) (a : Nat) (l : List Byte) : (s.setMram a l).fw = s.fw := rfl
@[simp] theorem setMram_grp (s : State) (a : Nat) (l : List Byte) : (s.setMram a l).grp = s.grp := rfl
@[simp] theorem setMram_nvm (s : State) (a : Nat) (l : List Byte) : (s.setMram a l).nvm = s.nvm := rfl

/-! A write of an object context. -/
@[simp] theorem setCtx_pending (s : State) (n : Nat) (c : ObjCtx) : (s.setCtx n c).pending = s.pending := rfl
@[simp] theorem setCtx_clk (s : State) (n : Nat) (c : ObjCtx) : (s.setCtx n c).clk = s.clk := rfl
@[simp] theorem setCtx_free (s : State) (n : Nat) (c : ObjCtx) : (s.setCtx n c).free = s.free := rfl
@[simp] theorem setCtx_jtag (s : State) (n : Nat) (c : ObjCtx) : (s.setCtx n c).jtag = s.jtag := rfl
@[simp] theorem setCtx_boundary (s : State) (n : Nat) (c : ObjCtx) : (s.setCtx n c).boundary = s.boundary := rfl
@[simp] theorem setCtx_tapHold (s : State) (n : Nat) (c : ObjCtx) : (s.setCtx n c).tapHold = s.tapHold := rfl
@[simp] theorem setCtx_cmd (s : State) (n : Nat) (c : ObjCtx) : (s.setCtx n c).cmd = s.cmd := rfl
@[simp] theorem setCtx_prm (s : State) (n : Nat) (c : ObjCtx) : (s.setCtx n c).prm = s.prm := rfl
@[simp] theorem setCtx_pix (s : State) (n : Nat) (c : ObjCtx) : (s.setCtx n c).pix = s.pix := rfl
@[simp] theorem setCtx_comp (s : State) (n : Nat) (c : ObjCtx) : (s.setCtx n c).comp = s.comp := rfl
@[simp] theorem setCtx_sad (s : State) (n : Nat) (c : ObjCtx) : (s.setCtx n c).sad = s.sad := rfl
@[simp] theorem setCtx_link (s : State) (n : Nat) (c : ObjCtx) : (s.setCtx n c).link = s.link := rfl
@[simp] theorem setCtx_frm (s : State) (n : Nat) (c : ObjCtx) : (s.setCtx n c).frm = s.frm := rfl
@[simp] theorem setCtx_str (s : State) (n : Nat) (c : ObjCtx) : (s.setCtx n c).str = s.str := rfl
@[simp] theorem setCtx_diag (s : State) (n : Nat) (c : ObjCtx) : (s.setCtx n c).diag = s.diag := rfl
@[simp] theorem setCtx_cal (s : State) (n : Nat) (c : ObjCtx) : (s.setCtx n c).cal = s.cal := rfl
@[simp] theorem setCtx_mem (s : State) (n : Nat) (c : ObjCtx) : (s.setCtx n c).mem = s.mem := rfl
@[simp] theorem setCtx_bist (s : State) (n : Nat) (c : ObjCtx) : (s.setCtx n c).bist = s.bist := rfl
@[simp] theorem setCtx_thm (s : State) (n : Nat) (c : ObjCtx) : (s.setCtx n c).thm = s.thm := rfl
@[simp] theorem setCtx_pwr (s : State) (n : Nat) (c : ObjCtx) : (s.setCtx n c).pwr = s.pwr := rfl
@[simp] theorem setCtx_jrn (s : State) (n : Nat) (c : ObjCtx) : (s.setCtx n c).jrn = s.jrn := rfl
@[simp] theorem setCtx_fw (s : State) (n : Nat) (c : ObjCtx) : (s.setCtx n c).fw = s.fw := rfl
@[simp] theorem setCtx_grp (s : State) (n : Nat) (c : ObjCtx) : (s.setCtx n c).grp = s.grp := rfl
@[simp] theorem setCtx_nvm (s : State) (n : Nat) (c : ObjCtx) : (s.setCtx n c).nvm = s.nvm := rfl

/-! A change of a session. -/
@[simp] theorem setSession_pending (s : State) (port : Port) (x : Option Session) : (s.setSession port x).pending = s.pending := rfl
@[simp] theorem setSession_clk (s : State) (port : Port) (x : Option Session) : (s.setSession port x).clk = s.clk := rfl
@[simp] theorem setSession_free (s : State) (port : Port) (x : Option Session) : (s.setSession port x).free = s.free := rfl
@[simp] theorem setSession_jtag (s : State) (port : Port) (x : Option Session) : (s.setSession port x).jtag = s.jtag := rfl
@[simp] theorem setSession_boundary (s : State) (port : Port) (x : Option Session) : (s.setSession port x).boundary = s.boundary := rfl
@[simp] theorem setSession_tapHold (s : State) (port : Port) (x : Option Session) : (s.setSession port x).tapHold = s.tapHold := rfl
@[simp] theorem setSession_cmd (s : State) (port : Port) (x : Option Session) : (s.setSession port x).cmd = s.cmd := rfl
@[simp] theorem setSession_prm (s : State) (port : Port) (x : Option Session) : (s.setSession port x).prm = s.prm := rfl
@[simp] theorem setSession_pix (s : State) (port : Port) (x : Option Session) : (s.setSession port x).pix = s.pix := rfl
@[simp] theorem setSession_comp (s : State) (port : Port) (x : Option Session) : (s.setSession port x).comp = s.comp := rfl
@[simp] theorem setSession_shd (s : State) (port : Port) (x : Option Session) : (s.setSession port x).shd = s.shd := rfl
@[simp] theorem setSession_sad (s : State) (port : Port) (x : Option Session) : (s.setSession port x).sad = s.sad := rfl
@[simp] theorem setSession_link (s : State) (port : Port) (x : Option Session) : (s.setSession port x).link = s.link := rfl
@[simp] theorem setSession_frm (s : State) (port : Port) (x : Option Session) : (s.setSession port x).frm = s.frm := rfl
@[simp] theorem setSession_str (s : State) (port : Port) (x : Option Session) : (s.setSession port x).str = s.str := rfl
@[simp] theorem setSession_diag (s : State) (port : Port) (x : Option Session) : (s.setSession port x).diag = s.diag := rfl
@[simp] theorem setSession_cal (s : State) (port : Port) (x : Option Session) : (s.setSession port x).cal = s.cal := rfl
@[simp] theorem setSession_mem (s : State) (port : Port) (x : Option Session) : (s.setSession port x).mem = s.mem := rfl
@[simp] theorem setSession_bist (s : State) (port : Port) (x : Option Session) : (s.setSession port x).bist = s.bist := rfl
@[simp] theorem setSession_thm (s : State) (port : Port) (x : Option Session) : (s.setSession port x).thm = s.thm := rfl
@[simp] theorem setSession_pwr (s : State) (port : Port) (x : Option Session) : (s.setSession port x).pwr = s.pwr := rfl
@[simp] theorem setSession_jrn (s : State) (port : Port) (x : Option Session) : (s.setSession port x).jrn = s.jrn := rfl
@[simp] theorem setSession_grp (s : State) (port : Port) (x : Option Session) : (s.setSession port x).grp = s.grp := rfl
@[simp] theorem setSession_nvm (s : State) (port : Port) (x : Option Session) : (s.setSession port x).nvm = s.nvm := rfl

/-! A write of a live parameter. -/
@[simp] theorem setLive_pending (s : State) (id v : Nat) : (s.setLive id v).pending = s.pending := rfl
@[simp] theorem setLive_clk (s : State) (id v : Nat) : (s.setLive id v).clk = s.clk := rfl
@[simp] theorem setLive_free (s : State) (id v : Nat) : (s.setLive id v).free = s.free := rfl
@[simp] theorem setLive_jtag (s : State) (id v : Nat) : (s.setLive id v).jtag = s.jtag := rfl
@[simp] theorem setLive_boundary (s : State) (id v : Nat) : (s.setLive id v).boundary = s.boundary := rfl
@[simp] theorem setLive_tapHold (s : State) (id v : Nat) : (s.setLive id v).tapHold = s.tapHold := rfl
@[simp] theorem setLive_cmd (s : State) (id v : Nat) : (s.setLive id v).cmd = s.cmd := rfl
@[simp] theorem setLive_pix (s : State) (id v : Nat) : (s.setLive id v).pix = s.pix := rfl
@[simp] theorem setLive_comp (s : State) (id v : Nat) : (s.setLive id v).comp = s.comp := rfl
@[simp] theorem setLive_shd (s : State) (id v : Nat) : (s.setLive id v).shd = s.shd := rfl
@[simp] theorem setLive_sad (s : State) (id v : Nat) : (s.setLive id v).sad = s.sad := rfl
@[simp] theorem setLive_link (s : State) (id v : Nat) : (s.setLive id v).link = s.link := rfl
@[simp] theorem setLive_frm (s : State) (id v : Nat) : (s.setLive id v).frm = s.frm := rfl
@[simp] theorem setLive_str (s : State) (id v : Nat) : (s.setLive id v).str = s.str := rfl
@[simp] theorem setLive_diag (s : State) (id v : Nat) : (s.setLive id v).diag = s.diag := rfl
@[simp] theorem setLive_cal (s : State) (id v : Nat) : (s.setLive id v).cal = s.cal := rfl
@[simp] theorem setLive_mem (s : State) (id v : Nat) : (s.setLive id v).mem = s.mem := rfl
@[simp] theorem setLive_bist (s : State) (id v : Nat) : (s.setLive id v).bist = s.bist := rfl
@[simp] theorem setLive_thm (s : State) (id v : Nat) : (s.setLive id v).thm = s.thm := rfl
@[simp] theorem setLive_pwr (s : State) (id v : Nat) : (s.setLive id v).pwr = s.pwr := rfl
@[simp] theorem setLive_jrn (s : State) (id v : Nat) : (s.setLive id v).jrn = s.jrn := rfl
@[simp] theorem setLive_fw (s : State) (id v : Nat) : (s.setLive id v).fw = s.fw := rfl
@[simp] theorem setLive_grp (s : State) (id v : Nat) : (s.setLive id v).grp = s.grp := rfl
@[simp] theorem setLive_nvm (s : State) (id v : Nat) : (s.setLive id v).nvm = s.nvm := rfl

/-! A write of a shadow parameter. -/
@[simp] theorem setShadow_pending (s : State) (id v : Nat) : (s.setShadow id v).pending = s.pending := rfl
@[simp] theorem setShadow_clk (s : State) (id v : Nat) : (s.setShadow id v).clk = s.clk := rfl
@[simp] theorem setShadow_free (s : State) (id v : Nat) : (s.setShadow id v).free = s.free := rfl
@[simp] theorem setShadow_jtag (s : State) (id v : Nat) : (s.setShadow id v).jtag = s.jtag := rfl
@[simp] theorem setShadow_boundary (s : State) (id v : Nat) : (s.setShadow id v).boundary = s.boundary := rfl
@[simp] theorem setShadow_tapHold (s : State) (id v : Nat) : (s.setShadow id v).tapHold = s.tapHold := rfl
@[simp] theorem setShadow_cmd (s : State) (id v : Nat) : (s.setShadow id v).cmd = s.cmd := rfl
@[simp] theorem setShadow_pix (s : State) (id v : Nat) : (s.setShadow id v).pix = s.pix := rfl
@[simp] theorem setShadow_comp (s : State) (id v : Nat) : (s.setShadow id v).comp = s.comp := rfl
@[simp] theorem setShadow_shd (s : State) (id v : Nat) : (s.setShadow id v).shd = s.shd := rfl
@[simp] theorem setShadow_sad (s : State) (id v : Nat) : (s.setShadow id v).sad = s.sad := rfl
@[simp] theorem setShadow_link (s : State) (id v : Nat) : (s.setShadow id v).link = s.link := rfl
@[simp] theorem setShadow_frm (s : State) (id v : Nat) : (s.setShadow id v).frm = s.frm := rfl
@[simp] theorem setShadow_str (s : State) (id v : Nat) : (s.setShadow id v).str = s.str := rfl
@[simp] theorem setShadow_diag (s : State) (id v : Nat) : (s.setShadow id v).diag = s.diag := rfl
@[simp] theorem setShadow_cal (s : State) (id v : Nat) : (s.setShadow id v).cal = s.cal := rfl
@[simp] theorem setShadow_mem (s : State) (id v : Nat) : (s.setShadow id v).mem = s.mem := rfl
@[simp] theorem setShadow_bist (s : State) (id v : Nat) : (s.setShadow id v).bist = s.bist := rfl
@[simp] theorem setShadow_thm (s : State) (id v : Nat) : (s.setShadow id v).thm = s.thm := rfl
@[simp] theorem setShadow_pwr (s : State) (id v : Nat) : (s.setShadow id v).pwr = s.pwr := rfl
@[simp] theorem setShadow_jrn (s : State) (id v : Nat) : (s.setShadow id v).jrn = s.jrn := rfl
@[simp] theorem setShadow_fw (s : State) (id v : Nat) : (s.setShadow id v).fw = s.fw := rfl
@[simp] theorem setShadow_grp (s : State) (id v : Nat) : (s.setShadow id v).grp = s.grp := rfl
@[simp] theorem setShadow_nvm (s : State) (id v : Nat) : (s.setShadow id v).nvm = s.nvm := rfl

/-! A count. -/
@[simp] theorem bump_pending (s : State) (id n : Nat) : (s.bump id n).pending = s.pending := rfl
@[simp] theorem bump_clk (s : State) (id n : Nat) : (s.bump id n).clk = s.clk := rfl
@[simp] theorem bump_free (s : State) (id n : Nat) : (s.bump id n).free = s.free := rfl
@[simp] theorem bump_jtag (s : State) (id n : Nat) : (s.bump id n).jtag = s.jtag := rfl
@[simp] theorem bump_boundary (s : State) (id n : Nat) : (s.bump id n).boundary = s.boundary := rfl
@[simp] theorem bump_tapHold (s : State) (id n : Nat) : (s.bump id n).tapHold = s.tapHold := rfl
@[simp] theorem bump_cmd (s : State) (id n : Nat) : (s.bump id n).cmd = s.cmd := rfl
@[simp] theorem bump_pix (s : State) (id n : Nat) : (s.bump id n).pix = s.pix := rfl
@[simp] theorem bump_comp (s : State) (id n : Nat) : (s.bump id n).comp = s.comp := rfl
@[simp] theorem bump_shd (s : State) (id n : Nat) : (s.bump id n).shd = s.shd := rfl
@[simp] theorem bump_sad (s : State) (id n : Nat) : (s.bump id n).sad = s.sad := rfl
@[simp] theorem bump_link (s : State) (id n : Nat) : (s.bump id n).link = s.link := rfl
@[simp] theorem bump_frm (s : State) (id n : Nat) : (s.bump id n).frm = s.frm := rfl
@[simp] theorem bump_str (s : State) (id n : Nat) : (s.bump id n).str = s.str := rfl
@[simp] theorem bump_diag (s : State) (id n : Nat) : (s.bump id n).diag = s.diag := rfl
@[simp] theorem bump_cal (s : State) (id n : Nat) : (s.bump id n).cal = s.cal := rfl
@[simp] theorem bump_mem (s : State) (id n : Nat) : (s.bump id n).mem = s.mem := rfl
@[simp] theorem bump_bist (s : State) (id n : Nat) : (s.bump id n).bist = s.bist := rfl
@[simp] theorem bump_thm (s : State) (id n : Nat) : (s.bump id n).thm = s.thm := rfl
@[simp] theorem bump_pwr (s : State) (id n : Nat) : (s.bump id n).pwr = s.pwr := rfl
@[simp] theorem bump_jrn (s : State) (id n : Nat) : (s.bump id n).jrn = s.jrn := rfl
@[simp] theorem bump_fw (s : State) (id n : Nat) : (s.bump id n).fw = s.fw := rfl
@[simp] theorem bump_grp (s : State) (id n : Nat) : (s.bump id n).grp = s.grp := rfl
@[simp] theorem bump_nvm (s : State) (id n : Nat) : (s.bump id n).nvm = s.nvm := rfl

/-! A change of a tile. -/
@[simp] theorem modTile_pending (s : State) (t : Nat) (f : Tile → Tile) : (s.modTile t f).pending = s.pending := rfl
@[simp] theorem modTile_clk (s : State) (t : Nat) (f : Tile → Tile) : (s.modTile t f).clk = s.clk := rfl
@[simp] theorem modTile_free (s : State) (t : Nat) (f : Tile → Tile) : (s.modTile t f).free = s.free := rfl
@[simp] theorem modTile_jtag (s : State) (t : Nat) (f : Tile → Tile) : (s.modTile t f).jtag = s.jtag := rfl
@[simp] theorem modTile_boundary (s : State) (t : Nat) (f : Tile → Tile) : (s.modTile t f).boundary = s.boundary := rfl
@[simp] theorem modTile_tapHold (s : State) (t : Nat) (f : Tile → Tile) : (s.modTile t f).tapHold = s.tapHold := rfl
@[simp] theorem modTile_cmd (s : State) (t : Nat) (f : Tile → Tile) : (s.modTile t f).cmd = s.cmd := rfl
@[simp] theorem modTile_prm (s : State) (t : Nat) (f : Tile → Tile) : (s.modTile t f).prm = s.prm := rfl
@[simp] theorem modTile_comp (s : State) (t : Nat) (f : Tile → Tile) : (s.modTile t f).comp = s.comp := rfl
@[simp] theorem modTile_shd (s : State) (t : Nat) (f : Tile → Tile) : (s.modTile t f).shd = s.shd := rfl
@[simp] theorem modTile_sad (s : State) (t : Nat) (f : Tile → Tile) : (s.modTile t f).sad = s.sad := rfl
@[simp] theorem modTile_link (s : State) (t : Nat) (f : Tile → Tile) : (s.modTile t f).link = s.link := rfl
@[simp] theorem modTile_frm (s : State) (t : Nat) (f : Tile → Tile) : (s.modTile t f).frm = s.frm := rfl
@[simp] theorem modTile_str (s : State) (t : Nat) (f : Tile → Tile) : (s.modTile t f).str = s.str := rfl
@[simp] theorem modTile_diag (s : State) (t : Nat) (f : Tile → Tile) : (s.modTile t f).diag = s.diag := rfl
@[simp] theorem modTile_cal (s : State) (t : Nat) (f : Tile → Tile) : (s.modTile t f).cal = s.cal := rfl
@[simp] theorem modTile_mem (s : State) (t : Nat) (f : Tile → Tile) : (s.modTile t f).mem = s.mem := rfl
@[simp] theorem modTile_bist (s : State) (t : Nat) (f : Tile → Tile) : (s.modTile t f).bist = s.bist := rfl
@[simp] theorem modTile_thm (s : State) (t : Nat) (f : Tile → Tile) : (s.modTile t f).thm = s.thm := rfl
@[simp] theorem modTile_pwr (s : State) (t : Nat) (f : Tile → Tile) : (s.modTile t f).pwr = s.pwr := rfl
@[simp] theorem modTile_jrn (s : State) (t : Nat) (f : Tile → Tile) : (s.modTile t f).jrn = s.jrn := rfl
@[simp] theorem modTile_fw (s : State) (t : Nat) (f : Tile → Tile) : (s.modTile t f).fw = s.fw := rfl
@[simp] theorem modTile_grp (s : State) (t : Nat) (f : Tile → Tile) : (s.modTile t f).grp = s.grp := rfl
@[simp] theorem modTile_nvm (s : State) (t : Nat) (f : Tile → Tile) : (s.modTile t f).nvm = s.nvm := rfl

/-! A change of a row-group. -/
@[simp] theorem modRg_pending (s : State) (g : Nat) (f : RowGroup → RowGroup) : (s.modRg g f).pending = s.pending := rfl
@[simp] theorem modRg_clk (s : State) (g : Nat) (f : RowGroup → RowGroup) : (s.modRg g f).clk = s.clk := rfl
@[simp] theorem modRg_free (s : State) (g : Nat) (f : RowGroup → RowGroup) : (s.modRg g f).free = s.free := rfl
@[simp] theorem modRg_jtag (s : State) (g : Nat) (f : RowGroup → RowGroup) : (s.modRg g f).jtag = s.jtag := rfl
@[simp] theorem modRg_boundary (s : State) (g : Nat) (f : RowGroup → RowGroup) : (s.modRg g f).boundary = s.boundary := rfl
@[simp] theorem modRg_tapHold (s : State) (g : Nat) (f : RowGroup → RowGroup) : (s.modRg g f).tapHold = s.tapHold := rfl
@[simp] theorem modRg_cmd (s : State) (g : Nat) (f : RowGroup → RowGroup) : (s.modRg g f).cmd = s.cmd := rfl
@[simp] theorem modRg_prm (s : State) (g : Nat) (f : RowGroup → RowGroup) : (s.modRg g f).prm = s.prm := rfl
@[simp] theorem modRg_comp (s : State) (g : Nat) (f : RowGroup → RowGroup) : (s.modRg g f).comp = s.comp := rfl
@[simp] theorem modRg_shd (s : State) (g : Nat) (f : RowGroup → RowGroup) : (s.modRg g f).shd = s.shd := rfl
@[simp] theorem modRg_sad (s : State) (g : Nat) (f : RowGroup → RowGroup) : (s.modRg g f).sad = s.sad := rfl
@[simp] theorem modRg_link (s : State) (g : Nat) (f : RowGroup → RowGroup) : (s.modRg g f).link = s.link := rfl
@[simp] theorem modRg_frm (s : State) (g : Nat) (f : RowGroup → RowGroup) : (s.modRg g f).frm = s.frm := rfl
@[simp] theorem modRg_str (s : State) (g : Nat) (f : RowGroup → RowGroup) : (s.modRg g f).str = s.str := rfl
@[simp] theorem modRg_diag (s : State) (g : Nat) (f : RowGroup → RowGroup) : (s.modRg g f).diag = s.diag := rfl
@[simp] theorem modRg_cal (s : State) (g : Nat) (f : RowGroup → RowGroup) : (s.modRg g f).cal = s.cal := rfl
@[simp] theorem modRg_mem (s : State) (g : Nat) (f : RowGroup → RowGroup) : (s.modRg g f).mem = s.mem := rfl
@[simp] theorem modRg_bist (s : State) (g : Nat) (f : RowGroup → RowGroup) : (s.modRg g f).bist = s.bist := rfl
@[simp] theorem modRg_thm (s : State) (g : Nat) (f : RowGroup → RowGroup) : (s.modRg g f).thm = s.thm := rfl
@[simp] theorem modRg_pwr (s : State) (g : Nat) (f : RowGroup → RowGroup) : (s.modRg g f).pwr = s.pwr := rfl
@[simp] theorem modRg_jrn (s : State) (g : Nat) (f : RowGroup → RowGroup) : (s.modRg g f).jrn = s.jrn := rfl
@[simp] theorem modRg_fw (s : State) (g : Nat) (f : RowGroup → RowGroup) : (s.modRg g f).fw = s.fw := rfl
@[simp] theorem modRg_grp (s : State) (g : Nat) (f : RowGroup → RowGroup) : (s.modRg g f).grp = s.grp := rfl
@[simp] theorem modRg_nvm (s : State) (g : Nat) (f : RowGroup → RowGroup) : (s.modRg g f).nvm = s.nvm := rfl

/-! A change of a string channel. -/
@[simp] theorem modChan_pending (s : State) (n : Nat) (f : Channel → Channel) : (s.modChan n f).pending = s.pending := rfl
@[simp] theorem modChan_clk (s : State) (n : Nat) (f : Channel → Channel) : (s.modChan n f).clk = s.clk := rfl
@[simp] theorem modChan_free (s : State) (n : Nat) (f : Channel → Channel) : (s.modChan n f).free = s.free := rfl
@[simp] theorem modChan_jtag (s : State) (n : Nat) (f : Channel → Channel) : (s.modChan n f).jtag = s.jtag := rfl
@[simp] theorem modChan_boundary (s : State) (n : Nat) (f : Channel → Channel) : (s.modChan n f).boundary = s.boundary := rfl
@[simp] theorem modChan_tapHold (s : State) (n : Nat) (f : Channel → Channel) : (s.modChan n f).tapHold = s.tapHold := rfl
@[simp] theorem modChan_cmd (s : State) (n : Nat) (f : Channel → Channel) : (s.modChan n f).cmd = s.cmd := rfl
@[simp] theorem modChan_prm (s : State) (n : Nat) (f : Channel → Channel) : (s.modChan n f).prm = s.prm := rfl
@[simp] theorem modChan_pix (s : State) (n : Nat) (f : Channel → Channel) : (s.modChan n f).pix = s.pix := rfl
@[simp] theorem modChan_comp (s : State) (n : Nat) (f : Channel → Channel) : (s.modChan n f).comp = s.comp := rfl
@[simp] theorem modChan_shd (s : State) (n : Nat) (f : Channel → Channel) : (s.modChan n f).shd = s.shd := rfl
@[simp] theorem modChan_sad (s : State) (n : Nat) (f : Channel → Channel) : (s.modChan n f).sad = s.sad := rfl
@[simp] theorem modChan_link (s : State) (n : Nat) (f : Channel → Channel) : (s.modChan n f).link = s.link := rfl
@[simp] theorem modChan_frm (s : State) (n : Nat) (f : Channel → Channel) : (s.modChan n f).frm = s.frm := rfl
@[simp] theorem modChan_diag (s : State) (n : Nat) (f : Channel → Channel) : (s.modChan n f).diag = s.diag := rfl
@[simp] theorem modChan_cal (s : State) (n : Nat) (f : Channel → Channel) : (s.modChan n f).cal = s.cal := rfl
@[simp] theorem modChan_mem (s : State) (n : Nat) (f : Channel → Channel) : (s.modChan n f).mem = s.mem := rfl
@[simp] theorem modChan_bist (s : State) (n : Nat) (f : Channel → Channel) : (s.modChan n f).bist = s.bist := rfl
@[simp] theorem modChan_thm (s : State) (n : Nat) (f : Channel → Channel) : (s.modChan n f).thm = s.thm := rfl
@[simp] theorem modChan_pwr (s : State) (n : Nat) (f : Channel → Channel) : (s.modChan n f).pwr = s.pwr := rfl
@[simp] theorem modChan_jrn (s : State) (n : Nat) (f : Channel → Channel) : (s.modChan n f).jrn = s.jrn := rfl
@[simp] theorem modChan_fw (s : State) (n : Nat) (f : Channel → Channel) : (s.modChan n f).fw = s.fw := rfl
@[simp] theorem modChan_grp (s : State) (n : Nat) (f : Channel → Channel) : (s.modChan n f).grp = s.grp := rfl
@[simp] theorem modChan_nvm (s : State) (n : Nat) (f : Channel → Channel) : (s.modChan n f).nvm = s.nvm := rfl

/-! A change of a Crest engine. -/
@[simp] theorem modCrest_pending (s : State) (k : Nat) (f : Crest → Crest) : (s.modCrest k f).pending = s.pending := rfl
@[simp] theorem modCrest_clk (s : State) (k : Nat) (f : Crest → Crest) : (s.modCrest k f).clk = s.clk := rfl
@[simp] theorem modCrest_free (s : State) (k : Nat) (f : Crest → Crest) : (s.modCrest k f).free = s.free := rfl
@[simp] theorem modCrest_jtag (s : State) (k : Nat) (f : Crest → Crest) : (s.modCrest k f).jtag = s.jtag := rfl
@[simp] theorem modCrest_boundary (s : State) (k : Nat) (f : Crest → Crest) : (s.modCrest k f).boundary = s.boundary := rfl
@[simp] theorem modCrest_tapHold (s : State) (k : Nat) (f : Crest → Crest) : (s.modCrest k f).tapHold = s.tapHold := rfl
@[simp] theorem modCrest_cmd (s : State) (k : Nat) (f : Crest → Crest) : (s.modCrest k f).cmd = s.cmd := rfl
@[simp] theorem modCrest_prm (s : State) (k : Nat) (f : Crest → Crest) : (s.modCrest k f).prm = s.prm := rfl
@[simp] theorem modCrest_pix (s : State) (k : Nat) (f : Crest → Crest) : (s.modCrest k f).pix = s.pix := rfl
@[simp] theorem modCrest_comp (s : State) (k : Nat) (f : Crest → Crest) : (s.modCrest k f).comp = s.comp := rfl
@[simp] theorem modCrest_shd (s : State) (k : Nat) (f : Crest → Crest) : (s.modCrest k f).shd = s.shd := rfl
@[simp] theorem modCrest_sad (s : State) (k : Nat) (f : Crest → Crest) : (s.modCrest k f).sad = s.sad := rfl
@[simp] theorem modCrest_link (s : State) (k : Nat) (f : Crest → Crest) : (s.modCrest k f).link = s.link := rfl
@[simp] theorem modCrest_frm (s : State) (k : Nat) (f : Crest → Crest) : (s.modCrest k f).frm = s.frm := rfl
@[simp] theorem modCrest_diag (s : State) (k : Nat) (f : Crest → Crest) : (s.modCrest k f).diag = s.diag := rfl
@[simp] theorem modCrest_cal (s : State) (k : Nat) (f : Crest → Crest) : (s.modCrest k f).cal = s.cal := rfl
@[simp] theorem modCrest_mem (s : State) (k : Nat) (f : Crest → Crest) : (s.modCrest k f).mem = s.mem := rfl
@[simp] theorem modCrest_bist (s : State) (k : Nat) (f : Crest → Crest) : (s.modCrest k f).bist = s.bist := rfl
@[simp] theorem modCrest_thm (s : State) (k : Nat) (f : Crest → Crest) : (s.modCrest k f).thm = s.thm := rfl
@[simp] theorem modCrest_pwr (s : State) (k : Nat) (f : Crest → Crest) : (s.modCrest k f).pwr = s.pwr := rfl
@[simp] theorem modCrest_jrn (s : State) (k : Nat) (f : Crest → Crest) : (s.modCrest k f).jrn = s.jrn := rfl
@[simp] theorem modCrest_fw (s : State) (k : Nat) (f : Crest → Crest) : (s.modCrest k f).fw = s.fw := rfl
@[simp] theorem modCrest_grp (s : State) (k : Nat) (f : Crest → Crest) : (s.modCrest k f).grp = s.grp := rfl
@[simp] theorem modCrest_nvm (s : State) (k : Nat) (f : Crest → Crest) : (s.modCrest k f).nvm = s.nvm := rfl

/-! A write of a CVU. -/
@[simp] theorem setCvu_pending (s : State) (u : Nat) (c : Cvu) : (s.setCvu u c).pending = s.pending := rfl
@[simp] theorem setCvu_clk (s : State) (u : Nat) (c : Cvu) : (s.setCvu u c).clk = s.clk := rfl
@[simp] theorem setCvu_free (s : State) (u : Nat) (c : Cvu) : (s.setCvu u c).free = s.free := rfl
@[simp] theorem setCvu_jtag (s : State) (u : Nat) (c : Cvu) : (s.setCvu u c).jtag = s.jtag := rfl
@[simp] theorem setCvu_boundary (s : State) (u : Nat) (c : Cvu) : (s.setCvu u c).boundary = s.boundary := rfl
@[simp] theorem setCvu_tapHold (s : State) (u : Nat) (c : Cvu) : (s.setCvu u c).tapHold = s.tapHold := rfl
@[simp] theorem setCvu_cmd (s : State) (u : Nat) (c : Cvu) : (s.setCvu u c).cmd = s.cmd := rfl
@[simp] theorem setCvu_prm (s : State) (u : Nat) (c : Cvu) : (s.setCvu u c).prm = s.prm := rfl
@[simp] theorem setCvu_pix (s : State) (u : Nat) (c : Cvu) : (s.setCvu u c).pix = s.pix := rfl
@[simp] theorem setCvu_comp (s : State) (u : Nat) (c : Cvu) : (s.setCvu u c).comp = s.comp := rfl
@[simp] theorem setCvu_shd (s : State) (u : Nat) (c : Cvu) : (s.setCvu u c).shd = s.shd := rfl
@[simp] theorem setCvu_sad (s : State) (u : Nat) (c : Cvu) : (s.setCvu u c).sad = s.sad := rfl
@[simp] theorem setCvu_link (s : State) (u : Nat) (c : Cvu) : (s.setCvu u c).link = s.link := rfl
@[simp] theorem setCvu_frm (s : State) (u : Nat) (c : Cvu) : (s.setCvu u c).frm = s.frm := rfl
@[simp] theorem setCvu_str (s : State) (u : Nat) (c : Cvu) : (s.setCvu u c).str = s.str := rfl
@[simp] theorem setCvu_diag (s : State) (u : Nat) (c : Cvu) : (s.setCvu u c).diag = s.diag := rfl
@[simp] theorem setCvu_cal (s : State) (u : Nat) (c : Cvu) : (s.setCvu u c).cal = s.cal := rfl
@[simp] theorem setCvu_bist (s : State) (u : Nat) (c : Cvu) : (s.setCvu u c).bist = s.bist := rfl
@[simp] theorem setCvu_thm (s : State) (u : Nat) (c : Cvu) : (s.setCvu u c).thm = s.thm := rfl
@[simp] theorem setCvu_pwr (s : State) (u : Nat) (c : Cvu) : (s.setCvu u c).pwr = s.pwr := rfl
@[simp] theorem setCvu_jrn (s : State) (u : Nat) (c : Cvu) : (s.setCvu u c).jrn = s.jrn := rfl
@[simp] theorem setCvu_fw (s : State) (u : Nat) (c : Cvu) : (s.setCvu u c).fw = s.fw := rfl
@[simp] theorem setCvu_grp (s : State) (u : Nat) (c : Cvu) : (s.setCvu u c).grp = s.grp := rfl
@[simp] theorem setCvu_nvm (s : State) (u : Nat) (c : Cvu) : (s.setCvu u c).nvm = s.nvm := rfl

/-! A change of a test result. -/
@[simp] theorem modTest_pending (s : State) (ty tg : Nat) (f : TestRes → TestRes) : (s.modTest ty tg f).pending = s.pending := rfl
@[simp] theorem modTest_clk (s : State) (ty tg : Nat) (f : TestRes → TestRes) : (s.modTest ty tg f).clk = s.clk := rfl
@[simp] theorem modTest_free (s : State) (ty tg : Nat) (f : TestRes → TestRes) : (s.modTest ty tg f).free = s.free := rfl
@[simp] theorem modTest_jtag (s : State) (ty tg : Nat) (f : TestRes → TestRes) : (s.modTest ty tg f).jtag = s.jtag := rfl
@[simp] theorem modTest_boundary (s : State) (ty tg : Nat) (f : TestRes → TestRes) : (s.modTest ty tg f).boundary = s.boundary := rfl
@[simp] theorem modTest_tapHold (s : State) (ty tg : Nat) (f : TestRes → TestRes) : (s.modTest ty tg f).tapHold = s.tapHold := rfl
@[simp] theorem modTest_cmd (s : State) (ty tg : Nat) (f : TestRes → TestRes) : (s.modTest ty tg f).cmd = s.cmd := rfl
@[simp] theorem modTest_prm (s : State) (ty tg : Nat) (f : TestRes → TestRes) : (s.modTest ty tg f).prm = s.prm := rfl
@[simp] theorem modTest_pix (s : State) (ty tg : Nat) (f : TestRes → TestRes) : (s.modTest ty tg f).pix = s.pix := rfl
@[simp] theorem modTest_comp (s : State) (ty tg : Nat) (f : TestRes → TestRes) : (s.modTest ty tg f).comp = s.comp := rfl
@[simp] theorem modTest_shd (s : State) (ty tg : Nat) (f : TestRes → TestRes) : (s.modTest ty tg f).shd = s.shd := rfl
@[simp] theorem modTest_sad (s : State) (ty tg : Nat) (f : TestRes → TestRes) : (s.modTest ty tg f).sad = s.sad := rfl
@[simp] theorem modTest_link (s : State) (ty tg : Nat) (f : TestRes → TestRes) : (s.modTest ty tg f).link = s.link := rfl
@[simp] theorem modTest_frm (s : State) (ty tg : Nat) (f : TestRes → TestRes) : (s.modTest ty tg f).frm = s.frm := rfl
@[simp] theorem modTest_str (s : State) (ty tg : Nat) (f : TestRes → TestRes) : (s.modTest ty tg f).str = s.str := rfl
@[simp] theorem modTest_diag (s : State) (ty tg : Nat) (f : TestRes → TestRes) : (s.modTest ty tg f).diag = s.diag := rfl
@[simp] theorem modTest_cal (s : State) (ty tg : Nat) (f : TestRes → TestRes) : (s.modTest ty tg f).cal = s.cal := rfl
@[simp] theorem modTest_mem (s : State) (ty tg : Nat) (f : TestRes → TestRes) : (s.modTest ty tg f).mem = s.mem := rfl
@[simp] theorem modTest_thm (s : State) (ty tg : Nat) (f : TestRes → TestRes) : (s.modTest ty tg f).thm = s.thm := rfl
@[simp] theorem modTest_pwr (s : State) (ty tg : Nat) (f : TestRes → TestRes) : (s.modTest ty tg f).pwr = s.pwr := rfl
@[simp] theorem modTest_jrn (s : State) (ty tg : Nat) (f : TestRes → TestRes) : (s.modTest ty tg f).jrn = s.jrn := rfl
@[simp] theorem modTest_fw (s : State) (ty tg : Nat) (f : TestRes → TestRes) : (s.modTest ty tg f).fw = s.fw := rfl
@[simp] theorem modTest_grp (s : State) (ty tg : Nat) (f : TestRes → TestRes) : (s.modTest ty tg f).grp = s.grp := rfl
@[simp] theorem modTest_nvm (s : State) (ty tg : Nat) (f : TestRes → TestRes) : (s.modTest ty tg f).nvm = s.nvm := rfl

/-! Lines written whole. -/
@[simp] theorem wholeWritten_pending (s : State) (f : Nat → Bool) : (s.wholeWritten f).pending = s.pending := rfl
@[simp] theorem wholeWritten_clk (s : State) (f : Nat → Bool) : (s.wholeWritten f).clk = s.clk := rfl
@[simp] theorem wholeWritten_free (s : State) (f : Nat → Bool) : (s.wholeWritten f).free = s.free := rfl
@[simp] theorem wholeWritten_jtag (s : State) (f : Nat → Bool) : (s.wholeWritten f).jtag = s.jtag := rfl
@[simp] theorem wholeWritten_boundary (s : State) (f : Nat → Bool) : (s.wholeWritten f).boundary = s.boundary := rfl
@[simp] theorem wholeWritten_tapHold (s : State) (f : Nat → Bool) : (s.wholeWritten f).tapHold = s.tapHold := rfl
@[simp] theorem wholeWritten_cmd (s : State) (f : Nat → Bool) : (s.wholeWritten f).cmd = s.cmd := rfl
@[simp] theorem wholeWritten_prm (s : State) (f : Nat → Bool) : (s.wholeWritten f).prm = s.prm := rfl
@[simp] theorem wholeWritten_pix (s : State) (f : Nat → Bool) : (s.wholeWritten f).pix = s.pix := rfl
@[simp] theorem wholeWritten_comp (s : State) (f : Nat → Bool) : (s.wholeWritten f).comp = s.comp := rfl
@[simp] theorem wholeWritten_shd (s : State) (f : Nat → Bool) : (s.wholeWritten f).shd = s.shd := rfl
@[simp] theorem wholeWritten_sad (s : State) (f : Nat → Bool) : (s.wholeWritten f).sad = s.sad := rfl
@[simp] theorem wholeWritten_link (s : State) (f : Nat → Bool) : (s.wholeWritten f).link = s.link := rfl
@[simp] theorem wholeWritten_frm (s : State) (f : Nat → Bool) : (s.wholeWritten f).frm = s.frm := rfl
@[simp] theorem wholeWritten_str (s : State) (f : Nat → Bool) : (s.wholeWritten f).str = s.str := rfl
@[simp] theorem wholeWritten_diag (s : State) (f : Nat → Bool) : (s.wholeWritten f).diag = s.diag := rfl
@[simp] theorem wholeWritten_cal (s : State) (f : Nat → Bool) : (s.wholeWritten f).cal = s.cal := rfl
@[simp] theorem wholeWritten_bist (s : State) (f : Nat → Bool) : (s.wholeWritten f).bist = s.bist := rfl
@[simp] theorem wholeWritten_thm (s : State) (f : Nat → Bool) : (s.wholeWritten f).thm = s.thm := rfl
@[simp] theorem wholeWritten_pwr (s : State) (f : Nat → Bool) : (s.wholeWritten f).pwr = s.pwr := rfl
@[simp] theorem wholeWritten_jrn (s : State) (f : Nat → Bool) : (s.wholeWritten f).jrn = s.jrn := rfl
@[simp] theorem wholeWritten_fw (s : State) (f : Nat → Bool) : (s.wholeWritten f).fw = s.fw := rfl
@[simp] theorem wholeWritten_grp (s : State) (f : Nat → Bool) : (s.wholeWritten f).grp = s.grp := rfl
@[simp] theorem wholeWritten_nvm (s : State) (f : Nat → Bool) : (s.wholeWritten f).nvm = s.nvm := rfl

/-! An error that is gone. -/
@[simp] theorem errGone_pending (s : State) (a : Nat) : (s.errGone a).pending = s.pending := rfl
@[simp] theorem errGone_clk (s : State) (a : Nat) : (s.errGone a).clk = s.clk := rfl
@[simp] theorem errGone_free (s : State) (a : Nat) : (s.errGone a).free = s.free := rfl
@[simp] theorem errGone_jtag (s : State) (a : Nat) : (s.errGone a).jtag = s.jtag := rfl
@[simp] theorem errGone_boundary (s : State) (a : Nat) : (s.errGone a).boundary = s.boundary := rfl
@[simp] theorem errGone_tapHold (s : State) (a : Nat) : (s.errGone a).tapHold = s.tapHold := rfl
@[simp] theorem errGone_cmd (s : State) (a : Nat) : (s.errGone a).cmd = s.cmd := rfl
@[simp] theorem errGone_prm (s : State) (a : Nat) : (s.errGone a).prm = s.prm := rfl
@[simp] theorem errGone_pix (s : State) (a : Nat) : (s.errGone a).pix = s.pix := rfl
@[simp] theorem errGone_comp (s : State) (a : Nat) : (s.errGone a).comp = s.comp := rfl
@[simp] theorem errGone_shd (s : State) (a : Nat) : (s.errGone a).shd = s.shd := rfl
@[simp] theorem errGone_sad (s : State) (a : Nat) : (s.errGone a).sad = s.sad := rfl
@[simp] theorem errGone_link (s : State) (a : Nat) : (s.errGone a).link = s.link := rfl
@[simp] theorem errGone_frm (s : State) (a : Nat) : (s.errGone a).frm = s.frm := rfl
@[simp] theorem errGone_str (s : State) (a : Nat) : (s.errGone a).str = s.str := rfl
@[simp] theorem errGone_diag (s : State) (a : Nat) : (s.errGone a).diag = s.diag := rfl
@[simp] theorem errGone_cal (s : State) (a : Nat) : (s.errGone a).cal = s.cal := rfl
@[simp] theorem errGone_bist (s : State) (a : Nat) : (s.errGone a).bist = s.bist := rfl
@[simp] theorem errGone_thm (s : State) (a : Nat) : (s.errGone a).thm = s.thm := rfl
@[simp] theorem errGone_pwr (s : State) (a : Nat) : (s.errGone a).pwr = s.pwr := rfl
@[simp] theorem errGone_jrn (s : State) (a : Nat) : (s.errGone a).jrn = s.jrn := rfl
@[simp] theorem errGone_fw (s : State) (a : Nat) : (s.errGone a).fw = s.fw := rfl
@[simp] theorem errGone_grp (s : State) (a : Nat) : (s.errGone a).grp = s.grp := rfl
@[simp] theorem errGone_nvm (s : State) (a : Nat) : (s.errGone a).nvm = s.nvm := rfl

/-! Ring lines written whole. -/
@[simp] theorem ringsWritten_pending (s : State) : (s.ringsWritten).pending = s.pending := rfl
@[simp] theorem ringsWritten_clk (s : State) : (s.ringsWritten).clk = s.clk := rfl
@[simp] theorem ringsWritten_free (s : State) : (s.ringsWritten).free = s.free := rfl
@[simp] theorem ringsWritten_jtag (s : State) : (s.ringsWritten).jtag = s.jtag := rfl
@[simp] theorem ringsWritten_boundary (s : State) : (s.ringsWritten).boundary = s.boundary := rfl
@[simp] theorem ringsWritten_tapHold (s : State) : (s.ringsWritten).tapHold = s.tapHold := rfl
@[simp] theorem ringsWritten_prm (s : State) : (s.ringsWritten).prm = s.prm := rfl
@[simp] theorem ringsWritten_pix (s : State) : (s.ringsWritten).pix = s.pix := rfl
@[simp] theorem ringsWritten_comp (s : State) : (s.ringsWritten).comp = s.comp := rfl
@[simp] theorem ringsWritten_shd (s : State) : (s.ringsWritten).shd = s.shd := rfl
@[simp] theorem ringsWritten_sad (s : State) : (s.ringsWritten).sad = s.sad := rfl
@[simp] theorem ringsWritten_link (s : State) : (s.ringsWritten).link = s.link := rfl
@[simp] theorem ringsWritten_frm (s : State) : (s.ringsWritten).frm = s.frm := rfl
@[simp] theorem ringsWritten_str (s : State) : (s.ringsWritten).str = s.str := rfl
@[simp] theorem ringsWritten_diag (s : State) : (s.ringsWritten).diag = s.diag := rfl
@[simp] theorem ringsWritten_cal (s : State) : (s.ringsWritten).cal = s.cal := rfl
@[simp] theorem ringsWritten_bist (s : State) : (s.ringsWritten).bist = s.bist := rfl
@[simp] theorem ringsWritten_thm (s : State) : (s.ringsWritten).thm = s.thm := rfl
@[simp] theorem ringsWritten_pwr (s : State) : (s.ringsWritten).pwr = s.pwr := rfl
@[simp] theorem ringsWritten_jrn (s : State) : (s.ringsWritten).jrn = s.jrn := rfl
@[simp] theorem ringsWritten_fw (s : State) : (s.ringsWritten).fw = s.fw := rfl
@[simp] theorem ringsWritten_grp (s : State) : (s.ringsWritten).grp = s.grp := rfl
@[simp] theorem ringsWritten_nvm (s : State) : (s.ringsWritten).nvm = s.nvm := rfl

/-! Errors that arise. -/
@[simp] theorem arise_pending (s : State) (ups : Upsets) : (s.arise ups).pending = s.pending := rfl
@[simp] theorem arise_clk (s : State) (ups : Upsets) : (s.arise ups).clk = s.clk := rfl
@[simp] theorem arise_free (s : State) (ups : Upsets) : (s.arise ups).free = s.free := rfl
@[simp] theorem arise_jtag (s : State) (ups : Upsets) : (s.arise ups).jtag = s.jtag := rfl
@[simp] theorem arise_boundary (s : State) (ups : Upsets) : (s.arise ups).boundary = s.boundary := rfl
@[simp] theorem arise_tapHold (s : State) (ups : Upsets) : (s.arise ups).tapHold = s.tapHold := rfl
@[simp] theorem arise_prm (s : State) (ups : Upsets) : (s.arise ups).prm = s.prm := rfl
@[simp] theorem arise_pix (s : State) (ups : Upsets) : (s.arise ups).pix = s.pix := rfl
@[simp] theorem arise_comp (s : State) (ups : Upsets) : (s.arise ups).comp = s.comp := rfl
@[simp] theorem arise_shd (s : State) (ups : Upsets) : (s.arise ups).shd = s.shd := rfl
@[simp] theorem arise_sad (s : State) (ups : Upsets) : (s.arise ups).sad = s.sad := rfl
@[simp] theorem arise_link (s : State) (ups : Upsets) : (s.arise ups).link = s.link := rfl
@[simp] theorem arise_frm (s : State) (ups : Upsets) : (s.arise ups).frm = s.frm := rfl
@[simp] theorem arise_str (s : State) (ups : Upsets) : (s.arise ups).str = s.str := rfl
@[simp] theorem arise_diag (s : State) (ups : Upsets) : (s.arise ups).diag = s.diag := rfl
@[simp] theorem arise_cal (s : State) (ups : Upsets) : (s.arise ups).cal = s.cal := rfl
@[simp] theorem arise_bist (s : State) (ups : Upsets) : (s.arise ups).bist = s.bist := rfl
@[simp] theorem arise_thm (s : State) (ups : Upsets) : (s.arise ups).thm = s.thm := rfl
@[simp] theorem arise_pwr (s : State) (ups : Upsets) : (s.arise ups).pwr = s.pwr := rfl
@[simp] theorem arise_jrn (s : State) (ups : Upsets) : (s.arise ups).jrn = s.jrn := rfl
@[simp] theorem arise_fw (s : State) (ups : Upsets) : (s.arise ups).fw = s.fw := rfl
@[simp] theorem arise_grp (s : State) (ups : Upsets) : (s.arise ups).grp = s.grp := rfl
@[simp] theorem arise_nvm (s : State) (ups : Upsets) : (s.arise ups).nvm = s.nvm := rfl

/-! A head that leaves its ring. -/
@[simp] theorem headOn_pending (s : State) (r n : Nat) : (s.headOn r n).pending = s.pending := rfl
@[simp] theorem headOn_clk (s : State) (r n : Nat) : (s.headOn r n).clk = s.clk := rfl
@[simp] theorem headOn_free (s : State) (r n : Nat) : (s.headOn r n).free = s.free := rfl
@[simp] theorem headOn_jtag (s : State) (r n : Nat) : (s.headOn r n).jtag = s.jtag := rfl
@[simp] theorem headOn_boundary (s : State) (r n : Nat) : (s.headOn r n).boundary = s.boundary := rfl
@[simp] theorem headOn_tapHold (s : State) (r n : Nat) : (s.headOn r n).tapHold = s.tapHold := rfl
@[simp] theorem headOn_prm (s : State) (r n : Nat) : (s.headOn r n).prm = s.prm := rfl
@[simp] theorem headOn_pix (s : State) (r n : Nat) : (s.headOn r n).pix = s.pix := rfl
@[simp] theorem headOn_comp (s : State) (r n : Nat) : (s.headOn r n).comp = s.comp := rfl
@[simp] theorem headOn_shd (s : State) (r n : Nat) : (s.headOn r n).shd = s.shd := rfl
@[simp] theorem headOn_sad (s : State) (r n : Nat) : (s.headOn r n).sad = s.sad := rfl
@[simp] theorem headOn_link (s : State) (r n : Nat) : (s.headOn r n).link = s.link := rfl
@[simp] theorem headOn_frm (s : State) (r n : Nat) : (s.headOn r n).frm = s.frm := rfl
@[simp] theorem headOn_str (s : State) (r n : Nat) : (s.headOn r n).str = s.str := rfl
@[simp] theorem headOn_diag (s : State) (r n : Nat) : (s.headOn r n).diag = s.diag := rfl
@[simp] theorem headOn_cal (s : State) (r n : Nat) : (s.headOn r n).cal = s.cal := rfl
@[simp] theorem headOn_mem (s : State) (r n : Nat) : (s.headOn r n).mem = s.mem := rfl
@[simp] theorem headOn_bist (s : State) (r n : Nat) : (s.headOn r n).bist = s.bist := rfl
@[simp] theorem headOn_thm (s : State) (r n : Nat) : (s.headOn r n).thm = s.thm := rfl
@[simp] theorem headOn_pwr (s : State) (r n : Nat) : (s.headOn r n).pwr = s.pwr := rfl
@[simp] theorem headOn_jrn (s : State) (r n : Nat) : (s.headOn r n).jrn = s.jrn := rfl
@[simp] theorem headOn_fw (s : State) (r n : Nat) : (s.headOn r n).fw = s.fw := rfl
@[simp] theorem headOn_grp (s : State) (r n : Nat) : (s.headOn r n).grp = s.grp := rfl
@[simp] theorem headOn_nvm (s : State) (r n : Nat) : (s.headOn r n).nvm = s.nvm := rfl

/-! A packet at the head of its ring. -/
@[simp] theorem putBack_pending (s : State) (op : Nat) (p : Pkt) (gap : Bool) : (s.putBack op p gap).pending = s.pending := rfl
@[simp] theorem putBack_clk (s : State) (op : Nat) (p : Pkt) (gap : Bool) : (s.putBack op p gap).clk = s.clk := rfl
@[simp] theorem putBack_free (s : State) (op : Nat) (p : Pkt) (gap : Bool) : (s.putBack op p gap).free = s.free := rfl
@[simp] theorem putBack_jtag (s : State) (op : Nat) (p : Pkt) (gap : Bool) : (s.putBack op p gap).jtag = s.jtag := rfl
@[simp] theorem putBack_boundary (s : State) (op : Nat) (p : Pkt) (gap : Bool) : (s.putBack op p gap).boundary = s.boundary := rfl
@[simp] theorem putBack_tapHold (s : State) (op : Nat) (p : Pkt) (gap : Bool) : (s.putBack op p gap).tapHold = s.tapHold := rfl
@[simp] theorem putBack_prm (s : State) (op : Nat) (p : Pkt) (gap : Bool) : (s.putBack op p gap).prm = s.prm := rfl
@[simp] theorem putBack_pix (s : State) (op : Nat) (p : Pkt) (gap : Bool) : (s.putBack op p gap).pix = s.pix := rfl
@[simp] theorem putBack_comp (s : State) (op : Nat) (p : Pkt) (gap : Bool) : (s.putBack op p gap).comp = s.comp := rfl
@[simp] theorem putBack_shd (s : State) (op : Nat) (p : Pkt) (gap : Bool) : (s.putBack op p gap).shd = s.shd := rfl
@[simp] theorem putBack_sad (s : State) (op : Nat) (p : Pkt) (gap : Bool) : (s.putBack op p gap).sad = s.sad := rfl
@[simp] theorem putBack_link (s : State) (op : Nat) (p : Pkt) (gap : Bool) : (s.putBack op p gap).link = s.link := rfl
@[simp] theorem putBack_frm (s : State) (op : Nat) (p : Pkt) (gap : Bool) : (s.putBack op p gap).frm = s.frm := rfl
@[simp] theorem putBack_str (s : State) (op : Nat) (p : Pkt) (gap : Bool) : (s.putBack op p gap).str = s.str := rfl
@[simp] theorem putBack_diag (s : State) (op : Nat) (p : Pkt) (gap : Bool) : (s.putBack op p gap).diag = s.diag := rfl
@[simp] theorem putBack_cal (s : State) (op : Nat) (p : Pkt) (gap : Bool) : (s.putBack op p gap).cal = s.cal := rfl
@[simp] theorem putBack_mem (s : State) (op : Nat) (p : Pkt) (gap : Bool) : (s.putBack op p gap).mem = s.mem := rfl
@[simp] theorem putBack_bist (s : State) (op : Nat) (p : Pkt) (gap : Bool) : (s.putBack op p gap).bist = s.bist := rfl
@[simp] theorem putBack_thm (s : State) (op : Nat) (p : Pkt) (gap : Bool) : (s.putBack op p gap).thm = s.thm := rfl
@[simp] theorem putBack_pwr (s : State) (op : Nat) (p : Pkt) (gap : Bool) : (s.putBack op p gap).pwr = s.pwr := rfl
@[simp] theorem putBack_jrn (s : State) (op : Nat) (p : Pkt) (gap : Bool) : (s.putBack op p gap).jrn = s.jrn := rfl
@[simp] theorem putBack_fw (s : State) (op : Nat) (p : Pkt) (gap : Bool) : (s.putBack op p gap).fw = s.fw := rfl
@[simp] theorem putBack_grp (s : State) (op : Nat) (p : Pkt) (gap : Bool) : (s.putBack op p gap).grp = s.grp := rfl
@[simp] theorem putBack_nvm (s : State) (op : Nat) (p : Pkt) (gap : Bool) : (s.putBack op p gap).nvm = s.nvm := rfl

/-! A job that is over. -/
@[simp] theorem dropJob_pending (s : State) (b : Job) : (s.dropJob b).pending = s.pending := rfl
@[simp] theorem dropJob_clk (s : State) (b : Job) : (s.dropJob b).clk = s.clk := rfl
@[simp] theorem dropJob_free (s : State) (b : Job) : (s.dropJob b).free = s.free := rfl
@[simp] theorem dropJob_jtag (s : State) (b : Job) : (s.dropJob b).jtag = s.jtag := rfl
@[simp] theorem dropJob_boundary (s : State) (b : Job) : (s.dropJob b).boundary = s.boundary := rfl
@[simp] theorem dropJob_tapHold (s : State) (b : Job) : (s.dropJob b).tapHold = s.tapHold := rfl
@[simp] theorem dropJob_prm (s : State) (b : Job) : (s.dropJob b).prm = s.prm := rfl
@[simp] theorem dropJob_pix (s : State) (b : Job) : (s.dropJob b).pix = s.pix := rfl
@[simp] theorem dropJob_comp (s : State) (b : Job) : (s.dropJob b).comp = s.comp := rfl
@[simp] theorem dropJob_shd (s : State) (b : Job) : (s.dropJob b).shd = s.shd := rfl
@[simp] theorem dropJob_sad (s : State) (b : Job) : (s.dropJob b).sad = s.sad := rfl
@[simp] theorem dropJob_link (s : State) (b : Job) : (s.dropJob b).link = s.link := rfl
@[simp] theorem dropJob_frm (s : State) (b : Job) : (s.dropJob b).frm = s.frm := rfl
@[simp] theorem dropJob_str (s : State) (b : Job) : (s.dropJob b).str = s.str := rfl
@[simp] theorem dropJob_diag (s : State) (b : Job) : (s.dropJob b).diag = s.diag := rfl
@[simp] theorem dropJob_cal (s : State) (b : Job) : (s.dropJob b).cal = s.cal := rfl
@[simp] theorem dropJob_mem (s : State) (b : Job) : (s.dropJob b).mem = s.mem := rfl
@[simp] theorem dropJob_bist (s : State) (b : Job) : (s.dropJob b).bist = s.bist := rfl
@[simp] theorem dropJob_thm (s : State) (b : Job) : (s.dropJob b).thm = s.thm := rfl
@[simp] theorem dropJob_pwr (s : State) (b : Job) : (s.dropJob b).pwr = s.pwr := rfl
@[simp] theorem dropJob_jrn (s : State) (b : Job) : (s.dropJob b).jrn = s.jrn := rfl
@[simp] theorem dropJob_fw (s : State) (b : Job) : (s.dropJob b).fw = s.fw := rfl
@[simp] theorem dropJob_grp (s : State) (b : Job) : (s.dropJob b).grp = s.grp := rfl
@[simp] theorem dropJob_nvm (s : State) (b : Job) : (s.dropJob b).nvm = s.nvm := rfl

/-! A journal line that no longer waits. -/
@[simp] theorem dropLine_pending (s : State) (j : Word) : (s.dropLine j).pending = s.pending := rfl
@[simp] theorem dropLine_clk (s : State) (j : Word) : (s.dropLine j).clk = s.clk := rfl
@[simp] theorem dropLine_free (s : State) (j : Word) : (s.dropLine j).free = s.free := rfl
@[simp] theorem dropLine_jtag (s : State) (j : Word) : (s.dropLine j).jtag = s.jtag := rfl
@[simp] theorem dropLine_boundary (s : State) (j : Word) : (s.dropLine j).boundary = s.boundary := rfl
@[simp] theorem dropLine_tapHold (s : State) (j : Word) : (s.dropLine j).tapHold = s.tapHold := rfl
@[simp] theorem dropLine_cmd (s : State) (j : Word) : (s.dropLine j).cmd = s.cmd := rfl
@[simp] theorem dropLine_prm (s : State) (j : Word) : (s.dropLine j).prm = s.prm := rfl
@[simp] theorem dropLine_pix (s : State) (j : Word) : (s.dropLine j).pix = s.pix := rfl
@[simp] theorem dropLine_comp (s : State) (j : Word) : (s.dropLine j).comp = s.comp := rfl
@[simp] theorem dropLine_shd (s : State) (j : Word) : (s.dropLine j).shd = s.shd := rfl
@[simp] theorem dropLine_sad (s : State) (j : Word) : (s.dropLine j).sad = s.sad := rfl
@[simp] theorem dropLine_link (s : State) (j : Word) : (s.dropLine j).link = s.link := rfl
@[simp] theorem dropLine_frm (s : State) (j : Word) : (s.dropLine j).frm = s.frm := rfl
@[simp] theorem dropLine_str (s : State) (j : Word) : (s.dropLine j).str = s.str := rfl
@[simp] theorem dropLine_diag (s : State) (j : Word) : (s.dropLine j).diag = s.diag := rfl
@[simp] theorem dropLine_cal (s : State) (j : Word) : (s.dropLine j).cal = s.cal := rfl
@[simp] theorem dropLine_mem (s : State) (j : Word) : (s.dropLine j).mem = s.mem := rfl
@[simp] theorem dropLine_bist (s : State) (j : Word) : (s.dropLine j).bist = s.bist := rfl
@[simp] theorem dropLine_thm (s : State) (j : Word) : (s.dropLine j).thm = s.thm := rfl
@[simp] theorem dropLine_pwr (s : State) (j : Word) : (s.dropLine j).pwr = s.pwr := rfl
@[simp] theorem dropLine_fw (s : State) (j : Word) : (s.dropLine j).fw = s.fw := rfl
@[simp] theorem dropLine_grp (s : State) (j : Word) : (s.dropLine j).grp = s.grp := rfl
@[simp] theorem dropLine_nvm (s : State) (j : Word) : (s.dropLine j).nvm = s.nvm := rfl

/-! A latched fault. -/
@[simp] theorem latchFault_pending (s : State) (k : Nat) : (s.latchFault k).pending = s.pending := rfl
@[simp] theorem latchFault_clk (s : State) (k : Nat) : (s.latchFault k).clk = s.clk := rfl
@[simp] theorem latchFault_free (s : State) (k : Nat) : (s.latchFault k).free = s.free := rfl
@[simp] theorem latchFault_jtag (s : State) (k : Nat) : (s.latchFault k).jtag = s.jtag := rfl
@[simp] theorem latchFault_boundary (s : State) (k : Nat) : (s.latchFault k).boundary = s.boundary := rfl
@[simp] theorem latchFault_tapHold (s : State) (k : Nat) : (s.latchFault k).tapHold = s.tapHold := rfl
@[simp] theorem latchFault_cmd (s : State) (k : Nat) : (s.latchFault k).cmd = s.cmd := rfl
@[simp] theorem latchFault_prm (s : State) (k : Nat) : (s.latchFault k).prm = s.prm := rfl
@[simp] theorem latchFault_pix (s : State) (k : Nat) : (s.latchFault k).pix = s.pix := rfl
@[simp] theorem latchFault_comp (s : State) (k : Nat) : (s.latchFault k).comp = s.comp := rfl
@[simp] theorem latchFault_shd (s : State) (k : Nat) : (s.latchFault k).shd = s.shd := rfl
@[simp] theorem latchFault_sad (s : State) (k : Nat) : (s.latchFault k).sad = s.sad := rfl
@[simp] theorem latchFault_link (s : State) (k : Nat) : (s.latchFault k).link = s.link := rfl
@[simp] theorem latchFault_frm (s : State) (k : Nat) : (s.latchFault k).frm = s.frm := rfl
@[simp] theorem latchFault_str (s : State) (k : Nat) : (s.latchFault k).str = s.str := rfl
@[simp] theorem latchFault_cal (s : State) (k : Nat) : (s.latchFault k).cal = s.cal := rfl
@[simp] theorem latchFault_mem (s : State) (k : Nat) : (s.latchFault k).mem = s.mem := rfl
@[simp] theorem latchFault_bist (s : State) (k : Nat) : (s.latchFault k).bist = s.bist := rfl
@[simp] theorem latchFault_thm (s : State) (k : Nat) : (s.latchFault k).thm = s.thm := rfl
@[simp] theorem latchFault_pwr (s : State) (k : Nat) : (s.latchFault k).pwr = s.pwr := rfl
@[simp] theorem latchFault_jrn (s : State) (k : Nat) : (s.latchFault k).jrn = s.jrn := rfl
@[simp] theorem latchFault_fw (s : State) (k : Nat) : (s.latchFault k).fw = s.fw := rfl
@[simp] theorem latchFault_grp (s : State) (k : Nat) : (s.latchFault k).grp = s.grp := rfl
@[simp] theorem latchFault_nvm (s : State) (k : Nat) : (s.latchFault k).nvm = s.nvm := rfl

/-! A write of a lane. -/
@[simp] theorem setLane_pending (s : State) (l : Lane) (v : LaneSt) : (s.setLane l v).pending = s.pending := by cases l <;> rfl
@[simp] theorem setLane_clk (s : State) (l : Lane) (v : LaneSt) : (s.setLane l v).clk = s.clk := by cases l <;> rfl
@[simp] theorem setLane_free (s : State) (l : Lane) (v : LaneSt) : (s.setLane l v).free = s.free := by cases l <;> rfl
@[simp] theorem setLane_jtag (s : State) (l : Lane) (v : LaneSt) : (s.setLane l v).jtag = s.jtag := by cases l <;> rfl
@[simp] theorem setLane_boundary (s : State) (l : Lane) (v : LaneSt) : (s.setLane l v).boundary = s.boundary := by cases l <;> rfl
@[simp] theorem setLane_tapHold (s : State) (l : Lane) (v : LaneSt) : (s.setLane l v).tapHold = s.tapHold := by cases l <;> rfl
@[simp] theorem setLane_cmd (s : State) (l : Lane) (v : LaneSt) : (s.setLane l v).cmd = s.cmd := by cases l <;> rfl
@[simp] theorem setLane_prm (s : State) (l : Lane) (v : LaneSt) : (s.setLane l v).prm = s.prm := by cases l <;> rfl
@[simp] theorem setLane_pix (s : State) (l : Lane) (v : LaneSt) : (s.setLane l v).pix = s.pix := by cases l <;> rfl
@[simp] theorem setLane_comp (s : State) (l : Lane) (v : LaneSt) : (s.setLane l v).comp = s.comp := by cases l <;> rfl
@[simp] theorem setLane_shd (s : State) (l : Lane) (v : LaneSt) : (s.setLane l v).shd = s.shd := by cases l <;> rfl
@[simp] theorem setLane_sad (s : State) (l : Lane) (v : LaneSt) : (s.setLane l v).sad = s.sad := by cases l <;> rfl
@[simp] theorem setLane_frm (s : State) (l : Lane) (v : LaneSt) : (s.setLane l v).frm = s.frm := by cases l <;> rfl
@[simp] theorem setLane_str (s : State) (l : Lane) (v : LaneSt) : (s.setLane l v).str = s.str := by cases l <;> rfl
@[simp] theorem setLane_diag (s : State) (l : Lane) (v : LaneSt) : (s.setLane l v).diag = s.diag := by cases l <;> rfl
@[simp] theorem setLane_cal (s : State) (l : Lane) (v : LaneSt) : (s.setLane l v).cal = s.cal := by cases l <;> rfl
@[simp] theorem setLane_mem (s : State) (l : Lane) (v : LaneSt) : (s.setLane l v).mem = s.mem := by cases l <;> rfl
@[simp] theorem setLane_bist (s : State) (l : Lane) (v : LaneSt) : (s.setLane l v).bist = s.bist := by cases l <;> rfl
@[simp] theorem setLane_thm (s : State) (l : Lane) (v : LaneSt) : (s.setLane l v).thm = s.thm := by cases l <;> rfl
@[simp] theorem setLane_pwr (s : State) (l : Lane) (v : LaneSt) : (s.setLane l v).pwr = s.pwr := by cases l <;> rfl
@[simp] theorem setLane_jrn (s : State) (l : Lane) (v : LaneSt) : (s.setLane l v).jrn = s.jrn := by cases l <;> rfl
@[simp] theorem setLane_fw (s : State) (l : Lane) (v : LaneSt) : (s.setLane l v).fw = s.fw := by cases l <;> rfl
@[simp] theorem setLane_grp (s : State) (l : Lane) (v : LaneSt) : (s.setLane l v).grp = s.grp := by cases l <;> rfl
@[simp] theorem setLane_nvm (s : State) (l : Lane) (v : LaneSt) : (s.setLane l v).nvm = s.nvm := by cases l <;> rfl

/-! A record appended. -/
@[simp] theorem pushOut_pending (s : State) (r : Nat) (x : Record) : (s.pushOut r x).pending = s.pending := rfl
@[simp] theorem pushOut_clk (s : State) (r : Nat) (x : Record) : (s.pushOut r x).clk = s.clk := rfl
@[simp] theorem pushOut_free (s : State) (r : Nat) (x : Record) : (s.pushOut r x).free = s.free := rfl
@[simp] theorem pushOut_jtag (s : State) (r : Nat) (x : Record) : (s.pushOut r x).jtag = s.jtag := rfl
@[simp] theorem pushOut_boundary (s : State) (r : Nat) (x : Record) : (s.pushOut r x).boundary = s.boundary := rfl
@[simp] theorem pushOut_tapHold (s : State) (r : Nat) (x : Record) : (s.pushOut r x).tapHold = s.tapHold := rfl
@[simp] theorem pushOut_prm (s : State) (r : Nat) (x : Record) : (s.pushOut r x).prm = s.prm := rfl
@[simp] theorem pushOut_pix (s : State) (r : Nat) (x : Record) : (s.pushOut r x).pix = s.pix := rfl
@[simp] theorem pushOut_comp (s : State) (r : Nat) (x : Record) : (s.pushOut r x).comp = s.comp := rfl
@[simp] theorem pushOut_shd (s : State) (r : Nat) (x : Record) : (s.pushOut r x).shd = s.shd := rfl
@[simp] theorem pushOut_sad (s : State) (r : Nat) (x : Record) : (s.pushOut r x).sad = s.sad := rfl
@[simp] theorem pushOut_link (s : State) (r : Nat) (x : Record) : (s.pushOut r x).link = s.link := rfl
@[simp] theorem pushOut_frm (s : State) (r : Nat) (x : Record) : (s.pushOut r x).frm = s.frm := rfl
@[simp] theorem pushOut_str (s : State) (r : Nat) (x : Record) : (s.pushOut r x).str = s.str := rfl
@[simp] theorem pushOut_diag (s : State) (r : Nat) (x : Record) : (s.pushOut r x).diag = s.diag := rfl
@[simp] theorem pushOut_cal (s : State) (r : Nat) (x : Record) : (s.pushOut r x).cal = s.cal := rfl
@[simp] theorem pushOut_mem (s : State) (r : Nat) (x : Record) : (s.pushOut r x).mem = s.mem := rfl
@[simp] theorem pushOut_bist (s : State) (r : Nat) (x : Record) : (s.pushOut r x).bist = s.bist := rfl
@[simp] theorem pushOut_thm (s : State) (r : Nat) (x : Record) : (s.pushOut r x).thm = s.thm := rfl
@[simp] theorem pushOut_pwr (s : State) (r : Nat) (x : Record) : (s.pushOut r x).pwr = s.pwr := rfl
@[simp] theorem pushOut_jrn (s : State) (r : Nat) (x : Record) : (s.pushOut r x).jrn = s.jrn := rfl
@[simp] theorem pushOut_fw (s : State) (r : Nat) (x : Record) : (s.pushOut r x).fw = s.fw := rfl
@[simp] theorem pushOut_grp (s : State) (r : Nat) (x : Record) : (s.pushOut r x).grp = s.grp := rfl
@[simp] theorem pushOut_nvm (s : State) (r : Nat) (x : Record) : (s.pushOut r x).nvm = s.nvm := rfl

/-! A reserved reply slot. -/
@[simp] theorem reserve_pending (s : State) (p : Pkt) : (s.reserve p).pending = s.pending := rfl
@[simp] theorem reserve_clk (s : State) (p : Pkt) : (s.reserve p).clk = s.clk := rfl
@[simp] theorem reserve_free (s : State) (p : Pkt) : (s.reserve p).free = s.free := rfl
@[simp] theorem reserve_jtag (s : State) (p : Pkt) : (s.reserve p).jtag = s.jtag := rfl
@[simp] theorem reserve_boundary (s : State) (p : Pkt) : (s.reserve p).boundary = s.boundary := rfl
@[simp] theorem reserve_tapHold (s : State) (p : Pkt) : (s.reserve p).tapHold = s.tapHold := rfl
@[simp] theorem reserve_prm (s : State) (p : Pkt) : (s.reserve p).prm = s.prm := rfl
@[simp] theorem reserve_pix (s : State) (p : Pkt) : (s.reserve p).pix = s.pix := rfl
@[simp] theorem reserve_comp (s : State) (p : Pkt) : (s.reserve p).comp = s.comp := rfl
@[simp] theorem reserve_shd (s : State) (p : Pkt) : (s.reserve p).shd = s.shd := rfl
@[simp] theorem reserve_sad (s : State) (p : Pkt) : (s.reserve p).sad = s.sad := rfl
@[simp] theorem reserve_link (s : State) (p : Pkt) : (s.reserve p).link = s.link := rfl
@[simp] theorem reserve_frm (s : State) (p : Pkt) : (s.reserve p).frm = s.frm := rfl
@[simp] theorem reserve_str (s : State) (p : Pkt) : (s.reserve p).str = s.str := rfl
@[simp] theorem reserve_diag (s : State) (p : Pkt) : (s.reserve p).diag = s.diag := rfl
@[simp] theorem reserve_cal (s : State) (p : Pkt) : (s.reserve p).cal = s.cal := rfl
@[simp] theorem reserve_mem (s : State) (p : Pkt) : (s.reserve p).mem = s.mem := rfl
@[simp] theorem reserve_bist (s : State) (p : Pkt) : (s.reserve p).bist = s.bist := rfl
@[simp] theorem reserve_thm (s : State) (p : Pkt) : (s.reserve p).thm = s.thm := rfl
@[simp] theorem reserve_pwr (s : State) (p : Pkt) : (s.reserve p).pwr = s.pwr := rfl
@[simp] theorem reserve_jrn (s : State) (p : Pkt) : (s.reserve p).jrn = s.jrn := rfl
@[simp] theorem reserve_fw (s : State) (p : Pkt) : (s.reserve p).fw = s.fw := rfl
@[simp] theorem reserve_grp (s : State) (p : Pkt) : (s.reserve p).grp = s.grp := rfl
@[simp] theorem reserve_nvm (s : State) (p : Pkt) : (s.reserve p).nvm = s.nvm := rfl

/-! A packet taken from its ring. -/
@[simp] theorem unqueue_pending (s : State) (w : Waiting) : (s.unqueue w).pending = s.pending := rfl
@[simp] theorem unqueue_clk (s : State) (w : Waiting) : (s.unqueue w).clk = s.clk := rfl
@[simp] theorem unqueue_free (s : State) (w : Waiting) : (s.unqueue w).free = s.free := rfl
@[simp] theorem unqueue_jtag (s : State) (w : Waiting) : (s.unqueue w).jtag = s.jtag := rfl
@[simp] theorem unqueue_boundary (s : State) (w : Waiting) : (s.unqueue w).boundary = s.boundary := rfl
@[simp] theorem unqueue_tapHold (s : State) (w : Waiting) : (s.unqueue w).tapHold = s.tapHold := rfl
@[simp] theorem unqueue_prm (s : State) (w : Waiting) : (s.unqueue w).prm = s.prm := rfl
@[simp] theorem unqueue_pix (s : State) (w : Waiting) : (s.unqueue w).pix = s.pix := rfl
@[simp] theorem unqueue_comp (s : State) (w : Waiting) : (s.unqueue w).comp = s.comp := rfl
@[simp] theorem unqueue_shd (s : State) (w : Waiting) : (s.unqueue w).shd = s.shd := rfl
@[simp] theorem unqueue_sad (s : State) (w : Waiting) : (s.unqueue w).sad = s.sad := rfl
@[simp] theorem unqueue_link (s : State) (w : Waiting) : (s.unqueue w).link = s.link := rfl
@[simp] theorem unqueue_frm (s : State) (w : Waiting) : (s.unqueue w).frm = s.frm := rfl
@[simp] theorem unqueue_str (s : State) (w : Waiting) : (s.unqueue w).str = s.str := rfl
@[simp] theorem unqueue_diag (s : State) (w : Waiting) : (s.unqueue w).diag = s.diag := rfl
@[simp] theorem unqueue_cal (s : State) (w : Waiting) : (s.unqueue w).cal = s.cal := rfl
@[simp] theorem unqueue_mem (s : State) (w : Waiting) : (s.unqueue w).mem = s.mem := rfl
@[simp] theorem unqueue_bist (s : State) (w : Waiting) : (s.unqueue w).bist = s.bist := rfl
@[simp] theorem unqueue_thm (s : State) (w : Waiting) : (s.unqueue w).thm = s.thm := rfl
@[simp] theorem unqueue_pwr (s : State) (w : Waiting) : (s.unqueue w).pwr = s.pwr := rfl
@[simp] theorem unqueue_jrn (s : State) (w : Waiting) : (s.unqueue w).jrn = s.jrn := rfl
@[simp] theorem unqueue_fw (s : State) (w : Waiting) : (s.unqueue w).fw = s.fw := rfl
@[simp] theorem unqueue_grp (s : State) (w : Waiting) : (s.unqueue w).grp = s.grp := rfl
@[simp] theorem unqueue_nvm (s : State) (w : Waiting) : (s.unqueue w).nvm = s.nvm := rfl

/-! An expected SEQ that moves on. -/
@[simp] theorem expectNext_pending (s : State) (p : Pkt) : (s.expectNext p).pending = s.pending := rfl
@[simp] theorem expectNext_clk (s : State) (p : Pkt) : (s.expectNext p).clk = s.clk := rfl
@[simp] theorem expectNext_free (s : State) (p : Pkt) : (s.expectNext p).free = s.free := rfl
@[simp] theorem expectNext_jtag (s : State) (p : Pkt) : (s.expectNext p).jtag = s.jtag := rfl
@[simp] theorem expectNext_boundary (s : State) (p : Pkt) : (s.expectNext p).boundary = s.boundary := rfl
@[simp] theorem expectNext_tapHold (s : State) (p : Pkt) : (s.expectNext p).tapHold = s.tapHold := rfl
@[simp] theorem expectNext_prm (s : State) (p : Pkt) : (s.expectNext p).prm = s.prm := rfl
@[simp] theorem expectNext_pix (s : State) (p : Pkt) : (s.expectNext p).pix = s.pix := rfl
@[simp] theorem expectNext_comp (s : State) (p : Pkt) : (s.expectNext p).comp = s.comp := rfl
@[simp] theorem expectNext_shd (s : State) (p : Pkt) : (s.expectNext p).shd = s.shd := rfl
@[simp] theorem expectNext_sad (s : State) (p : Pkt) : (s.expectNext p).sad = s.sad := rfl
@[simp] theorem expectNext_link (s : State) (p : Pkt) : (s.expectNext p).link = s.link := rfl
@[simp] theorem expectNext_frm (s : State) (p : Pkt) : (s.expectNext p).frm = s.frm := rfl
@[simp] theorem expectNext_str (s : State) (p : Pkt) : (s.expectNext p).str = s.str := rfl
@[simp] theorem expectNext_diag (s : State) (p : Pkt) : (s.expectNext p).diag = s.diag := rfl
@[simp] theorem expectNext_cal (s : State) (p : Pkt) : (s.expectNext p).cal = s.cal := rfl
@[simp] theorem expectNext_mem (s : State) (p : Pkt) : (s.expectNext p).mem = s.mem := rfl
@[simp] theorem expectNext_bist (s : State) (p : Pkt) : (s.expectNext p).bist = s.bist := rfl
@[simp] theorem expectNext_thm (s : State) (p : Pkt) : (s.expectNext p).thm = s.thm := rfl
@[simp] theorem expectNext_pwr (s : State) (p : Pkt) : (s.expectNext p).pwr = s.pwr := rfl
@[simp] theorem expectNext_jrn (s : State) (p : Pkt) : (s.expectNext p).jrn = s.jrn := rfl
@[simp] theorem expectNext_fw (s : State) (p : Pkt) : (s.expectNext p).fw = s.fw := rfl
@[simp] theorem expectNext_grp (s : State) (p : Pkt) : (s.expectNext p).grp = s.grp := rfl
@[simp] theorem expectNext_nvm (s : State) (p : Pkt) : (s.expectNext p).nvm = s.nvm := rfl

/-! A packet put in its ring. -/
@[simp] theorem takeIn_pending (s : State) (op : Nat) (p : Pkt) (gap : Bool) : (s.takeIn op p gap).pending = s.pending := rfl
@[simp] theorem takeIn_clk (s : State) (op : Nat) (p : Pkt) (gap : Bool) : (s.takeIn op p gap).clk = s.clk := rfl
@[simp] theorem takeIn_free (s : State) (op : Nat) (p : Pkt) (gap : Bool) : (s.takeIn op p gap).free = s.free := rfl
@[simp] theorem takeIn_jtag (s : State) (op : Nat) (p : Pkt) (gap : Bool) : (s.takeIn op p gap).jtag = s.jtag := rfl
@[simp] theorem takeIn_boundary (s : State) (op : Nat) (p : Pkt) (gap : Bool) : (s.takeIn op p gap).boundary = s.boundary := rfl
@[simp] theorem takeIn_tapHold (s : State) (op : Nat) (p : Pkt) (gap : Bool) : (s.takeIn op p gap).tapHold = s.tapHold := rfl
@[simp] theorem takeIn_prm (s : State) (op : Nat) (p : Pkt) (gap : Bool) : (s.takeIn op p gap).prm = s.prm := rfl
@[simp] theorem takeIn_pix (s : State) (op : Nat) (p : Pkt) (gap : Bool) : (s.takeIn op p gap).pix = s.pix := rfl
@[simp] theorem takeIn_comp (s : State) (op : Nat) (p : Pkt) (gap : Bool) : (s.takeIn op p gap).comp = s.comp := rfl
@[simp] theorem takeIn_shd (s : State) (op : Nat) (p : Pkt) (gap : Bool) : (s.takeIn op p gap).shd = s.shd := rfl
@[simp] theorem takeIn_sad (s : State) (op : Nat) (p : Pkt) (gap : Bool) : (s.takeIn op p gap).sad = s.sad := rfl
@[simp] theorem takeIn_link (s : State) (op : Nat) (p : Pkt) (gap : Bool) : (s.takeIn op p gap).link = s.link := rfl
@[simp] theorem takeIn_frm (s : State) (op : Nat) (p : Pkt) (gap : Bool) : (s.takeIn op p gap).frm = s.frm := rfl
@[simp] theorem takeIn_str (s : State) (op : Nat) (p : Pkt) (gap : Bool) : (s.takeIn op p gap).str = s.str := rfl
@[simp] theorem takeIn_diag (s : State) (op : Nat) (p : Pkt) (gap : Bool) : (s.takeIn op p gap).diag = s.diag := rfl
@[simp] theorem takeIn_cal (s : State) (op : Nat) (p : Pkt) (gap : Bool) : (s.takeIn op p gap).cal = s.cal := rfl
@[simp] theorem takeIn_mem (s : State) (op : Nat) (p : Pkt) (gap : Bool) : (s.takeIn op p gap).mem = s.mem := rfl
@[simp] theorem takeIn_bist (s : State) (op : Nat) (p : Pkt) (gap : Bool) : (s.takeIn op p gap).bist = s.bist := rfl
@[simp] theorem takeIn_thm (s : State) (op : Nat) (p : Pkt) (gap : Bool) : (s.takeIn op p gap).thm = s.thm := rfl
@[simp] theorem takeIn_pwr (s : State) (op : Nat) (p : Pkt) (gap : Bool) : (s.takeIn op p gap).pwr = s.pwr := rfl
@[simp] theorem takeIn_jrn (s : State) (op : Nat) (p : Pkt) (gap : Bool) : (s.takeIn op p gap).jrn = s.jrn := rfl
@[simp] theorem takeIn_fw (s : State) (op : Nat) (p : Pkt) (gap : Bool) : (s.takeIn op p gap).fw = s.fw := rfl
@[simp] theorem takeIn_grp (s : State) (op : Nat) (p : Pkt) (gap : Bool) : (s.takeIn op p gap).grp = s.grp := rfl
@[simp] theorem takeIn_nvm (s : State) (op : Nat) (p : Pkt) (gap : Bool) : (s.takeIn op p gap).nvm = s.nvm := rfl

/-! What SDO drives. -/
@[simp] theorem drive_pending (s : State) (l : Option (List Byte)) : (s.drive l).pending = s.pending := rfl
@[simp] theorem drive_clk (s : State) (l : Option (List Byte)) : (s.drive l).clk = s.clk := rfl
@[simp] theorem drive_free (s : State) (l : Option (List Byte)) : (s.drive l).free = s.free := rfl
@[simp] theorem drive_jtag (s : State) (l : Option (List Byte)) : (s.drive l).jtag = s.jtag := rfl
@[simp] theorem drive_boundary (s : State) (l : Option (List Byte)) : (s.drive l).boundary = s.boundary := rfl
@[simp] theorem drive_tapHold (s : State) (l : Option (List Byte)) : (s.drive l).tapHold = s.tapHold := rfl
@[simp] theorem drive_prm (s : State) (l : Option (List Byte)) : (s.drive l).prm = s.prm := rfl
@[simp] theorem drive_pix (s : State) (l : Option (List Byte)) : (s.drive l).pix = s.pix := rfl
@[simp] theorem drive_comp (s : State) (l : Option (List Byte)) : (s.drive l).comp = s.comp := rfl
@[simp] theorem drive_shd (s : State) (l : Option (List Byte)) : (s.drive l).shd = s.shd := rfl
@[simp] theorem drive_sad (s : State) (l : Option (List Byte)) : (s.drive l).sad = s.sad := rfl
@[simp] theorem drive_link (s : State) (l : Option (List Byte)) : (s.drive l).link = s.link := rfl
@[simp] theorem drive_frm (s : State) (l : Option (List Byte)) : (s.drive l).frm = s.frm := rfl
@[simp] theorem drive_str (s : State) (l : Option (List Byte)) : (s.drive l).str = s.str := rfl
@[simp] theorem drive_diag (s : State) (l : Option (List Byte)) : (s.drive l).diag = s.diag := rfl
@[simp] theorem drive_cal (s : State) (l : Option (List Byte)) : (s.drive l).cal = s.cal := rfl
@[simp] theorem drive_mem (s : State) (l : Option (List Byte)) : (s.drive l).mem = s.mem := rfl
@[simp] theorem drive_bist (s : State) (l : Option (List Byte)) : (s.drive l).bist = s.bist := rfl
@[simp] theorem drive_thm (s : State) (l : Option (List Byte)) : (s.drive l).thm = s.thm := rfl
@[simp] theorem drive_pwr (s : State) (l : Option (List Byte)) : (s.drive l).pwr = s.pwr := rfl
@[simp] theorem drive_jrn (s : State) (l : Option (List Byte)) : (s.drive l).jrn = s.jrn := rfl
@[simp] theorem drive_fw (s : State) (l : Option (List Byte)) : (s.drive l).fw = s.fw := rfl
@[simp] theorem drive_grp (s : State) (l : Option (List Byte)) : (s.drive l).grp = s.grp := rfl
@[simp] theorem drive_nvm (s : State) (l : Option (List Byte)) : (s.drive l).nvm = s.nvm := rfl

/-! A change of a job. -/
@[simp] theorem modJob_pending (s : State) (j : Word) (f : Job → Job) : (s.modJob j f).pending = s.pending := rfl
@[simp] theorem modJob_clk (s : State) (j : Word) (f : Job → Job) : (s.modJob j f).clk = s.clk := rfl
@[simp] theorem modJob_free (s : State) (j : Word) (f : Job → Job) : (s.modJob j f).free = s.free := rfl
@[simp] theorem modJob_jtag (s : State) (j : Word) (f : Job → Job) : (s.modJob j f).jtag = s.jtag := rfl
@[simp] theorem modJob_boundary (s : State) (j : Word) (f : Job → Job) : (s.modJob j f).boundary = s.boundary := rfl
@[simp] theorem modJob_tapHold (s : State) (j : Word) (f : Job → Job) : (s.modJob j f).tapHold = s.tapHold := rfl
@[simp] theorem modJob_prm (s : State) (j : Word) (f : Job → Job) : (s.modJob j f).prm = s.prm := rfl
@[simp] theorem modJob_pix (s : State) (j : Word) (f : Job → Job) : (s.modJob j f).pix = s.pix := rfl
@[simp] theorem modJob_comp (s : State) (j : Word) (f : Job → Job) : (s.modJob j f).comp = s.comp := rfl
@[simp] theorem modJob_shd (s : State) (j : Word) (f : Job → Job) : (s.modJob j f).shd = s.shd := rfl
@[simp] theorem modJob_sad (s : State) (j : Word) (f : Job → Job) : (s.modJob j f).sad = s.sad := rfl
@[simp] theorem modJob_link (s : State) (j : Word) (f : Job → Job) : (s.modJob j f).link = s.link := rfl
@[simp] theorem modJob_frm (s : State) (j : Word) (f : Job → Job) : (s.modJob j f).frm = s.frm := rfl
@[simp] theorem modJob_str (s : State) (j : Word) (f : Job → Job) : (s.modJob j f).str = s.str := rfl
@[simp] theorem modJob_diag (s : State) (j : Word) (f : Job → Job) : (s.modJob j f).diag = s.diag := rfl
@[simp] theorem modJob_cal (s : State) (j : Word) (f : Job → Job) : (s.modJob j f).cal = s.cal := rfl
@[simp] theorem modJob_mem (s : State) (j : Word) (f : Job → Job) : (s.modJob j f).mem = s.mem := rfl
@[simp] theorem modJob_bist (s : State) (j : Word) (f : Job → Job) : (s.modJob j f).bist = s.bist := rfl
@[simp] theorem modJob_thm (s : State) (j : Word) (f : Job → Job) : (s.modJob j f).thm = s.thm := rfl
@[simp] theorem modJob_pwr (s : State) (j : Word) (f : Job → Job) : (s.modJob j f).pwr = s.pwr := rfl
@[simp] theorem modJob_jrn (s : State) (j : Word) (f : Job → Job) : (s.modJob j f).jrn = s.jrn := rfl
@[simp] theorem modJob_fw (s : State) (j : Word) (f : Job → Job) : (s.modJob j f).fw = s.fw := rfl
@[simp] theorem modJob_grp (s : State) (j : Word) (f : Job → Job) : (s.modJob j f).grp = s.grp := rfl
@[simp] theorem modJob_nvm (s : State) (j : Word) (f : Job → Job) : (s.modJob j f).nvm = s.nvm := rfl

/-! The generation count. -/
@[simp] theorem bumpGen_pending (s : State) : (s.bumpGen).pending = s.pending := rfl
@[simp] theorem bumpGen_clk (s : State) : (s.bumpGen).clk = s.clk := rfl
@[simp] theorem bumpGen_free (s : State) : (s.bumpGen).free = s.free := rfl
@[simp] theorem bumpGen_jtag (s : State) : (s.bumpGen).jtag = s.jtag := rfl
@[simp] theorem bumpGen_boundary (s : State) : (s.bumpGen).boundary = s.boundary := rfl
@[simp] theorem bumpGen_tapHold (s : State) : (s.bumpGen).tapHold = s.tapHold := rfl
@[simp] theorem bumpGen_cmd (s : State) : (s.bumpGen).cmd = s.cmd := rfl
@[simp] theorem bumpGen_prm (s : State) : (s.bumpGen).prm = s.prm := rfl
@[simp] theorem bumpGen_pix (s : State) : (s.bumpGen).pix = s.pix := rfl
@[simp] theorem bumpGen_comp (s : State) : (s.bumpGen).comp = s.comp := rfl
@[simp] theorem bumpGen_shd (s : State) : (s.bumpGen).shd = s.shd := rfl
@[simp] theorem bumpGen_sad (s : State) : (s.bumpGen).sad = s.sad := rfl
@[simp] theorem bumpGen_link (s : State) : (s.bumpGen).link = s.link := rfl
@[simp] theorem bumpGen_str (s : State) : (s.bumpGen).str = s.str := rfl
@[simp] theorem bumpGen_diag (s : State) : (s.bumpGen).diag = s.diag := rfl
@[simp] theorem bumpGen_cal (s : State) : (s.bumpGen).cal = s.cal := rfl
@[simp] theorem bumpGen_mem (s : State) : (s.bumpGen).mem = s.mem := rfl
@[simp] theorem bumpGen_bist (s : State) : (s.bumpGen).bist = s.bist := rfl
@[simp] theorem bumpGen_thm (s : State) : (s.bumpGen).thm = s.thm := rfl
@[simp] theorem bumpGen_pwr (s : State) : (s.bumpGen).pwr = s.pwr := rfl
@[simp] theorem bumpGen_jrn (s : State) : (s.bumpGen).jrn = s.jrn := rfl
@[simp] theorem bumpGen_fw (s : State) : (s.bumpGen).fw = s.fw := rfl
@[simp] theorem bumpGen_grp (s : State) : (s.bumpGen).grp = s.grp := rfl
@[simp] theorem bumpGen_nvm (s : State) : (s.bumpGen).nvm = s.nvm := rfl

/-! A commit request. -/
@[simp] theorem setCommit_pending (s : State) : (s.setCommit).pending = s.pending := rfl
@[simp] theorem setCommit_clk (s : State) : (s.setCommit).clk = s.clk := rfl
@[simp] theorem setCommit_free (s : State) : (s.setCommit).free = s.free := rfl
@[simp] theorem setCommit_jtag (s : State) : (s.setCommit).jtag = s.jtag := rfl
@[simp] theorem setCommit_boundary (s : State) : (s.setCommit).boundary = s.boundary := rfl
@[simp] theorem setCommit_tapHold (s : State) : (s.setCommit).tapHold = s.tapHold := rfl
@[simp] theorem setCommit_cmd (s : State) : (s.setCommit).cmd = s.cmd := rfl
@[simp] theorem setCommit_pix (s : State) : (s.setCommit).pix = s.pix := rfl
@[simp] theorem setCommit_comp (s : State) : (s.setCommit).comp = s.comp := rfl
@[simp] theorem setCommit_shd (s : State) : (s.setCommit).shd = s.shd := rfl
@[simp] theorem setCommit_sad (s : State) : (s.setCommit).sad = s.sad := rfl
@[simp] theorem setCommit_link (s : State) : (s.setCommit).link = s.link := rfl
@[simp] theorem setCommit_str (s : State) : (s.setCommit).str = s.str := rfl
@[simp] theorem setCommit_diag (s : State) : (s.setCommit).diag = s.diag := rfl
@[simp] theorem setCommit_cal (s : State) : (s.setCommit).cal = s.cal := rfl
@[simp] theorem setCommit_mem (s : State) : (s.setCommit).mem = s.mem := rfl
@[simp] theorem setCommit_bist (s : State) : (s.setCommit).bist = s.bist := rfl
@[simp] theorem setCommit_thm (s : State) : (s.setCommit).thm = s.thm := rfl
@[simp] theorem setCommit_pwr (s : State) : (s.setCommit).pwr = s.pwr := rfl
@[simp] theorem setCommit_jrn (s : State) : (s.setCommit).jrn = s.jrn := rfl
@[simp] theorem setCommit_fw (s : State) : (s.setCommit).fw = s.fw := rfl
@[simp] theorem setCommit_grp (s : State) : (s.setCommit).grp = s.grp := rfl
@[simp] theorem setCommit_nvm (s : State) : (s.setCommit).nvm = s.nvm := rfl

/-! A change of a timed entry. -/
@[simp] theorem modTimed_pending (s : State) (j : Word) (f : Timed → Timed) : (s.modTimed j f).pending = s.pending := rfl
@[simp] theorem modTimed_clk (s : State) (j : Word) (f : Timed → Timed) : (s.modTimed j f).clk = s.clk := rfl
@[simp] theorem modTimed_free (s : State) (j : Word) (f : Timed → Timed) : (s.modTimed j f).free = s.free := rfl
@[simp] theorem modTimed_jtag (s : State) (j : Word) (f : Timed → Timed) : (s.modTimed j f).jtag = s.jtag := rfl
@[simp] theorem modTimed_boundary (s : State) (j : Word) (f : Timed → Timed) : (s.modTimed j f).boundary = s.boundary := rfl
@[simp] theorem modTimed_tapHold (s : State) (j : Word) (f : Timed → Timed) : (s.modTimed j f).tapHold = s.tapHold := rfl
@[simp] theorem modTimed_cmd (s : State) (j : Word) (f : Timed → Timed) : (s.modTimed j f).cmd = s.cmd := rfl
@[simp] theorem modTimed_prm (s : State) (j : Word) (f : Timed → Timed) : (s.modTimed j f).prm = s.prm := rfl
@[simp] theorem modTimed_pix (s : State) (j : Word) (f : Timed → Timed) : (s.modTimed j f).pix = s.pix := rfl
@[simp] theorem modTimed_comp (s : State) (j : Word) (f : Timed → Timed) : (s.modTimed j f).comp = s.comp := rfl
@[simp] theorem modTimed_shd (s : State) (j : Word) (f : Timed → Timed) : (s.modTimed j f).shd = s.shd := rfl
@[simp] theorem modTimed_sad (s : State) (j : Word) (f : Timed → Timed) : (s.modTimed j f).sad = s.sad := rfl
@[simp] theorem modTimed_link (s : State) (j : Word) (f : Timed → Timed) : (s.modTimed j f).link = s.link := rfl
@[simp] theorem modTimed_frm (s : State) (j : Word) (f : Timed → Timed) : (s.modTimed j f).frm = s.frm := rfl
@[simp] theorem modTimed_str (s : State) (j : Word) (f : Timed → Timed) : (s.modTimed j f).str = s.str := rfl
@[simp] theorem modTimed_diag (s : State) (j : Word) (f : Timed → Timed) : (s.modTimed j f).diag = s.diag := rfl
@[simp] theorem modTimed_cal (s : State) (j : Word) (f : Timed → Timed) : (s.modTimed j f).cal = s.cal := rfl
@[simp] theorem modTimed_mem (s : State) (j : Word) (f : Timed → Timed) : (s.modTimed j f).mem = s.mem := rfl
@[simp] theorem modTimed_bist (s : State) (j : Word) (f : Timed → Timed) : (s.modTimed j f).bist = s.bist := rfl
@[simp] theorem modTimed_thm (s : State) (j : Word) (f : Timed → Timed) : (s.modTimed j f).thm = s.thm := rfl
@[simp] theorem modTimed_pwr (s : State) (j : Word) (f : Timed → Timed) : (s.modTimed j f).pwr = s.pwr := rfl
@[simp] theorem modTimed_jrn (s : State) (j : Word) (f : Timed → Timed) : (s.modTimed j f).jrn = s.jrn := rfl
@[simp] theorem modTimed_fw (s : State) (j : Word) (f : Timed → Timed) : (s.modTimed j f).fw = s.fw := rfl
@[simp] theorem modTimed_nvm (s : State) (j : Word) (f : Timed → Timed) : (s.modTimed j f).nvm = s.nvm := rfl

/-! A GAP mark on a held reply. -/
@[simp] theorem markGap_pending (s : State) (p : Pkt) (j : Word) (gap : Bool) : (s.markGap p j gap).pending = s.pending := rfl
@[simp] theorem markGap_clk (s : State) (p : Pkt) (j : Word) (gap : Bool) : (s.markGap p j gap).clk = s.clk := rfl
@[simp] theorem markGap_free (s : State) (p : Pkt) (j : Word) (gap : Bool) : (s.markGap p j gap).free = s.free := rfl
@[simp] theorem markGap_jtag (s : State) (p : Pkt) (j : Word) (gap : Bool) : (s.markGap p j gap).jtag = s.jtag := rfl
@[simp] theorem markGap_boundary (s : State) (p : Pkt) (j : Word) (gap : Bool) : (s.markGap p j gap).boundary = s.boundary := rfl
@[simp] theorem markGap_tapHold (s : State) (p : Pkt) (j : Word) (gap : Bool) : (s.markGap p j gap).tapHold = s.tapHold := rfl
@[simp] theorem markGap_prm (s : State) (p : Pkt) (j : Word) (gap : Bool) : (s.markGap p j gap).prm = s.prm := rfl
@[simp] theorem markGap_pix (s : State) (p : Pkt) (j : Word) (gap : Bool) : (s.markGap p j gap).pix = s.pix := rfl
@[simp] theorem markGap_comp (s : State) (p : Pkt) (j : Word) (gap : Bool) : (s.markGap p j gap).comp = s.comp := rfl
@[simp] theorem markGap_shd (s : State) (p : Pkt) (j : Word) (gap : Bool) : (s.markGap p j gap).shd = s.shd := rfl
@[simp] theorem markGap_sad (s : State) (p : Pkt) (j : Word) (gap : Bool) : (s.markGap p j gap).sad = s.sad := rfl
@[simp] theorem markGap_link (s : State) (p : Pkt) (j : Word) (gap : Bool) : (s.markGap p j gap).link = s.link := rfl
@[simp] theorem markGap_frm (s : State) (p : Pkt) (j : Word) (gap : Bool) : (s.markGap p j gap).frm = s.frm := rfl
@[simp] theorem markGap_str (s : State) (p : Pkt) (j : Word) (gap : Bool) : (s.markGap p j gap).str = s.str := rfl
@[simp] theorem markGap_diag (s : State) (p : Pkt) (j : Word) (gap : Bool) : (s.markGap p j gap).diag = s.diag := rfl
@[simp] theorem markGap_cal (s : State) (p : Pkt) (j : Word) (gap : Bool) : (s.markGap p j gap).cal = s.cal := rfl
@[simp] theorem markGap_mem (s : State) (p : Pkt) (j : Word) (gap : Bool) : (s.markGap p j gap).mem = s.mem := rfl
@[simp] theorem markGap_bist (s : State) (p : Pkt) (j : Word) (gap : Bool) : (s.markGap p j gap).bist = s.bist := rfl
@[simp] theorem markGap_thm (s : State) (p : Pkt) (j : Word) (gap : Bool) : (s.markGap p j gap).thm = s.thm := rfl
@[simp] theorem markGap_jrn (s : State) (p : Pkt) (j : Word) (gap : Bool) : (s.markGap p j gap).jrn = s.jrn := rfl
@[simp] theorem markGap_fw (s : State) (p : Pkt) (j : Word) (gap : Bool) : (s.markGap p j gap).fw = s.fw := rfl
@[simp] theorem markGap_grp (s : State) (p : Pkt) (j : Word) (gap : Bool) : (s.markGap p j gap).grp = s.grp := rfl
@[simp] theorem markGap_nvm (s : State) (p : Pkt) (j : Word) (gap : Bool) : (s.markGap p j gap).nvm = s.nvm := rfl

/-! What an update reads back as. -/

@[simp] theorem live_setLive (s : State) (id v j : Nat) :
    (s.setLive id v).live j = if j = id then (w32 v).toNat else s.live j := by
  show BitVec.toNat (tget prmReset (tput prmReset s.prm.live id (w32 v)) j) = _
  rw [tget_tput]
  split <;> rfl

@[simp] theorem live_bump (s : State) (id n j : Nat) :
    (s.bump id n).live j = if j = id then (w32 (satAdd 32 (s.live id) n)).toNat else s.live j :=
  live_setLive s id _ j

@[simp] theorem ctx_setCtx (s : State) (n m : Nat) (c : ObjCtx) :
    (s.setCtx n c).ctx m = if m = n then c else s.ctx m := tget_tput _ _ _ _ _

@[simp] theorem rg_modRg (s : State) (g h : Nat) (f : RowGroup → RowGroup) :
    (s.modRg g f).rg h = if h = g then f (s.rg g) else s.rg h := tget_tput _ _ _ _ _

@[simp] theorem chan_modChan (s : State) (n m : Nat) (f : Channel → Channel) :
    (s.modChan n f).chan m = if m = n then f (s.chan n) else s.chan m := tget_tput _ _ _ _ _

@[simp] theorem crest_modCrest (s : State) (n m : Nat) (f : Crest → Crest) :
    (s.modCrest n f).crest m = if m = n then f (s.crest n) else s.crest m := tget_tput _ _ _ _ _

@[simp] theorem test_modTest (s : State) (ty tg ty' tg' : Nat) (f : TestRes → TestRes) :
    (s.modTest ty tg f).test ty' tg' =
      if testKey ty' tg' = testKey ty tg then f (s.test ty tg) else s.test ty' tg' := tget_tput _ _ _ _ _

@[simp] theorem outRing_pushOut (s : State) (r q : Nat) (x : Record) :
    (s.pushOut r x).outRing q = if q = r then s.outRing r ++ [x] else s.outRing q := tget_tput _ _ _ _ _

@[simp] theorem session_setSession (s : State) (p q : Port) (x : Option Session) :
    (s.setSession p x).session q = if q.num = p.num then x else s.session q := tget_tput _ _ _ _ _

@[simp] theorem expected_expectNext (s : State) (p q : Pkt) :
    (s.expectNext p).expected q = if pairOf q = pairOf p then some (p.seq + 1) else s.expected q :=
  tget_tput (fun _ => none) s.cmd.expSeq (pairOf p) (pairOf q) (some (p.seq + 1))

@[simp] theorem lane_setLane (s : State) (l m : Lane) (v : LaneSt) :
    (s.setLane l v).lane m = if m = l then v else s.lane m := by
  cases l <;> cases m <;> rfl

end Sys2Proof.Machine
end

