-- ==== Sys2Proof/Laws/Bytes.lean ====
section
/-! SUPPORT. Byte strings and their check values, and the event records made of them: what the CRC of R40
and the byte order of R7 do, and what posting an event can change. -/

namespace Sys2Proof.Machine

/-! ### CRC-32 (R40) and byte order (R7) -/

/-- Eight steps of the CRC register keep its width. -/
theorem crcEight_lt (c : Nat) (h : c < 2 ^ 32) : crcEight 0xEDB88320 c < 2 ^ 32 := by
  have st : ∀ c, c < 2 ^ 32 → crcStep 0xEDB88320 c < 2 ^ 32 := by
    intro c h
    unfold crcStep
    split
    · exact Nat.xor_lt_two_pow (by omega) (by decide)
    · omega
  unfold crcEight
  exact st _ (st _ (st _ (st _ (st _ (st _ (st _ (st _ h)))))))

/-- The CRC register keeps its width. -/
theorem crcRun_lt (l : List Byte) (c : Nat) (h : c < 2 ^ 32) : crcRun 0xEDB88320 c l < 2 ^ 32 := by
  induction l generalizing c with
  | nil => exact h
  | cons b r ih =>
    refine ih _ (crcEight_lt _ ?_)
    exact Nat.xor_lt_two_pow h (Nat.lt_of_lt_of_le b.isLt (by decide))

/-- A CRC that is continued has 32 bits. -/
theorem crc32From_lt (c : Nat) (h : c < 2 ^ 32) (l : List Byte) : crc32From c l < 2 ^ 32 :=
  Nat.xor_lt_two_pow (crcRun_lt l _ (Nat.xor_lt_two_pow h (by decide))) (by decide)

/-- A CRC has 32 bits. -/
theorem crc32_lt (l : List Byte) : crc32 l < 2 ^ 32 := crc32From_lt 0 (by decide) l

/-- The register runs over two byte strings one after the other. -/
theorem crcRun_append (a b : List Byte) (c : Nat) : crcRun 0xEDB88320 c (a ++ b) = crcRun 0xEDB88320 (crcRun 0xEDB88320 c a) b := by
  induction a generalizing c with
  | nil => rfl
  | cons x r ih => exact ih _

/-- A number takes as many bytes as asked. -/
theorem leBytes_length (n v : Nat) : (leBytes n v).length = n := by simp [leBytes]

/-- The lowest byte comes first. -/
theorem leBytes_succ (n v : Nat) : leBytes (n + 1) v = BitVec.ofNat 8 v :: leBytes n (v / 256) := by
  unfold leBytes
  rw [List.range_succ_eq_map]
  simp only [List.map_cons, List.map_map, Nat.pow_zero, Nat.div_one]
  congr 1
  apply List.map_congr_left
  intro i _
  simp only [Function.comp, Nat.pow_succ', Nat.div_div_eq_div_mul]

/-- Bytes read back as the number they were made of. -/
theorem ofLe_leBytes (n v : Nat) : ofLe (leBytes n v) = v % 256 ^ n := by
  induction n generalizing v with
  | zero => simp [leBytes, ofLe, Nat.mod_one]
  | succ n ih =>
    rw [leBytes_succ]
    show (BitVec.ofNat 8 v).toNat + 256 * ofLe (leBytes n (v / 256)) = _
    rw [ih, BitVec.toNat_ofNat, show 256 ^ (n + 1) = 256 * 256 ^ n from Nat.pow_succ', Nat.mod_mul]

/-- A trailer reads back as its CRC. -/
theorem crc_trailer (l : List Byte) : ofLe (leBytes 4 (crc32 l)) = crc32 l := by
  rw [ofLe_leBytes]; exact Nat.mod_eq_of_lt (crc32_lt l)

/-! ### Events (R56) -/

/-- A counter that is not saturated rises. -/
theorem live_bump_lt (s : State) (id : Nat) : s.live id < (s.bump id 1).live id ∨ s.live id = 2 ^ 32 - 1 := by
  rw [live_bump, if_pos rfl]
  have := (tget prmReset s.prm.live id).isLt
  have hl : s.live id < 2 ^ 32 := this
  simp only [w32, satAdd, BitVec.toNat_ofNat]
  omega

/-- An event record is 32 bytes long. -/
theorem eventBytes_length (s : State) (code sev src a0 a1 a2 a3 : Nat) : (eventBytes s code sev src a0 a1 a2 a3).length = 32 := by
  simp [eventBytes, withCrc, leBytes_length]

/-- A copy of an event goes to its ring, or is counted as lost where there is no room; nothing else changes. -/
theorem postEvent_facts (s : State) (r src : Nat) (b : List Byte) :
   (1 ≤ s.outFree r → (s.postEvent r src b) = s.pushOut r { bytes := b, src := src })
   ∧ (s.outFree r = 0 → (∀ q, (s.postEvent r src b).outRing q = s.outRing q) ∧ (s.live pEventsLost < (s.postEvent r src b).live pEventsLost ∨ s.live pEventsLost = 2 ^ 32 - 1))
   ∧ (∀ id, id ≠ pEventsLost → (s.postEvent r src b).live id = s.live id)
   ∧ (s.live pEventsLost ≤ (s.postEvent r src b).live pEventsLost)
   ∧ (∀ q, q ≠ r → (s.postEvent r src b).outRing q = s.outRing q ∧ (s.postEvent r src b).outFree q = s.outFree q)
   ∧ (s.postEvent r src b).cmd.eseq = s.cmd.eseq := by
  have hb := live_bump_lt s pEventsLost
  have hlt : s.live pEventsLost < 2 ^ 32 := (tget prmReset s.prm.live pEventsLost).isLt
  have hb2 : s.live pEventsLost ≤ (s.bump pEventsLost 1).live pEventsLost := by
    rw [live_bump, if_pos rfl]; simp only [w32, satAdd, BitVec.toNat_ofNat]; omega
  unfold State.postEvent
  refine ⟨fun h => if_pos h, fun h => ?_, fun id h => ?_, ?_, fun q h => ?_, ?_⟩
  · rw [if_neg (by omega)]; exact ⟨fun _ => rfl, hb⟩
  · split
    · rfl
    · exact (live_bump s _ _ _).trans (if_neg h)
  · split
    · exact Nat.le_refl _
    · exact hb2
  · split
    · have := (outRing_pushOut s r q { bytes := b, src := src }).trans (if_neg h)
      refine ⟨this, ?_⟩
      unfold State.outFree State.outUsed
      rw [this]; rfl
    · exact ⟨rfl, rfl⟩
  · split <;> rfl

/-- Posting a copy leaves the unacknowledged events. -/
theorem postEvent_unack (s : State) (r src : Nat) (b : List Byte) : (s.postEvent r src b).cmd.unack = s.cmd.unack := by
  unfold State.postEvent; split <;> rfl

/-- A severity-3 event is unacknowledged (R57). -/
theorem evt_unack (s : State) (code sev src a0 a1 a2 a3 : Nat) : (s.evt code sev src a0 a1 a2 a3).cmd.unack
      = if sev = 3 then s.cmd.unack ++ [s.cmd.eseq] else s.cmd.unack := by
  unfold State.evt
  dsimp only
  split <;> split <;> simp only [postEvent_unack]

end Sys2Proof.Machine
end

