-- ==== Sys2Proof/WellFormed.lean ====
section
/-! DEFINITION. When a command is well formed: its packet could have come from a submission ring, and
its physical facts have the shape that the manual gives them. No meaning needs it. -/

namespace Sys2Proof

/-- A packet that a server has taken (R37, R38): a submission ring, whole words of parameters, at
most 1,020 of them, and FLAGS bit 7 clear. -/
def Pkt.wf (p : Pkt) : Bool :=
  decide (p.ring < 48) && decide (p.params.length % 4 = 0) && decide (p.params.length ≤ 4080)
    && decide (p.flags.toNat < 128)

/-- The received symbols of a forward block on a lane: 120 PAM4 levels (07_plokam_link.md R160). -/
def copyWf (c : Option (List Nat)) : Bool :=
  match c with
  | none => true
  | some l => decide (l.length = 120) && l.all fun x => decide (x < 4)

/-- The figures of an eye scan: three eyes (R178). -/
def EyeScan.wf (e : EyeScan) : Bool := decide (e.height.length = 3) && decide (e.width.length = 3)

/-- A window of the forward receiver: four levels and three taps (R176). -/
def AdaptWindow.wf (w : AdaptWindow) : Bool := decide (w.mu.length = 4) && decide (w.tapDir.length = 3)

/-- Line addresses are multiples of 64 (R272). -/
def upsWf (u : Upsets) : Bool := u.all fun x => decide (x.1 % 64 = 0)

/-- A well-formed command. -/
def Instr.wf : Instr → Bool
  | .blockReceived _ a b => copyWf a && copyWf b
  | .sequencerTake _ u => upsWf u
  | .multiStepResume _ u => upsWf u
  | .cvuDone _ _ u => upsWf u
  | .startToken _ _ u => upsWf u
  | .passComplete _ _ u => upsWf u
  | .memRead p u => p.wf && upsWf u
  | .ping p | .identify p | .sequencerRestart p | .pipelineSoftReset p | .fullReset p | .paramGet p
  | .paramSet p | .statusGet p | .eventAck p | .ringConfig p | .setTime p | .timeStatus p
  | .objUpdate p | .objRelease p | .objClearAll p | .forceLevel p | .fallbackEnter p
  | .fallbackExit p | .bendSet p | .frameCommit p | .scanSelect p | .timingStatus p
  | .freezeStatus p | .videoConfig p | .sceneWrite p | .sceneStore p | .sceneMix p | .symbolWrite p
  | .ovlSet p | .ovlClear p | .lutWrite p | .windowSet p | .tileRefSet p | .driveStatus p
  | .budgetSet p | .saddleStatus p | .strConfig p | .strLevel p | .strStatus p | .crestLoad p
  | .crestStop p | .crestStart p | .crestResume p | .crestStopAndSet p | .diagStatus p
  | .diagMapRead p | .pixelMask p | .faultClear p | .faultConfig p | .calSweep p | .calCommit p
  | .calStatus p | .calAbort p | .fluxWrite p | .memWrite p | .cvuConfig p | .cvuRun p
  | .errlogRead p | .scrubStatus p | .bistConfig p | .bistRun p | .bistResult p | .spurAssign p
  | .thermStatus p | .thermConfig p | .pwrState p | .pwrStatus p | .jrnlRead p | .jrnlMark p
  | .stateDigest p | .fwStageBegin p | .fwStageData p | .fwStageFinish p | .fwStageQuery p
  | .fwActivate p | .fwConfirm p | .authOpen p | .authLoadKey p | .authClose p | .linkStatus p
  | .linkRetrain p | .laneMode p | .eyeRead p | .nodeSet p | .groupSet p | .schedule p | .cancel p
  | .list p | .groupStatus p => p.wf
  | .notchRowAccess _ probes low => decide (probes.length = 16) && low.all fun i => decide (i < 1048576)
  | .notchEnd _ m => decide (m.length = 64)
  | .rxReady _ _ f => decide (f.ctleEyes.length = 16) && decide (f.offsets.length = 3) && f.windows.all AdaptWindow.wf
      && f.eye.wf
  | .adaptWindowEnd _ _ w => w.wf
  | .eyeScanDone _ _ e => e.wf
  | .thermalUpdate _ r v => decide (r.length = 20) && decide (v.length = 16)
  | .instructionFetchFault _ l => decide (l % 64 = 0)
  | .stepTrimsDone _ d c => decide (d.length = 16) && decide (c.length = 16)
  | _ => true

end Sys2Proof
end

