-- ==== Sys2Proof/Laws/PerInstr.lean ====
section
/-! SUPPORT. The family of laws stated command by command: a well-formed command whose row names an
opcode carries a packet of a submission ring, whole words of parameters, FLAGS bit 7 clear (R37, R38),
and keeps that when its row fixes a byte (DESIGN CHOICE, log 10). -/

namespace Sys2Proof

/-- Changing one parameter byte keeps a packet well formed. -/
theorem Pkt.fix_wf {p : Pkt} (off : Nat) (v : Byte) (h : p.wf = true) : (p.fix off v).wf = true := by
  unfold Pkt.wf at h ⊢
  rw [show (p.fix off v).params.length = p.params.length by simp [Pkt.fix]]
  exact h

/-- Changing one parameter bit keeps a packet well formed. -/
theorem Pkt.fixBit_wf {p : Pkt} (off : Nat) (v : Bool) (h : p.wf = true) : (p.fixBit off v).wf = true :=
  Pkt.fix_wf off _ h

end Sys2Proof

namespace Sys2Proof.Laws.Fields

/-- A well-formed command that carries an opcode carries a well-formed packet. -/
def Statement (i : Instr) : Prop :=
  i.wf = true → ∀ op d p, Machine.servedAs i = some (op, d, p) → p.wf = true

/-- A command that carries no opcode has no packet. -/
theorem no_packet {i : Instr} (h : Machine.servedAs i = none) : Statement i :=
  fun _ _ _ _ k => by rw [h] at k; cases k

/-- A command that carries an opcode. -/
theorem packet {i : Instr} {x : Nat × Machine.OpDef × Pkt} (h : Machine.servedAs i = some x)
    (k : i.wf = true → x.2.2.wf = true) : Statement i :=
  fun w _ _ _ e => by rw [h] at e; cases e; exact k w

theorem blockReceived (dt : Nat) (copyA copyB : Option (List Nat)) : Statement (.blockReceived dt copyA copyB) := no_packet rfl
theorem c0Overload (dt : Nat) : Statement (.c0Overload dt) := no_packet rfl
theorem contextWrite (dt : Nat) : Statement (.contextWrite dt) := no_packet rfl
theorem sequencerTake (dt : Nat) (ups : Upsets) : Statement (.sequencerTake dt ups) := no_packet rfl
theorem multiStepResume (dt : Nat) (ups : Upsets) : Statement (.multiStepResume dt ups) := no_packet rfl
theorem recordSend (dt : Nat) (lane : Lane) : Statement (.recordSend dt lane) := no_packet rfl
theorem pktWrite (dt : Nat) (sdi : List Byte) : Statement (.pktWrite dt sdi) := no_packet rfl
theorem ringRead (dt : Nat) (sel : Byte) (clocked : Nat) : Statement (.ringRead dt sel clocked) := no_packet rfl
theorem statusPoll (dt : Nat) : Statement (.statusPoll dt) := no_packet rfl
theorem ping (p : Pkt) : Statement (.ping p) := packet rfl fun h => h
theorem identify (p : Pkt) : Statement (.identify p) := packet rfl fun h => h
theorem sequencerRestart (p : Pkt) : Statement (.sequencerRestart p) := packet rfl (Pkt.fix_wf (p := p) 16 0)
theorem pipelineSoftReset (p : Pkt) : Statement (.pipelineSoftReset p) := packet rfl (Pkt.fix_wf (p := p) 16 1)
theorem fullReset (p : Pkt) : Statement (.fullReset p) := packet rfl (Pkt.fix_wf (p := p) 16 2)
theorem paramGet (p : Pkt) : Statement (.paramGet p) := packet rfl fun h => h
theorem paramSet (p : Pkt) : Statement (.paramSet p) := packet rfl fun h => h
theorem statusGet (p : Pkt) : Statement (.statusGet p) := packet rfl fun h => h
theorem eventAck (p : Pkt) : Statement (.eventAck p) := packet rfl fun h => h
theorem ringConfig (p : Pkt) : Statement (.ringConfig p) := packet rfl fun h => h
theorem setTime (p : Pkt) : Statement (.setTime p) := packet rfl fun h => h
theorem timeStatus (p : Pkt) : Statement (.timeStatus p) := packet rfl fun h => h
theorem objUpdate (p : Pkt) : Statement (.objUpdate p) := packet rfl fun h => h
theorem objRelease (p : Pkt) : Statement (.objRelease p) := packet rfl fun h => h
theorem objClearAll (p : Pkt) : Statement (.objClearAll p) := packet rfl fun h => h
theorem forceLevel (p : Pkt) : Statement (.forceLevel p) := packet rfl fun h => h
theorem fallbackEnter (p : Pkt) : Statement (.fallbackEnter p) := packet rfl fun h => h
theorem fallbackExit (p : Pkt) : Statement (.fallbackExit p) := packet rfl fun h => h
theorem bendSet (p : Pkt) : Statement (.bendSet p) := packet rfl fun h => h
theorem frameCommit (p : Pkt) : Statement (.frameCommit p) := packet rfl fun h => h
theorem scanSelect (p : Pkt) : Statement (.scanSelect p) := packet rfl fun h => h
theorem timingStatus (p : Pkt) : Statement (.timingStatus p) := packet rfl fun h => h
theorem freezeStatus (p : Pkt) : Statement (.freezeStatus p) := packet rfl fun h => h
theorem videoConfig (p : Pkt) : Statement (.videoConfig p) := packet rfl fun h => h
theorem sceneWrite (p : Pkt) : Statement (.sceneWrite p) := packet rfl fun h => h
theorem sceneStore (p : Pkt) : Statement (.sceneStore p) := packet rfl fun h => h
theorem sceneMix (p : Pkt) : Statement (.sceneMix p) := packet rfl fun h => h
theorem symbolWrite (p : Pkt) : Statement (.symbolWrite p) := packet rfl fun h => h
theorem ovlSet (p : Pkt) : Statement (.ovlSet p) := packet rfl fun h => h
theorem ovlClear (p : Pkt) : Statement (.ovlClear p) := packet rfl fun h => h
theorem lutWrite (p : Pkt) : Statement (.lutWrite p) := no_packet rfl
theorem windowSet (p : Pkt) : Statement (.windowSet p) := packet rfl fun h => h
theorem tileRefSet (p : Pkt) : Statement (.tileRefSet p) := packet rfl fun h => h
theorem driveStatus (p : Pkt) : Statement (.driveStatus p) := packet rfl fun h => h
theorem budgetSet (p : Pkt) : Statement (.budgetSet p) := packet rfl fun h => h
theorem saddleStatus (p : Pkt) : Statement (.saddleStatus p) := packet rfl fun h => h
theorem strConfig (p : Pkt) : Statement (.strConfig p) := packet rfl fun h => h
theorem strLevel (p : Pkt) : Statement (.strLevel p) := packet rfl fun h => h
theorem strStatus (p : Pkt) : Statement (.strStatus p) := packet rfl fun h => h
theorem crestLoad (p : Pkt) : Statement (.crestLoad p) := packet rfl fun h => h
theorem crestStop (p : Pkt) : Statement (.crestStop p) := packet rfl (Pkt.fix_wf (p := p) 17 0)
theorem crestStart (p : Pkt) : Statement (.crestStart p) := packet rfl (Pkt.fix_wf (p := p) 17 1)
theorem crestResume (p : Pkt) : Statement (.crestResume p) := packet rfl (Pkt.fix_wf (p := p) 17 2)
theorem crestStopAndSet (p : Pkt) : Statement (.crestStopAndSet p) := packet rfl (Pkt.fix_wf (p := p) 17 3)
theorem diagStatus (p : Pkt) : Statement (.diagStatus p) := packet rfl fun h => h
theorem diagMapRead (p : Pkt) : Statement (.diagMapRead p) := packet rfl fun h => h
theorem pixelMask (p : Pkt) : Statement (.pixelMask p) := packet rfl fun h => h
theorem faultClear (p : Pkt) : Statement (.faultClear p) := packet rfl fun h => h
theorem faultConfig (p : Pkt) : Statement (.faultConfig p) := packet rfl fun h => h
theorem calSweep (p : Pkt) : Statement (.calSweep p) := packet rfl fun h => h
theorem calCommit (p : Pkt) : Statement (.calCommit p) := packet rfl fun h => h
theorem calStatus (p : Pkt) : Statement (.calStatus p) := packet rfl fun h => h
theorem calAbort (p : Pkt) : Statement (.calAbort p) := packet rfl fun h => h
theorem fluxWrite (p : Pkt) : Statement (.fluxWrite p) := packet rfl fun h => h
theorem memRead (p : Pkt) (ups : Upsets) : Statement (.memRead p ups) := packet rfl fun h => (Bool.and_eq_true _ _ ▸ h).1
theorem memWrite (p : Pkt) : Statement (.memWrite p) := packet rfl fun h => h
theorem cvuConfig (p : Pkt) : Statement (.cvuConfig p) := packet rfl fun h => h
theorem cvuRun (p : Pkt) : Statement (.cvuRun p) := packet rfl fun h => h
theorem cvuDone (dt : Nat) (unit : Fin 4) (ups : Upsets) : Statement (.cvuDone dt unit ups) := no_packet rfl
theorem errlogRead (p : Pkt) : Statement (.errlogRead p) := packet rfl fun h => h
theorem scrubStatus (p : Pkt) : Statement (.scrubStatus p) := packet rfl fun h => h
theorem bistConfig (p : Pkt) : Statement (.bistConfig p) := packet rfl fun h => h
theorem bistRun (p : Pkt) : Statement (.bistRun p) := packet rfl fun h => h
theorem bistResult (p : Pkt) : Statement (.bistResult p) := packet rfl fun h => h
theorem spurAssign (p : Pkt) : Statement (.spurAssign p) := packet rfl fun h => h
theorem thermStatus (p : Pkt) : Statement (.thermStatus p) := packet rfl fun h => h
theorem thermConfig (p : Pkt) : Statement (.thermConfig p) := packet rfl fun h => h
theorem pwrState (p : Pkt) : Statement (.pwrState p) := packet rfl fun h => h
theorem pwrStatus (p : Pkt) : Statement (.pwrStatus p) := packet rfl fun h => h
theorem jrnlRead (p : Pkt) : Statement (.jrnlRead p) := packet rfl fun h => h
theorem jrnlMark (p : Pkt) : Statement (.jrnlMark p) := packet rfl fun h => h
theorem stateDigest (p : Pkt) : Statement (.stateDigest p) := packet rfl fun h => h
theorem fwStageBegin (p : Pkt) : Statement (.fwStageBegin p) := packet rfl (Pkt.fix_wf (p := p) 16 0)
theorem fwStageData (p : Pkt) : Statement (.fwStageData p) := packet rfl (Pkt.fix_wf (p := p) 16 1)
theorem fwStageFinish (p : Pkt) : Statement (.fwStageFinish p) := packet rfl (Pkt.fix_wf (p := p) 16 2)
theorem fwStageQuery (p : Pkt) : Statement (.fwStageQuery p) := packet rfl (Pkt.fix_wf (p := p) 16 3)
theorem fwActivate (p : Pkt) : Statement (.fwActivate p) := packet rfl (Pkt.fixBit_wf (p := p) 16 false)
theorem fwConfirm (p : Pkt) : Statement (.fwConfirm p) := packet rfl (Pkt.fixBit_wf (p := p) 16 true)
theorem fwSelfCheckTimeout (dt : Nat) : Statement (.fwSelfCheckTimeout dt) := no_packet rfl
theorem authOpen (p : Pkt) : Statement (.authOpen p) := packet rfl (Pkt.fix_wf (p := p) 17 0)
theorem authLoadKey (p : Pkt) : Statement (.authLoadKey p) := packet rfl (Pkt.fix_wf (p := p) 17 1)
theorem authClose (p : Pkt) : Statement (.authClose p) := packet rfl fun h => h
theorem linkStatus (p : Pkt) : Statement (.linkStatus p) := packet rfl fun h => h
theorem linkRetrain (p : Pkt) : Statement (.linkRetrain p) := packet rfl fun h => h
theorem laneMode (p : Pkt) : Statement (.laneMode p) := packet rfl fun h => h
theorem eyeRead (p : Pkt) : Statement (.eyeRead p) := packet rfl fun h => h
theorem nodeSet (p : Pkt) : Statement (.nodeSet p) := no_packet rfl
theorem groupSet (p : Pkt) : Statement (.groupSet p) := packet rfl fun h => h
theorem schedule (p : Pkt) : Statement (.schedule p) := no_packet rfl
theorem cancel (p : Pkt) : Statement (.cancel p) := packet rfl (Pkt.fix_wf (p := p) 16 1)
theorem list (p : Pkt) : Statement (.list p) := packet rfl (Pkt.fix_wf (p := p) 16 2)
theorem groupStatus (p : Pkt) : Statement (.groupStatus p) := packet rfl fun h => h
theorem timedRelease (dt : Nat) : Statement (.timedRelease dt) := no_packet rfl
theorem startToken (dt : Nat) (g : Fin 256) (ups : Upsets) : Statement (.startToken dt g ups) := no_packet rfl
theorem passComplete (dt : Nat) (t : Fin 16) (ups : Upsets) : Statement (.passComplete dt t ups) := no_packet rfl
theorem loadDeadline (dt : Nat) (g : Fin 256) (parityBad : Bool) : Statement (.loadDeadline dt g parityBad) := no_packet rfl
theorem slotStart (dt : Nat) (g : Fin 256) : Statement (.slotStart dt g) := no_packet rfl
theorem notchRowAccess (dt : Nat) (probes : List TileProbe) (low : List Nat) : Statement (.notchRowAccess dt probes low) := no_packet rfl
theorem notchEnd (dt : Nat) (measured : List Nat) : Statement (.notchEnd dt measured) := no_packet rfl
theorem planInstant (dt : Nat) (dupDiffers : Bool) : Statement (.planInstant dt dupDiffers) := no_packet rfl
theorem commitCutoff (dt : Nat) : Statement (.commitCutoff dt) := no_packet rfl
theorem latchInstant (dt : Nat) : Statement (.latchInstant dt) := no_packet rfl
theorem timeoutScanRound (dt : Nat) : Statement (.timeoutScanRound dt) := no_packet rfl
theorem hardTrip (dt : Nat) (shuntMa : Nat) : Statement (.hardTrip dt shuntMa) := no_packet rfl
theorem hostStale (dt : Nat) : Statement (.hostStale dt) := no_packet rfl
theorem fallbackCheck (dt : Nat) : Statement (.fallbackCheck dt) := no_packet rfl
theorem limpCodesReady (dt : Nat) (badMram : List Nat) (badStore : List Nat) (badMap : List Nat) : Statement (.limpCodesReady dt badMram badStore badMap) := no_packet rfl
theorem syncInEdge (edge : SyncEdge) : Statement (.syncInEdge edge) := no_packet rfl
theorem syncEdgeMissed (dt : Nat) : Statement (.syncEdgeMissed dt) := no_packet rfl
theorem ptbLock (dt : Nat) (gridOffset : Nat) : Statement (.ptbLock dt gridOffset) := no_packet rfl
theorem frameReady (dt : Nat) : Statement (.frameReady dt) := no_packet rfl
theorem detectPoll (dt : Nat) (lane : Lane) (present : Bool) : Statement (.detectPoll dt lane present) := no_packet rfl
theorem backoffExpiry (dt : Nat) (lane : Lane) : Statement (.backoffExpiry dt lane) := no_packet rfl
theorem rxReady (dt : Nat) (lane : Lane) (found : TrainResult) : Statement (.rxReady dt lane found) := no_packet rfl
theorem trainTimeout (dt : Nat) (lane : Lane) : Statement (.trainTimeout dt lane) := no_packet rfl
theorem lockTimeout (dt : Nat) (lane : Lane) : Statement (.lockTimeout dt lane) := no_packet rfl
theorem capsTimeout (dt : Nat) (lane : Lane) : Statement (.capsTimeout dt lane) := no_packet rfl
theorem lossOfSignal (dt : Nat) (lane : Lane) : Statement (.lossOfSignal dt lane) := no_packet rfl
theorem terminationLost (dt : Nat) (lane : Lane) : Statement (.terminationLost dt lane) := no_packet rfl
theorem adaptWindowEnd (dt : Nat) (lane : Lane) (w : AdaptWindow) : Statement (.adaptWindowEnd dt lane w) := no_packet rfl
theorem eyeScanDone (dt : Nat) (lane : Lane) (eye : EyeScan) : Statement (.eyeScanDone dt lane eye) := no_packet rfl
theorem l2Resume (dt : Nat) (lane : Lane) : Statement (.l2Resume dt lane) := no_packet rfl
theorem returnIdleTimeout (dt : Nat) (lane : Lane) : Statement (.returnIdleTimeout dt lane) := no_packet rfl
theorem returnResume (dt : Nat) (lane : Lane) : Statement (.returnResume dt lane) := no_packet rfl
theorem retReadyTimeout (dt : Nat) (lane : Lane) : Statement (.retReadyTimeout dt lane) := no_packet rfl
theorem stringPeriodStart (dt : Nat) (samples : List StrSample) : Statement (.stringPeriodStart dt samples) := no_packet rfl
theorem openDetected (dt : Nat) (pos : Fin 64) (mv : Nat) : Statement (.openDetected dt pos mv) := no_packet rfl
theorem crestTick (dt : Nat) : Statement (.crestTick dt) := no_packet rfl
theorem ntcUpdate (dt : Nat) (code1 code2 : Nat) : Statement (.ntcUpdate dt code1 code2) := no_packet rfl
theorem thermalUpdate (dt : Nat) (readings : List Int) (vledMv : List Nat) : Statement (.thermalUpdate dt readings vledMv) := no_packet rfl
theorem thermalResume (dt : Nat) : Statement (.thermalResume dt) := no_packet rfl
theorem thermalRelax (dt : Nat) : Statement (.thermalRelax dt) := no_packet rfl
theorem factoryCorrection (dt : Nat) : Statement (.factoryCorrection dt) := no_packet rfl
theorem talusRead (dt : Nat) (mram : Bool) (outcome : LineRead) : Statement (.talusRead dt mram outcome) := no_packet rfl
theorem repaired (dt : Nat) (sourceGood : Bool) : Statement (.repaired dt sourceGood) := no_packet rfl
theorem mramLineWrite (dt : Nat) (verified : Bool) : Statement (.mramLineWrite dt verified) := no_packet rfl
theorem journalLineWrite (dt : Nat) (verified : Bool) : Statement (.journalLineWrite dt verified) := no_packet rfl
theorem coalesceWindowClose (dt : Nat) (port : Port) (ring : Fin 8) : Statement (.coalesceWindowClose dt port ring) := no_packet rfl
theorem bistSliceStart (dt : Nat) : Statement (.bistSliceStart dt) := no_packet rfl
theorem sliceEnd (dt : Nat) (segs : List SegResult) : Statement (.sliceEnd dt segs) := no_packet rfl
theorem bankMigrated (dt : Nat) : Statement (.bankMigrated dt) := no_packet rfl
theorem supplyTrip (dt : Nat) (rail : Rail) : Statement (.supplyTrip dt rail) := no_packet rfl
theorem vaonPowerOn (dt : Nat) : Statement (.vaonPowerOn dt) := no_packet rfl
theorem resetnAssert (dt : Nat) : Statement (.resetnAssert dt) := no_packet rfl
theorem resetnRelease (dt : Nat) : Statement (.resetnRelease dt) := no_packet rfl
theorem powerupStageReady (dt : Nat) : Statement (.powerupStageReady dt) := no_packet rfl
theorem powerupStageTimeout (dt : Nat) (detail : Byte) : Statement (.powerupStageTimeout dt detail) := no_packet rfl
theorem referenceLoss (dt : Nat) : Statement (.referenceLoss dt) := no_packet rfl
theorem clockRestored (dt : Nat) (ticks : Nat) : Statement (.clockRestored dt ticks) := no_packet rfl
theorem wakeLand (dt : Nat) : Statement (.wakeLand dt) := no_packet rfl
theorem laneWake (dt : Nat) (heard : LaneSignal) : Statement (.laneWake dt heard) := no_packet rfl
theorem sleepTimerWake (dt : Nat) : Statement (.sleepTimerWake dt) := no_packet rfl
theorem quiesceTimeout (dt : Nat) (stuck : Bool) : Statement (.quiesceTimeout dt stuck) := no_packet rfl
theorem sleepEntry (dt : Nat) : Statement (.sleepEntry dt) := no_packet rfl
theorem stressStore (dt : Nat) : Statement (.stressStore dt) := no_packet rfl
theorem watchdogExpiry (dt : Nat) : Statement (.watchdogExpiry dt) := no_packet rfl
theorem lockstepMismatch (dt : Nat) : Statement (.lockstepMismatch dt) := no_packet rfl
theorem instructionFetchFault (dt : Nat) (line : Nat) : Statement (.instructionFetchFault dt line) := no_packet rfl
theorem restartHoldExpiry (dt : Nat) : Statement (.restartHoldExpiry dt) := no_packet rfl
theorem recoveryPass (dt : Nat) : Statement (.recoveryPass dt) := no_packet rfl
theorem jtagInstructionUpdate (dt : Nat) (code : BitVec 5) : Statement (.jtagInstructionUpdate dt code) := no_packet rfl
theorem testLogicReset (dt : Nat) : Statement (.testLogicReset dt) := no_packet rfl
theorem supplyMonitorRecovery (dt : Nat) : Statement (.supplyMonitorRecovery dt) := no_packet rfl
theorem setTimeEdgeTimeout (dt : Nat) : Statement (.setTimeEdgeTimeout dt) := no_packet rfl
theorem lutBankCopyDone (dt : Nat) : Statement (.lutBankCopyDone dt) := no_packet rfl
theorem pipelineReinitDone (dt : Nat) : Statement (.pipelineReinitDone dt) := no_packet rfl
theorem fwSelfCheckPassed (dt : Nat) : Statement (.fwSelfCheckPassed dt) := no_packet rfl
theorem stepTrimsDone (dt : Nat) (dac : List Nat) (cmp : List (List Nat)) : Statement (.stepTrimsDone dt dac cmp) := no_packet rfl
theorem trainTapMismatch (dt : Nat) (lane : Lane) : Statement (.trainTapMismatch dt lane) := no_packet rfl
theorem tExitMeasured (dt : Nat) (period : Nat) : Statement (.tExitMeasured dt period) := no_packet rfl
theorem tickPeriodMeasured (dt : Nat) (period : Nat) : Statement (.tickPeriodMeasured dt period) := no_packet rfl

end Sys2Proof.Laws.Fields
end

