-- ==== Sys2Proof/Laws/Serve.lean ====
section
/-! SUPPORT. More of what serving a packet does: the rejections of steps 8 and 9, and the frames of the
operations that the packets of classes 0 to 2 share. -/

namespace Sys2Proof.Machine

/-- A command whose row names an opcode serves its packet, unless it waits for a CAL_COMMIT. -/
theorem servedAs_exec {c : Instr} {op : Nat} {d : OpDef} {p : Pkt} (h : servedAs c = some (op, d, p)) (s : State)
    (hf : s.stepFour op = false) : exec c s = .next (serveOp op d p false (servedOn c s)) := by
  cases c <;> simp only [servedAs, reduceCtorEq, Option.some.injEq, Prod.mk.injEq] at h <;>
    (try obtain ⟨rfl, rfl, rfl⟩ := h) <;>
    first
    | rfl
    | (show Host.Outcome.next (serveCal _ _ _ _ _) = _
       unfold serveCal
       rw [if_neg (by simp [hf])]
       rfl)

/-- A CAL_SWEEP or a CAL_ABORT waits at the head of its ring while a CAL_COMMIT is in its step 4 (R267). -/
theorem serveCal_waits {op : Nat} {p : Pkt} {s : State} (d : OpDef) (gap : Bool) (h : s.stepFour op = true)
    (hp : opPermitted op p.cls = true) : serveCal op d p gap s = s.putBack op p gap := if_pos ⟨h, hp⟩

/-- What becomes of a packet that reaches step 8 of R42: a rejection by that step or by step 9, or its
effect. -/
theorem serveOp_reaches {op : Nat} {d : OpDef} {p : Pkt} {s : State} (h : reaches op d p s = true) :
    p.timed = false ∧ opPermitted op p.cls = true ∧ d.len (ownOf op p s) = true ∧
    serveOp op d p false s = (match d.bad (ownOf op p s) (authOf op p s) with
      | some r => (authOf op p s).reject op p stBadParam r false
      | none =>
        if badFlags p then (authOf op p s).reject op p stBadParam (d.words stBadParam (ownOf op p s) (authOf op p s)) false
        else match d.gate (ownOf op p s) (authOf op p s) with
          | some (st, r) => (authOf op p s).reject op p st r false
          | none => (authOf op p s).execute op d (ownOf op p s) (ownOf op p s).params false) := by
  simp only [reaches, Bool.and_eq_true, Bool.not_eq_true', Bool.or_eq_true, decide_eq_true_eq] at h
  obtain ⟨⟨⟨⟨⟨hp, ht⟩, ha⟩, hc⟩, hl⟩, hd⟩ := h
  obtain ⟨body, hb⟩ := Option.isSome_iff_exists.mp ha
  refine ⟨ht, hp, hl, ?_⟩
  have hs : ¬(p.cls ≠ 0 ∧ opPermitted op p.cls = true ∧ (!s.canStart d p) = true) := by
    rintro ⟨h0, -, hn⟩
    cases hc with
    | inl h => exact h0 h
    | inr h => simp [h] at hn
  unfold serveOp
  rw [if_neg hs]
  unfold runOp
  have hq : ({ p with params := body } : Pkt) = ownOf op p s := by simp [ownOf, hb]
  simp only [hp, Bool.not_true, Bool.false_eq_true, if_false, hb, ht, hq]
  have hlay : (s.authenticate op p).1.layoutBad d p (ownOf op p s) = (match d.bad (ownOf op p s) (authOf op p s) with
      | some r => some (stBadParam, r)
      | none => if badFlags p then some (stBadParam, d.words stBadParam (ownOf op p s) (authOf op p s)) else none) := by
    unfold State.layoutBad
    rw [if_neg]
    · rfl
    · have hd' : (authOf op p s).longest d p (ownOf op p s) ≤ ((authOf op p s).ring (replyRing p)).depth := hd
      simp only [hl, Bool.not_true, Bool.false_eq_true, false_or]
      exact Nat.not_lt.mpr hd'
  rw [hlay]
  cases hbd : d.bad (ownOf op p s) (authOf op p s) with
  | some r => rfl
  | none =>
    dsimp only
    split
    · rename_i h; split at h
      · cases h; rename_i h; simp [h, authOf]
      · cases h
    · rename_i h; split at h
      · cases h
      · rename_i h'; rw [if_neg h', ← hq]; rfl

/-! ### Step 9 never answers OK -/

/-- A check of step 9 answers nothing, or a status that is neither OK nor ACCEPTED. -/
def Fails (x : Option (Nat × List Word)) : Prop := ∀ y, x = some y → y.1 ≠ stOk ∧ y.1 ≠ stAccepted

/-- No check. -/
theorem fails_none : Fails none := fun _ h => by cases h

/-- One check. -/
theorem fails_stop (b : Bool) (st : Nat) (h : st ≠ stOk ∧ st ≠ stAccepted) : Fails (stop b st) := by
  intro y hy; unfold stop at hy; split at hy
  · cases hy; exact h
  · cases hy

/-- The first of two. -/
theorem fails_orElse9 {a b : Option (Nat × List Word)} (ha : Fails a) (hb : Fails b) : Fails (orElse9 a b) := by
  unfold orElse9; split
  · exact ha
  · exact hb

/-- One of two. -/
theorem fails_ite {c : Prop} [Decidable c] {a b : Option (Nat × List Word)} (ha : Fails a) (hb : Fails b) : Fails (if c then a else b) := by
  split <;> assumption

/-- A check with a result. -/
theorem fails_map {α : Type} (o : Option α) (st : Nat) (f : α → List Word) (h : st ≠ stOk ∧ st ≠ stAccepted) :
    Fails (o.map fun k => (st, f k)) := by
  intro y hy; cases o <;> simp at hy; rw [← hy]; exact h

/-- Step 9 of every opcode that a row names. -/
theorem fails_gate {c : Instr} {op : Nat} {d : OpDef} {p : Pkt} (h : servedAs c = some (op, d, p)) (q : Pkt) (u : State) :
    Fails (d.gate q u) := by
  cases c <;> simp only [servedAs, reduceCtorEq, Option.some.injEq, Prod.mk.injEq] at h <;>
    (try obtain ⟨rfl, rfl, rfl⟩ := h) <;>
    first
    | exact fails_none
    | exact fails_stop _ _ (by decide)
    | exact fails_orElse9 (fails_stop _ _ (by decide)) (fails_stop _ _ (by decide))
    | exact fails_ite (fails_stop _ _ (by decide)) fails_none
    | exact fails_ite fails_none (fails_stop _ _ (by decide))
    | exact fails_orElse9 (fails_map _ _ _ (by decide)) (fails_orElse9 (fails_map _ _ _ (by decide)) (fails_map _ _ _ (by decide)))
    | exact fails_ite (fails_stop _ _ (by decide)) (fails_orElse9 (fails_stop _ _ (by decide)) (fails_stop _ _ (by decide)))
    | exact fails_orElse9 (fails_stop _ _ (by decide)) (fails_orElse9 (fails_stop _ _ (by decide)) (fails_stop _ _ (by decide)))
    | exact fails_orElse9 (fails_ite (fails_orElse9 (fails_stop _ _ (by decide)) (fails_stop _ _ (by decide))) fails_none) (fails_stop _ _ (by decide))
    | exact fails_orElse9 (fails_ite (fails_orElse9 (fails_stop _ _ (by decide)) (fails_stop _ _ (by decide))) fails_none) (fails_orElse9 (fails_stop _ _ (by decide)) (fails_stop _ _ (by decide)))
    | (refine fails_orElse9 (fails_orElse9 (fails_stop _ _ (by decide)) (fails_stop _ _ (by decide))) ?_
       first | exact fails_stop _ _ (by decide) | exact fails_orElse9 (fails_stop _ _ (by decide)) (fails_stop _ _ (by decide)))
    | (intro y hy
       simp only [tileRefSetDef] at hy
       split at hy
       · cases hy; exact ⟨by decide, by decide⟩
       · cases hy)

/-! ### Frames of the operations that packets share -/

/-- A relation made of a frame and a further fact that lies outside what serving changes. -/
theorem and_serveRel {parts l : List Part} {Q : State → State → Prop} (hp : ∀ x ∈ parts, x ∈ l)
    (refl : ∀ s, Q s s) (trans : ∀ {s t u}, Q s t → Q t u → Q s u) (base : ∀ {s t}, sameBut parts s t → Q s t) :
    ServeRel parts fun s t => sameBut l s t ∧ Q s t :=
  ⟨fun s => ⟨sameBut_refl l s, refl s⟩, fun h k => ⟨sameBut_trans h.1 k.1, trans h.2 k.2⟩,
   fun h => ⟨sameBut_mono h hp, base h⟩⟩

/-- A shadow write, with the new provisional set where COMMIT is set (R193). -/
theorem shadowWrite_frame (s : State) (id v : Nat) : sameBut [.params, .frames] s (s.shadowWrite id v) := by
  unfold State.shadowWrite State.bumpGen
  dsimp only
  split <;> split <;> intro x hx <;>
    cases x <;> first | exact absurd (by decide) hx | rfl | exact ⟨rfl, rfl⟩ | exact ⟨rfl, rfl, rfl⟩

/-- COMMIT is set (R192). -/
theorem setCommit_frame (s : State) : sameBut [.params, .frames] s s.setCommit := by
  intro x hx
  cases x <;> first | exact absurd (by decide) hx | rfl | exact ⟨rfl, rfl⟩ | exact ⟨rfl, rfl, rfl⟩

/-- A list of shadowed parameters is written (R419). -/
theorem writeEntries_frame (l : List (Nat × Nat)) (c : Bool) (h : ∀ e ∈ l, prmShadowed e.1 = true) (s : State) :
    sameBut [.params, .frames] s (s.writeEntries l c) := by
  unfold State.writeEntries
  have hf : ∀ (l : List (Nat × Nat)) (s : State), (∀ e ∈ l, prmShadowed e.1 = true) →
      sameBut [.params, .frames] s (l.foldl (fun s e => s.prmWrite e.1 e.2) s) := by
    intro l
    induction l with
    | nil => intro s _; exact sameBut_refl _ s
    | cons a r ih =>
      intro s h
      refine sameBut_trans ?_ (ih _ fun e he => h e (List.mem_cons_of_mem _ he))
      have : s.prmWrite a.1 a.2 = s.shadowWrite a.1 a.2 := by
        unfold State.prmWrite
        exact if_pos (h a (List.mem_cons_self ..))
      show sameBut _ s (s.prmWrite a.1 a.2)
      rw [this]
      exact shadowWrite_frame _ _ _
  dsimp only
  split
  · exact sameBut_trans (hf l s h) (setCommit_frame _)
  · exact hf l s h

/-- An object context is written. -/
theorem setCtx_frame (s : State) (n : Nat) (c : ObjCtx) : sameBut [.shadow] s (s.setCtx n c) := by
  intro x hx
  cases x <;> first | exact absurd (by decide) hx | rfl | exact ⟨rfl, rfl⟩ | exact ⟨rfl, rfl, rfl⟩

/-- Contexts are released (R123): the named ones alone change, and of them ACTIVE alone. -/
theorem releaseAll_facts (l : List Nat) (s : State) :
    sameBut [.shadow] s (s.releaseAll l) ∧ (s.releaseAll l).shd.force = s.shd.force
    ∧ (∀ n, n ∉ l → (s.releaseAll l).ctx n = s.ctx n)
    ∧ ∀ n, (s.releaseAll l).ctx n = s.ctx n ∨ (s.releaseAll l).ctx n = { s.ctx n with active := false } := by
  induction l generalizing s with
  | nil => exact ⟨sameBut_refl _ s, rfl, fun _ _ => rfl, fun _ => .inl rfl⟩
  | cons a r ih =>
    obtain ⟨i1, i2, i3, i4⟩ := ih (s.release a)
    have e : s.releaseAll (a :: r) = (s.release a).releaseAll r := rfl
    have hc : ∀ m, (s.release a).ctx m = if m = a then { s.ctx a with active := false } else s.ctx m := fun m => ctx_setCtx _ _ _ _
    rw [e]
    refine ⟨sameBut_trans (setCtx_frame _ _ _) i1, i2, ?_, ?_⟩
    · intro n hn
      simp only [List.mem_cons, not_or] at hn
      rw [i3 n hn.2, hc, if_neg hn.1]
    · intro n
      have := i4 n
      rw [hc] at this
      by_cases h : n = a
      · subst h; simp at this; exact .inr this
      · rw [if_neg h] at this; exact this

/-- One engine of a CREST_CONTROL. -/
theorem crestAct_frame (s : State) (a : CrestAct) (i : Nat) :
    sameBut [.rings, .params, .strings] s (s.crestAct a i) := by
  have hm : ∀ (u : State) f, sameBut [.rings, .params, .strings] u (u.modCrest i f) := by
    intro u f x hx
    cases x <;> first | exact absurd (by decide) hx | rfl | exact ⟨rfl, rfl⟩ | exact ⟨rfl, rfl, rfl⟩
  have hr : ∀ (u : State), sameBut [.rings, .params, .strings] u (u.crestRun i) := by
    intro u
    unfold State.crestRun
    dsimp only
    split
    · exact hm _ _
    · exact sameBut_trans (hm _ _) (sameBut_mono (evt_frame _ _ _ _ _ _ _ _) (by simp))
    · exact sameBut_trans (hm _ _) (sameBut_mono (evt_frame _ _ _ _ _ _ _ _) (by simp))
  unfold State.crestAct
  dsimp only
  generalize (if a.init = true ∧ (a.action = 1 ∨ a.action = 3) then _ else s.crest i : Crest) = k
  split
  · exact hm _ _
  · split
    · exact hm _ _
    · exact sameBut_trans (hm _ _) (hr _)
  · generalize (if k.state = .paused then k else _ : Crest) = m
    split
    · exact sameBut_refl _ s
    · split <;> exact hm _ _
  · exact hm _ _

/-- A CREST_CONTROL acts. -/
theorem crestControl_frame (s : State) (a : CrestAct) :
    sameBut [.rings, .params, .strings] s (s.crestControl a) :=
  sameBut_foldl (fun u i => crestAct_frame u a i) _ s

/-- Bytes of SRAM are written. -/
theorem writeSram_frame (s : State) (a : Nat) (l : List Byte) : sameBut [.memory, .bytes] s (s.writeSram a l) :=
  sameBut_trans (sameBut_mono (setSram_frame s a l) (by simp)) (sameBut_mono (wholeWritten_frame _ _) (by simp))

/-- A write of SRAM leaves the bytes outside its span. -/
theorem writeSram_out (s : State) (a b : Nat) (l : List Byte) (h : b < a ∨ a + l.length ≤ b) :
    (s.writeSram a l).sram b = s.sram b := by
  unfold State.sram; rw [(writeSram_bytes s a l).1]
  show (s.setSram a l).sram b = _
  rw [setSram_sram, if_neg (by omega)]; rfl

/-- A packet gives at most the bytes that are asked of it. -/
theorem bytes_le (p : Pkt) (off n : Nat) : (p.bytes off n).length ≤ n := by
  unfold Pkt.bytes
  have h : ((p.params.drop (off - 16)).take n).length ≤ n := by
    rw [List.length_take]; exact Nat.min_le_left _ _
  simp only [List.length_append, List.length_replicate]
  omega

end Sys2Proof.Machine
end

