-- ==== Sys2Proof/Laws/Reads.lean ====
section
/-! SUPPORT. What reads of lines can change (R273): the frames of a read where errors stand, and of a read in a calm
state; the bytes that a read may put back. -/

namespace Sys2Proof.Machine

/-- Slices on the sectors of lines are cut short. -/
theorem abortMrams_frame (l : List Nat) (s : State) : sameBut durParts s (s.abortMrams l) :=
  sameBut_foldl (fun u a => abortMram_frame u a) l s

/-- An entry of the error table leaves the errors that stand. -/
theorem errLog_errs (s : State) (a k r c : Nat) : (s.errLog a k r c).mem.errs = s.mem.errs := by
  unfold State.errLog; dsimp only
  repeat (first | rfl | split)

/-- An entry of the error table leaves the self-tests. -/
theorem errLog_bist (s : State) (a k r c : Nat) : (s.errLog a k r c).bist = s.bist := errLog_frame s a k r c .selfTest (by decide)

/-- A repair request leaves the errors that stand. -/
theorem queueRepair_errs (s : State) (a : Nat) (k : Bool) : (s.queueRepair a k).1.mem.errs = s.mem.errs := by
  unfold State.queueRepair; dsimp only
  repeat (first | rfl | split)

/-- What leaves memory integrity alone leaves the errors that stand. -/
theorem memK {l : List Part} {s t : State} (h : sameBut l s t) (hm : .memory ∉ l) : t.mem.errs = s.mem.errs := by
  have e := h .memory hm
  unfold samePart at e
  injection e

/-- An uncorrectable line leaves the errors that stand. -/
theorem lineLost_errs (s : State) (a req : Nat) : (s.lineLost a req).mem.errs = s.mem.errs := by
  unfold State.lineLost
  dsimp only
  have h : (((s.errLog a (if a < 0x20000000 then 3 else 2) req 0).bump pUncCount 1).latchFault 14).mem.errs = s.mem.errs :=
    (memK (latchFault_frame _ _) (by simp)).trans ((memK (bump_frame _ _ _) (by simp)).trans (errLog_errs _ _ _ _ _))
  generalize ((s.errLog a (if a < 0x20000000 then 3 else 2) req 0).bump pUncCount 1).latchFault 14 = t at h ⊢
  split
  · exact h
  · generalize hm : ({ t.mem with
      poison := if t.mem.poison.contains a = true then t.mem.poison else sortIns a t.mem.poison } : Mem) = m
    have g : (({ t with mem := m } : State)).mem.errs = s.mem.errs := by rw [← hm]; exact h
    generalize ({ t with mem := m } : State) = v at g ⊢
    split
    · exact (memK (reportLost_frame _ _ _ _) (by simp)).trans ((queueRepair_errs _ _ _).trans g)
    · exact (queueRepair_errs _ _ _).trans g

/-- A poisoned line that is read in a calm state is reported, and no more. -/
theorem lineLost_calm (s : State) (a req : Nat) : calmBut [.rings, .params, .memory, .diag] s (s.lineLost a req) := fun c =>
  ⟨calm_of (lineLost_errs s a req) (congrArg Bist.slice (lineLost_frame s a req .selfTest (by decide))) c, lineLost_frame s a req⟩

/-- A read of a line in a calm state changes figures and reports alone. -/
theorem readLine_calm (s : State) (req a : Nat) : calmBut [.rings, .params, .memory, .diag] s (s.readLine req a).1 := by
  intro c
  unfold State.readLine
  split
  · exact lineLost_calm s a req c
  · rw [calm_good c]
    exact ⟨c, sameBut_refl _ _⟩

/-- A wider frame. -/
theorem calmBut_mono {l m : List Part} {s t : State} (h : calmBut l s t) (hm : ∀ x ∈ l, x ∈ m) : calmBut m s t := fun c =>
  ⟨(h c).1, sameBut_mono (h c).2 hm⟩

/-- Reads of lines in a calm state. -/
theorem readLines_calm (req : Nat) (as : List Nat) (s : State) : calmBut [.rings, .params, .memory, .diag] s (s.readLines req as).1 := by
  induction as generalizing s with
  | nil => exact calmBut_refl _ s
  | cons a r ih =>
    unfold State.readLines
    dsimp only
    split
    · exact calmBut_trans (readLine_calm s req a) (ih _)
    · exact readLine_calm s req a

/-- Reads of every line in a calm state. -/
theorem readEach_calm (req : Nat) (as : List Nat) (s : State) : calmBut [.rings, .params, .memory, .diag] s (s.readEach req as).1 := by
  have h : ∀ (as : List Nat) (x : State × List Nat), calmBut [.rings, .params, .memory, .diag] s x.1 →
      calmBut [.rings, .params, .memory, .diag] s (as.foldl (fun x a =>
        let y := x.1.readLine req a
        if y.2 then (y.1, x.2) else (y.1, x.2 ++ [a])) x).1 := by
    intro as
    induction as with
    | nil => exact fun _ hx => hx
    | cons a r ih =>
      intro x hx
      refine ih _ ?_
      dsimp only
      split <;> exact calmBut_trans hx (readLine_calm x.1 req a)
  exact h as (s, []) (calmBut_refl _ s)

/-- In a calm state there is no slice to cut short. -/
theorem abortMrams_calm (l : List Nat) (s : State) (c : s.calm = true) : s.abortMrams l = s := by
  unfold State.abortMrams
  induction l with
  | nil => rfl
  | cons a r ih => rw [List.foldl_cons, calm_abortMram c]; exact ih

/-- A slice on a CVU is cut short. -/
theorem abortCvu_dur (s : State) (k : Nat) : sameBut durParts s (s.abortCvu k) := by
  refine abortSlice_keeps (by decide) s _ fun ty tg h u => ?_
  rw [Bool.and_eq_true, decide_eq_true_eq, decide_eq_true_eq] at h
  obtain ⟨rfl, rfl⟩ := h
  have : u.abortLeaves 7 tg = u := by
    unfold State.abortLeaves
    dsimp only
    split <;> rfl
  rw [this]
  exact sameBut_refl _ u

/-- A journal entry is read from its line. -/
theorem jLook_frame (s : State) (j : Word) : sameBut durParts s (s.jLook j).1 := by
  unfold State.jLook
  split
  · exact sameBut_refl _ s
  · have h : sameBut durParts s ((s.abortMram (jAddr j)).readLine 7 (jAddr j)).1 :=
      sameBut_trans (abortMram_frame s _) (readLine_keeps (by decide) _ 7 _ fun u =>
        sameBut_mono (restoreLine_journal u _ (jAddr_region j)) (by decide))
    dsimp only
    split <;> exact h

/-- A journal entry is read in a calm state. -/
theorem jLook_calm (s : State) (j : Word) : calmBut [.rings, .params, .memory, .diag] s (s.jLook j).1 := by
  intro c
  unfold State.jLook
  split
  · exact calmBut_refl _ s c
  · rw [calm_abortMram c]
    have h := readLine_calm s 7 (jAddr j) c
    dsimp only
    split <;> exact h

/-- Entries of the journal are read one after another. -/
theorem jScan_frame (fuel : Nat) : ∀ (n : Nat) (j : Word) (s : State), sameBut durParts s (s.jScan fuel n j).1 := by
  induction fuel with
  | zero => intro n j s; exact sameBut_refl _ s
  | succ k ih =>
    intro n j s
    unfold State.jScan
    split
    · exact sameBut_refl _ s
    · dsimp only
      split
      · exact sameBut_trans (jLook_frame s j) (ih _ _ _)
      · exact sameBut_trans (jLook_frame s j) (ih _ _ _)

/-- The same in a calm state. -/
theorem jScan_calm (fuel : Nat) : ∀ (n : Nat) (j : Word) (s : State), calmBut [.rings, .params, .memory, .diag] s (s.jScan fuel n j).1 := by
  induction fuel with
  | zero => intro n j s; exact calmBut_refl _ s
  | succ k ih =>
    intro n j s
    unfold State.jScan
    split
    · exact calmBut_refl _ s
    · dsimp only
      split
      · exact calmBut_trans (jLook_calm s j) (ih _ _ _)
      · exact calmBut_trans (jLook_calm s j) (ih _ _ _)

/-- MRAM is whole, and so are the bytes of SRAM of which a condition holds. -/
def Outside (Q : Nat → Prop) (s t : State) : Prop := t.mem.mram = s.mem.mram ∧ ∀ a, Q a → t.sram a = s.sram a

/-- Nothing written. -/
theorem outside_refl (Q : Nat → Prop) (s : State) : Outside Q s s := ⟨rfl, fun _ _ => rfl⟩

/-- Two writes outside the same bytes. -/
theorem outside_trans {Q : Nat → Prop} {s t u : State} (h : Outside Q s t) (k : Outside Q t u) : Outside Q s u :=
  ⟨k.1.trans h.1, fun a ha => (k.2 a ha).trans (h.2 a ha)⟩

/-- What leaves the bytes alone. -/
theorem outside_base {parts : List Part} (h : Part.bytes ∉ parts) (Q : Nat → Prop) {s t : State} (k : sameBut parts s t) : Outside Q s t := by
  have := k .bytes h
  exact ⟨this.2, fun a _ => by unfold State.sram; rw [this.1]⟩

/-- A write of SRAM. -/
theorem setSram_out (s : State) (a : Nat) (l : List Byte) : Outside (fun b => b < a ∨ a + l.length ≤ b) s (s.setSram a l) := by
  refine ⟨rfl, fun b hb => ?_⟩
  rw [setSram_sram, if_neg (by omega)]

/-- A line of the lower regions that its source puts back (R274). -/
theorem restoreLine_out (s : State) (a : Nat) (ha : regionOf a ≤ 4 ∨ regionOf a = 10) :
    Outside (fun b => b < a ∨ a + 64 ≤ b) s (s.restoreLine a) := by
  have h : ∀ l : List Byte, l.length = 64 → Outside (fun b => b < a ∨ a + 64 ≤ b) s (s.setSram a l) := by
    intro l hl
    have := setSram_out s a l
    rw [hl] at this
    exact this
  unfold State.restoreLine
  split <;> rename_i hr
  all_goals first
    | (rw [hr] at ha; exact absurd ha (by decide))
    | (refine h _ ?_; simp [State.sramBytes, tgets])
    | exact outside_refl _ s

/-- A line of the lower regions that is read: no byte outside it changes. -/
theorem readLine_out (s : State) (req a : Nat) (ha : regionOf a ≤ 4 ∨ regionOf a = 10) :
    Outside (fun b => b < a ∨ a + 64 ≤ b) s (s.readLine req a).1 := by
  unfold State.readLine
  split
  · exact outside_base (by decide) _ (lineLost_frame s a req)
  · have g : Outside (fun b => b < a ∨ a + 64 ≤ b) s (s.errGone a) := outside_base (by decide) _ (errGone_frame s a)
    split
    · exact outside_refl _ s
    · exact outside_trans g (outside_base (by decide) _ (lineCorrected_frame _ _ _ _))
    · refine outside_trans g ?_
      unfold State.refetch
      split
      · exact outside_trans (restoreLine_out _ a ha) (outside_base (by decide) _ (lineCorrected_frame _ _ _ _))
      · exact outside_base (by decide) _ (lineLost_frame _ a req)
    · exact outside_trans g (outside_base (by decide) _ (lineLost_frame _ a req))

/-- Fewer bytes. -/
theorem outside_mono {P Q : Nat → Prop} {s t : State} (h : Outside P s t) (hq : ∀ b, Q b → P b) : Outside Q s t :=
  ⟨h.1, fun a ha => h.2 a (hq a ha)⟩

/-- Lines that are read. -/
theorem readEach_out (Q : Nat → Prop) (req : Nat) (as : List Nat) (s : State)
    (ha : ∀ a ∈ as, (regionOf a ≤ 4 ∨ regionOf a = 10) ∧ ∀ b, Q b → b < a ∨ a + 64 ≤ b) : Outside Q s (s.readEach req as).1 := by
  have h : ∀ (as : List Nat) (x : State × List Nat),
      (∀ a ∈ as, (regionOf a ≤ 4 ∨ regionOf a = 10) ∧ ∀ b, Q b → b < a ∨ a + 64 ≤ b) → Outside Q s x.1 →
      Outside Q s (as.foldl (fun x a =>
        let y := x.1.readLine req a
        if y.2 then (y.1, x.2) else (y.1, x.2 ++ [a])) x).1 := by
    intro as
    induction as with
    | nil => exact fun _ _ hx => hx
    | cons a r ih =>
      intro x ha hx
      have h1 := outside_trans hx (outside_mono (readLine_out x.1 req a (ha a (by simp)).1) (ha a (by simp)).2)
      refine ih _ (fun b hb => ha b (by simp [hb])) ?_
      dsimp only
      split <;> exact h1
  exact h as (s, []) ha (outside_refl _ s)

/-- A line that a span takes in in part. -/
theorem partLines_of {a n l : Nat} (h : l ∈ partLines a n) : l % 64 = 0 ∧ a < l + 64 ∧ l < a + n := by
  unfold partLines linesOf at h
  rw [List.mem_filter] at h
  obtain ⟨h, -⟩ := h
  split at h
  · cases h
  · rename_i hn
    simp only [List.mem_map, List.mem_range] at h
    obtain ⟨i, hi, rfl⟩ := h
    unfold lineOf at *
    omega

/-- A byte whose line the span does not touch lies outside the lines that it takes in in part. -/
theorem lineOf_out {a b l : Nat} {n : Nat} (hl : l % 64 = 0) (h1 : a < l + 64) (h2 : l < a + n)
    (h : lineOf b + 64 ≤ a ∨ a + n ≤ lineOf b) : b < l ∨ l + 64 ≤ b := by
  unfold lineOf at h
  omega

/-- The lower regions. -/
theorem region_low {a : Nat} (h : a < 0x700000) : regionOf a ≤ 4 := by
  unfold regionOf
  by_cases h0 : a < 0x200000
  · rw [if_pos h0]; omega
  · by_cases h1 : a < 0x400000
    · rw [if_neg h0, if_pos h1]; omega
    · by_cases h2 : a < 0x600000
      · rw [if_neg h0, if_neg h1, if_pos h2]; omega
      · rw [if_neg h0, if_neg h1, if_neg h2, if_pos h]; omega

/-- What a write of part of a line reads first (R277) leaves every byte whose line the span does not touch. -/
theorem readParts_out (Q : Nat → Prop) (s : State) (req a n : Nat) (ha : ∀ l, l % 64 = 0 → a < l + 64 → l < a + n → regionOf l ≤ 4 ∨ regionOf l = 10)
    (hQ : ∀ b, Q b → lineOf b + 64 ≤ a ∨ a + n ≤ lineOf b) : Outside Q s (s.readParts req a n).1 := by
  unfold State.readParts
  split
  · exact outside_refl _ s
  · refine readEach_out Q req _ s fun l hl => ?_
    obtain ⟨h1, h2, h3⟩ := partLines_of hl
    exact ⟨ha l h1 h2 h3, fun b hb => lineOf_out h1 h2 h3 (hQ b hb)⟩

/-- In a calm state lines that are not poisoned are read and nothing comes of it. -/
theorem readEach_good {s : State} (c : s.calm = true) (req : Nat) (as : List Nat) (h : ∀ a ∈ as, s.mem.poison.contains a = false) :
    s.readEach req as = (s, []) := by
  unfold State.readEach
  induction as with
  | nil => rfl
  | cons a r ih =>
    have h1 : s.readLine req a = (s, true) := by
      unfold State.readLine
      rw [if_neg (by rw [h a (List.mem_cons_self ..)]; simp), calm_good c]
    rw [List.foldl_cons]
    dsimp only
    rw [h1]
    exact ih fun b hb => h b (by simp [hb])

/-- In a calm state a write of part of a line reads it and nothing comes of it. -/
theorem readParts_good {s : State} (c : s.calm = true) (req a n : Nat) : (s.readParts req a n).1 = s := by
  unfold State.readParts
  split
  · rfl
  · rename_i h
    rw [readEach_good c]
    intro l hl
    unfold State.partPoisoned at h
    simp only [Bool.not_eq_true, List.any_eq_false] at h
    simpa using h l hl

end Sys2Proof.Machine
end

