-- ==== Sys2Proof/Tests/Slice0.lean ====
section
/-! SUPPORT. The model's own tests: ill-formed commands that WellFormed refuses, small steps whose
results the manual gives, and, per statement with hypotheses, a state and operands that meet them. -/

namespace Sys2Proof.Tests
open Sys2Proof.Machine

-- One test at a time: side by side they take a thread, and its stack, each.
set_option Elab.async false

/-- Half-words and words as parameter bytes. -/
def h (v : Nat) : List Byte := leBytes 2 v
/-- See `h`. -/
def w (v : Nat) : List Byte := leBytes 4 v

/-- An engine in service: ACTIVE, first light done, SAFE 0, the grid locked, the time SET. -/
def up : State :=
  { State.reset with
    cmd := { State.reset.cmd with serving := true }
    frm := { State.reset.frm with running := true, state := .locked }
    diag := { State.reset.diag with causes := 0, safe := 0, inReset := false }
    pwr := { State.reset.pwr with boot := .up, time := .set } }

/-- A packet of a class with ACKREQ on the first ring of the class, from the SPI port. -/
def pk (cls : Nat) (params : List Byte) : Pkt :=
  { port := .spi
    ring := [0, 8, 16, 32].getD cls 0
    flags := BitVec.ofNat 8 (cls + 4)
    seq := 1
    node := 16383
    tag := 7
    params := params }

/-! ### Ill-formed commands are refused, one per check -/

theorem test_wf_packet : (pk 2 (w 0)).wf = true ∧ { pk 2 [] with ring := 48 }.wf = false
    ∧ (pk 2 [0, 0, 0]).wf = false ∧ (pk 2 (List.replicate 4084 0)).wf = false
    ∧ { pk 2 [] with flags := 0x82 }.wf = false ∧ (Instr.ping { pk 2 [] with ring := 48 }).wf = false := by
  decide +kernel

theorem test_wf_blocks : (Instr.blockReceived 0 none (some (List.replicate 120 3))).wf = true
    ∧ (Instr.blockReceived 0 (some (List.replicate 119 3)) none).wf = false
    ∧ (Instr.blockReceived 0 none (some (List.replicate 120 4))).wf = false := by decide +kernel

theorem test_wf_upsets : (Instr.sequencerTake 0 [(64, .lost)]).wf = true
    ∧ (Instr.sequencerTake 0 [(65, .lost)]).wf = false ∧ (Instr.memRead (pk 2 []) [(1, .retry)]).wf = false
    ∧ (Instr.memRead { pk 2 [] with ring := 63 } []).wf = false
    ∧ (Instr.startToken 0 0 [(32, .good)]).wf = false ∧ (Instr.instructionFetchFault 0 4).wf = false := by
  decide +kernel

theorem test_wf_notch : (Instr.notchRowAccess 0 [] []).wf = false
    ∧ (Instr.notchRowAccess 0 (List.replicate 16 { vled := 0, refMv := 0, node := 0, rho := 0, odd := [] })
        [1048576]).wf = false
    ∧ (Instr.notchEnd 0 (List.replicate 64 0)).wf = true ∧ (Instr.notchEnd 0 [0]).wf = false := by
  decide +kernel

/-- A training result in good form. -/
def found : TrainResult :=
  { ctleEyes := 9 :: List.replicate 15 5, offsets := [0, 0, 0]
    windows := List.replicate 16 { mu := [0, 0, 0, 0], tapDir := [0, 0, 0], rich := 0, trans := 0 }
    eye := { height := [200, 200, 200], width := [40, 40, 40] } }

theorem test_wf_training : (Instr.rxReady 0 .a found).wf = true
    ∧ (Instr.rxReady 0 .a { found with ctleEyes := [] }).wf = false
    ∧ (Instr.rxReady 0 .a { found with offsets := [] }).wf = false
    ∧ (Instr.rxReady 0 .a { found with windows := [{ mu := [], tapDir := [0, 0, 0], rich := 0, trans := 0 }] }).wf = false
    ∧ (Instr.rxReady 0 .a { found with eye := { height := [], width := [] } }).wf = false
    ∧ (Instr.eyeScanDone 0 .b { height := [1, 1, 1], width := [1] }).wf = false
    ∧ (Instr.adaptWindowEnd 0 .a { mu := [], tapDir := [0, 0, 0], rich := 0, trans := 0 }).wf = false
    ∧ (Instr.adaptWindowEnd 0 .a { mu := [0, 0, 0, 0], tapDir := [], rich := 0, trans := 0 }).wf = false := by
  decide +kernel

theorem test_wf_readings : (Instr.thermalUpdate 0 (List.replicate 20 0) (List.replicate 16 0)).wf = true
    ∧ (Instr.thermalUpdate 0 (List.replicate 19 0) (List.replicate 16 0)).wf = false
    ∧ (Instr.thermalUpdate 0 (List.replicate 20 0) []).wf = false
    ∧ (Instr.stepTrimsDone 0 (List.replicate 16 0) []).wf = false
    ∧ (Instr.stepTrimsDone 0 [] (List.replicate 16 [])).wf = false := by decide +kernel

/-! ### What the statements about packets assume is met -/

/-- A packet passes its checks, and nothing keeps it waiting. -/
def goes (op : Nat) (d : OpDef) (p : Pkt) (s : State) : Bool := passes op d p s && !s.stepFour op

theorem met_SystemReadsComplete :
    goes 0x0001 pingDef (pk 2 (List.replicate 64 9)) up = true ∧ goes 0x0002 identifyDef (pk 2 []) up = true
    ∧ goes 0x0004 paramGetDef (pk 2 (h 1 ++ h 0 ++ h pAlertMask ++ h 0)) up = true
    ∧ goes 0x0006 statusGetDef (pk 2 []) up = true ∧ goes 0x000A timeStatusDef (pk 0 []) up = true := by
  decide +kernel

/-- An engine that has captured sync edge 5, at DEVTIME 1,000. -/
def edged : State :=
  { up with pwr := { up.pwr with syncCount := 5, edges := [{ count := 5, time := 1000 }] } }

theorem met_SystemWritesComplete :
    goes 0x0005 paramSetDef (pk 1 (h 1 ++ h 1 ++ h pAlertMask ++ h 0 ++ w 0xFFFF)) up = true
    ∧ goes 0x0007 eventAckDef (pk 2 (w 0xFFFFFFFF)) up = true
    ∧ goes 0x0008 ringConfigDef (pk 2 (w 0)) up = true ∧ (pk 2 (w 0)).u16 16 = 0
    ∧ goes 0x0008 ringConfigDef (pk 2 (w 1 ++ [17, 2, 1, 0] ++ w 8)) up = true
    ∧ goes 0x0009 setTimeDef (pk 2 (w 0 ++ w 1 ++ w 5 ++ w 0)) up = true
    ∧ timeNow (pk 2 (w 0 ++ w 1 ++ w 5 ++ w 0)) = true
    ∧ goes 0x0009 setTimeDef (pk 2 (w 5 ++ w 0 ++ w 9 ++ w 0)) edged = true
    ∧ edged.edgeAt 5 = some 1000
    ∧ goes 0x0009 setTimeDef (pk 2 (w 21 ++ w 0 ++ w 9 ++ w 0)) edged = true ∧ edged.edgeAt 21 = none := by
  decide +kernel

/-- RESET's parameters at any level. -/
def resetPk : Pkt := pk 2 (w 0 ++ w 0xA5A55A5A)

theorem met_ResetLevelsComplete : goes 0x0003 resetDef (resetPk.fix 16 0) up = true
    ∧ goes 0x0003 resetDef (resetPk.fix 16 1) up = true
    ∧ goes 0x0003 resetDef (resetPk.fix 16 2) up = true := by decide +kernel

/-- An OBJ_UPDATE of one context: TTL and TIMEOUT 1, captured now. -/
def objPk : Pkt :=
  pk 0 ([1, 0, 0, 0] ++ [127, 6] ++ List.replicate 38 0 ++ h 1 ++ h 0 ++ h 1 ++ h 0 ++ w 0
    ++ List.replicate 12 0)

theorem met_ClassZeroCommandsComplete : goes 0x0101 objUpdateDef objPk up = true
    ∧ goes 0x0102 objReleaseDef (pk 0 (w 1 ++ w 0 ++ w 0 ++ w 0x80000000)) up = true
    ∧ goes 0x0103 objClearAllDef (pk 0 (w 1)) up = true
    ∧ goes 0x0104 forceLevelDef (pk 0 (h 0 ++ h 65535 ++ w 0)) up = true
    ∧ goes 0x0104 forceLevelDef (pk 0 (h 1 ++ h 65534 ++ w 0)) up = true
    ∧ goes 0x0105 fallbackEnterDef (pk 0 ([2, 0, 1, 0] ++ w 0x4441524B)) up = true
    ∧ goes 0x0106 fallbackExitDef (pk 0 (w 1)) up = true
    ∧ goes 0x0107 bendSetDef (pk 0 (h 0xFE00 ++ h 127)) up = true := by decide +kernel

theorem met_FrameCommandsComplete : goes 0x0201 frameCommitDef (pk 1 (w 0)) up = true
    ∧ goes 0x0201 frameCommitDef (pk 2 (w 1)) up = true
    ∧ goes 0x0202 scanSelectDef (pk 2 (w 1 ++ w 0x400000 ++ w 1)) up = true
    ∧ goes 0x0203 timingStatusDef (pk 2 []) up = true ∧ goes 0x0204 freezeStatusDef (pk 2 []) up = true
    ∧ goes 0x0205 videoConfigDef (pk 2 ([0x07, 0x08, 0x02, 0] ++ w 0xC8)) up = true := by decide +kernel

/-- An engine whose scene 1 is valid. -/
def scened : State := { up with nvm := { up.nvm with scenes := [(1, { valid := true })] } }

/-- A SYMBOL_WRITE of the last four bytes of the store, with their CRC. -/
def symbolPk : Pkt := pk 3 (w 0x1FFFFC ++ h 4 ++ h 1 ++ w 0xED82CD11 ++ [0x61, 0x62, 0x63, 0x64])

theorem met_SceneCommandsComplete :
    goes 0x0301 sceneWriteDef (pk 3 ([3, 0] ++ h 1 ++ w 65472 ++ List.replicate 64 5)) up = true
    ∧ goes 0x0302 sceneStoreDef (pk 3 ([15, 2, 0, 0] ++ w 1)) up = true
    ∧ goes 0x0303 sceneMixDef (pk 1 ([1, 1] ++ h 3 ++ h 256 ++ h 0 ++ h 0 ++ h 4096)) scened = true
    ∧ goes 0x0304 symbolWriteDef symbolPk up = true
    ∧ crc32 (symbolPk.bytes 28 4) = symbolPk.u32 24 ∧ (up.readParts 5 0x5FFFFC 4).2 = true := by decide +kernel

/-- A LUT_WRITE of the last entry. -/
def lutPk : Pkt := pk 2 (h 4095 ++ h 1 ++ w 1 ++ h 65535 ++ h 0)

theorem met_OverlayCommandsComplete :
    goes 0x0305 ovlSetDef (pk 1 ([31, 0] ++ h 1 ++ h 1 ++ h 256 ++ w 0 ++ h 8 ++ h 1 ++ h 64 ++ h 0
      ++ List.replicate 48 0)) up = true
    ∧ goes 0x0306 ovlClearDef (pk 2 (w 0x80000000 ++ w 3)) up = true
    ∧ goes 0x0307 lutWriteDef lutPk up = true ∧ up.comp.lutCopying = false
    ∧ goes 0x0308 windowSetDef (pk 1 (w 4 ++ w 5 ++ w 0x103)) up = true := by decide +kernel

theorem met_DriveCommandsComplete :
    goes 0x0401 tileRefSetDef (pk 1 (h 0x8001 ++ h 1 ++ h 127 ++ List.replicate 28 0 ++ h 1023)) up = true
    ∧ goes 0x0402 driveStatusDef (pk 2 (w 1)) up = true
    ∧ goes 0x0403 budgetSetDef (pk 2 (h 8000 ++ h 0 ++ h 0xFFFF ++ h 1)) up = true
    ∧ goes 0x0404 saddleStatusDef (pk 2 (w 3)) up = true := by decide +kernel

/-- A CREST_CONTROL of engine 0, and the same with SEAM. -/
def crestPk (flags : Byte) : Pkt := pk 2 ([1, 0, flags, 0] ++ w 0)

theorem met_StringCommandsComplete :
    goes 0x0501 strConfigDef (pk 2 ([3, 15, 16, 2] ++ h 50 ++ h 100 ++ h 1024 ++ [150, 0] ++ h 4096 ++ h 0)) up
      = true
    ∧ goes 0x0502 strLevelDef (pk 1 ([0, 1] ++ h 1 ++ h 1024 ++ List.replicate 30 0)) up = true
    ∧ goes 0x0503 strStatusDef (pk 2 (w 3)) up = true
    ∧ goes 0x0504 crestLoadDef (pk 2 ([7, 63, 1, 0] ++ [5, 0, 63, 0, 0, 0, 0, 0])) up = true
    ∧ (∀ a : Fin 4, goes 0x0505 crestControlDef ((crestPk 0).fix 17 (BitVec.ofNat 8 a.val)) up = true
      ∧ goes 0x0505 crestControlDef ((crestPk 1).fix 17 (BitVec.ofNat 8 a.val)) up = true) := by
  decide +kernel

theorem met_DiagnosticCommandsComplete : goes 0x0601 diagStatusDef (pk 2 (w 1)) up = true
    ∧ goes 0x0602 diagMapReadDef (pk 2 ([0, 0, 15, 0] ++ h 255 ++ h 1 ++ w 0)) up = true
    ∧ (up.readLines 5 (up.mapReadLines (pk 2 ([0, 0, 15, 0] ++ h 255 ++ h 1 ++ w 0)))).2 = none
    ∧ goes 0x0603 pixelMaskDef (pk 2 ([1, 0] ++ h 2047 ++ h 511 ++ h 2047 ++ h 511 ++ h 0)) up = true
    ∧ (up.readRect (2047, 511, 2047, 511)).2 = true
    ∧ goes 0x0604 faultClearDef (pk 2 (w 0 ++ h 0x77FF ++ h 1 ++ h 0 ++ h 0 ++ h 0 ++ h 0)) up = true
    ∧ (up.readRect (0, 0, 0, 0)).2 = true
    ∧ goes 0x0605 faultConfigDef
      (pk 2 (h 0x0FFA ++ h 1 ++ h 0x96 ++ h 0x640 ++ [9, 0x40] ++ h 0x40)) up = true := by decide +kernel

theorem met_DiagnosticCommandsComplete_records :
    goes 0x0602 diagMapReadDef (pk 3 ([1, 3, 0, 0] ++ h 0 ++ h 1000 ++ w 1048575)) up = true
    ∧ (up.readLines 5 (up.mapReadLines (pk 3 ([1, 3, 0, 0] ++ h 0 ++ h 1000 ++ w 1048575)))).2 = none := by
  decide +kernel

/-- An engine with CAL_CTRL's sweeps enabled whose inactive copy is that of build 5. -/
def building : State :=
  (up.setLive pCalCtrl 0xA03).writeMram 0x10000000
    (withCrc (w 0 ++ w 0 ++ [1, 0, 0, 0] ++ w 5 ++ List.replicate 236 0))

/-- A FLUX_WRITE of the last byte of the array, with its CRC. -/
def fluxPk : Pkt := pk 2 (h 2047 ++ h 511 ++ h 1 ++ h 1 ++ w 1 ++ w 0x59BC5767 ++ [0x5A, 0, 0, 0])

theorem met_CalibrationCommandsComplete :
    goes 0x0701 calSweepDef (pk 3 (h 1 ++ h 0 ++ w 0)) building = true
    ∧ goes 0x0701 calSweepDef (pk 3 (h 1 ++ h 1 ++ w 5)) building = true
    ∧ goes 0x0702 calCommitDef (pk 3 (w 5)) building = true
    ∧ goes 0x0703 calStatusDef (pk 2 (w 1)) up = true
    ∧ goes 0x0704 calAbortDef (pk 2 (w 1)) building = true
    ∧ (let v := (building.entered 0x0704 (pk 2 (w 1)) false).1
       (abortJob v).1.building = true ∧ (abortJob v).1.discardBuild.2 = true)
    ∧ goes 0x0705 fluxWriteDef fluxPk up = true
    ∧ crc32 (fluxPk.bytes 32 1) = fluxPk.u32 28 ∧ (up.readRows fluxPk).2 = true := by
  decide +kernel

theorem met_MemoryCommandsComplete :
    goes 0x0801 memReadDef (pk 2 (w 0x400000 ++ h 4 ++ h 0)) up = true
    ∧ goes 0x0801 memReadDef (pk 2 (w 0x400000 ++ h 4 ++ h 7)) up = true
    ∧ ((up.readLines 5 (linesOf 0x400000 4)).2 = none
      ∧ ((up.abortCvu 3).readLines 5 (linesOf 0x400000 4)).2 = none)
    ∧ goes 0x0802 memWriteDef (pk 2 (w 0x400000 ++ h 4 ++ h 0 ++ w 1)) up = true
    ∧ (up.readParts 5 0x400000 4).2 = true
    ∧ goes 0x0803 cvuConfigDef (pk 2 ([3, 8] ++ h 3 ++ w 7 ++ w 255 ++ w 0)) up = true
    ∧ goes 0x0804 cvuRunDef (pk 3 ([3, 2] ++ h 4 ++ w 0x400000 ++ w 4 ++ w 2 ++ w 0 ++ w 0x400008)) up = true
    ∧ goes 0x0805 errlogReadDef (pk 2 (w 1)) up = true ∧ goes 0x0806 scrubStatusDef (pk 2 []) up = true := by
  decide +kernel

/-- An access that runs off the last address, one at the last range marked LOCKED to MEM_READ, and a
MEM_WRITE that ends one byte past a range. -/
theorem met_MemoryChecksByMap :
    reaches 0x0801 memReadDef (pk 2 (w 0xFFFFFFFC ++ h 8 ++ h 0)) up = true
    ∧ memRange 0xFFFFFFFC 8 = none
    ∧ reaches 0x0801 memReadDef (pk 2 (w 0x107FFFFC ++ h 4 ++ h 0)) up = true
    ∧ memRange 0x107FFFFC 4 = some (0x10780000, 0x107FFFFF, false, false)
    ∧ memFields (pk 2 (w 0x107FFFFC ++ h 4 ++ h 0)) = true
    ∧ reaches 0x0802 memWriteDef (pk 2 (w 0x5FFFFC ++ h 8 ++ h 0 ++ w 0 ++ w 0)) up = true
    ∧ memRange 0x5FFFFC 8 = none
    ∧ reaches 0x0802 memWriteDef (pk 2 (w 0x600000 ++ h 4 ++ h 0 ++ w 0)) up = true
    ∧ memRange 0x600000 4 = some (0x600000, 0x6FFFFF, true, false)
    ∧ memFields (pk 2 (w 0x600000 ++ h 4 ++ h 0 ++ w 0)) = true := by decide +kernel

theorem met_TestAndThermalCommandsComplete :
    goes 0x0901 bistConfigDef (pk 2 ([0x48, 1] ++ h 1000 ++ h 10000 ++ h 0)) up = true
    ∧ goes 0x0902 bistRunDef (pk 3 [1, 127, 0, 0]) up = true
    ∧ goes 0x0903 bistResultDef (pk 2 [7, 3, 0, 0]) up = true
    ∧ goes 0x0904 spurAssignDef (pk 2 [0xFF, 0, 0, 0]) up = true
    ∧ goes 0x0A01 thermStatusDef (pk 2 []) up = true
    ∧ goes 0x0A02 thermConfigDef (pk 2 ([0, 3, 0, 0] ++ List.replicate 24 0)) up = true
    ∧ goes 0x0A02 thermConfigDef (pk 2 ([1, 2, 0, 0] ++ List.replicate 68 0)) up = true
    ∧ up.confTakes [2, 3, 4] = true := by decide +kernel

/-- A PWR_STATE to a state, with FORCE or without, woken by LAND or not. -/
def pwrPk (target force : Byte) (wake : Nat) : Pkt := pk 2 ([target, force] ++ h wake ++ w 0 ++ w 0)

/-- An engine in IDLE. -/
def idle : State := { up with pwr := { up.pwr with state := .idle } }

/-- An engine whose step trims run. -/
def trimming : State := { up with pwr := { up.pwr with trimming := true } }

theorem met_PowerCommandsComplete : goes 0x0B01 pwrStateDef (pwrPk 0 0 0) up = true ∧ up.pwrNow = 0
    ∧ goes 0x0B01 pwrStateDef (pwrPk 0 0 0) idle = true ∧ idle.pwrNow = 1
    ∧ goes 0x0B01 pwrStateDef (pwrPk 1 0 0) trimming = true ∧ (lowers (pwrPk 1 0 0) trimming).2 = false
    ∧ goes 0x0B01 pwrStateDef (pwrPk 2 0 1) idle = true ∧ (lowers (pwrPk 2 0 1) idle).2 = true
    ∧ goes 0x0B02 pwrStatusDef (pk 2 (w 1)) up = true := by decide +kernel

/-- An engine with one journal entry. -/
def journaled : State := (up.jAdd { jseq := 0 } false).1

theorem met_JournalCommandsComplete :
    goes 0x0C01 jrnlReadDef (pk 2 (w 0 ++ h 15 ++ h 0)) journaled = true ∧ journaled.jPast 0 = false
    ∧ goes 0x0C01 jrnlReadDef (pk 3 (w 1 ++ h 1 ++ h 0)) journaled = true ∧ journaled.jPast 1 = true
    ∧ goes 0x0C02 jrnlMarkDef (pk 1 (List.replicate 12 0)) up = true
    ∧ goes 0x0C03 stateDigestDef (pk 3 (w 32)) up = true ∧ up.mem.poison = [] := by decide +kernel

/-- A firmware header: MAGIC, VERSION 1, LENGTH 4, the SHA-256 of the bytes 61 62 63 64. -/
def header : List Byte :=
  w 0x464C5056 ++ w 1 ++ w 4 ++ w 0
    ++ [136, 212, 38, 111, 212, 230, 51, 141, 19, 184, 69, 252, 242, 137, 87, 157, 32, 156, 137, 120, 35, 185,
        33, 125, 163, 225, 97, 147, 111, 3, 21, 137] ++ List.replicate 208 0

/-- An engine that stages that header's image, with so many bytes of the body in. -/
def staging (n : Nat) : State :=
  ({ up with nvm := { up.nvm with slotB := .staging, stageHdr := some header, stageNext := n } }).writeMram
    0x10580100 [0x61, 0x62, 0x63, 0x64]

/-- A FW_STAGE of an OP. -/
def stagePk (op : Byte) (len : Nat) (data : List Byte) : Pkt := pk 3 ([op, 0, 0, 0] ++ w 0 ++ w len ++ data)

/-- An engine whose other slot is in a state. -/
def slotted (v : SlotState) : State := { up with nvm := { up.nvm with slotB := v } }

theorem met_FirmwareCommandsComplete :
    goes 0x0C04 fwStageDef ((stagePk 0 256 header).fix 16 0) up = true ∧ up.stageSlot = some 1
    ∧ goes 0x0C04 fwStageDef ((stagePk 1 4 (w 0)).fix 16 1) (staging 0) = true
    ∧ (staging 0).stageSlot = some 1 ∧ ((staging 0).readParts 7 0x10580100 4).2 = true
    ∧ goes 0x0C04 fwStageDef ((stagePk 2 0 []).fix 16 2) (staging 4) = true
    ∧ sha256 ((staging 4).mramBytes 0x10580100 4) = (header.drop 16).take 32
    ∧ (finishReads 1 header (staging 4)).2 = [] ∧ ((staging 4).verifyLines (linesOf 0x10580000 256)).2 = true
    ∧ goes 0x0C04 fwStageDef ((stagePk 3 0 []).fix 16 3) up = true
    ∧ goes 0x0C05 fwActivateDef ((pk 2 (w 2)).fixBit 16 false) (slotted .staged) = true
    ∧ (slotted .staged).slotIn .staged = some 1 ∧ ((slotted .staged).verifySlot 1).2 = true
    ∧ goes 0x0C05 fwActivateDef ((pk 2 (w 0)).fixBit 16 true) (slotted .trial) = true
    ∧ (slotted .trial).slotIn .trial = some 1 := by decide +kernel

/-- An engine with key slot 1 written. -/
def keyed : State := { up with nvm := { up.nvm with keys := [(1, some (List.replicate 16 1))] } }

/-- The same with a session of slot 1 on the SPI port that covers so many rings. -/
def sessioned (rings : Nat) : State :=
  keyed.setSession .spi (some { key := 1, rings := BitVec.ofNat 64 rings, ks := List.replicate 16 2, ctr := some 0 })

/-- An AUTH_OPEN that loads slot 1, less its suffix. -/
def loadPk : Pkt := pk 2 ([1, 1, 0, 0] ++ List.replicate 16 0 ++ List.replicate 16 3)

/-- The same as a covered ring carries it: with CTR 1 and its MAC. -/
def signedPk : Pkt :=
  let p := { loadPk with params := loadPk.params ++ w 1 ++ List.replicate 8 0 }
  { p with params := loadPk.params ++ w 1 ++ packetMac (List.replicate 16 2) 0x0C06 p }

theorem met_SessionCommandsComplete :
    goes 0x0C06 authOpenDef ((pk 2 ([1, 0, 0, 0] ++ List.replicate 32 0)).fix 17 0) keyed = true
    ∧ keyed.keyOf 1 = some (List.replicate 16 1)
    ∧ goes 0x0C06 authOpenDef (loadPk.fix 17 1) up = true ∧ up.keyOf 1 = none
    ∧ goes 0x0C07 authCloseDef (pk 2 []) (sessioned 0) = true := by decide +kernel

theorem met_SessionCommandsComplete_covered :
    goes 0x0C06 authOpenDef (signedPk.fix 17 1) (sessioned (2 ^ 16)) = true := by decide +kernel

/-- An engine whose lane A is in service. -/
def linked : State := up.setLane .a { up.lane .a with stage := .active, everActive := true }

theorem met_LinkCommandsComplete : goes 0x0D01 linkStatusDef (pk 2 []) up = true
    ∧ goes 0x0D02 linkRetrainDef (pk 2 [1, 1, 0, 0]) up = true
    ∧ goes 0x0D03 laneModeDef (pk 2 [1, 0, 0, 0]) linked = true
    ∧ goes 0x0D04 eyeReadDef (pk 3 [0, 0, 0, 0]) linked = true := by decide +kernel

/-- A NODE_SET of node 5 for a serial, to be stored. -/
def nodePk (serial : Nat) : Pkt := pk 2 (leBytes 8 serial ++ h 5 ++ h 1)

/-- A SCHEDULE of a PING at DEVTIME 1,000, ID 1. -/
def schedPk : Pkt := pk 2 ([0, 0] ++ h 1 ++ w 1000 ++ w 0 ++ h 1 ++ h 0)

/-- An engine with no spare sector left, whose lines of the node address and the memberships take no write. -/
def confBroken : State :=
  { up with
    mem := { up.mem with errs := [(confLine 0, .lost), (confLine 1, .lost)] }
    nvm := { up.nvm with spares := (List.range 8).map fun k => (k, 2) } }

/-- A store that fails leaves the address as it was and answers NVM_FAULT. -/
theorem test_store_fails : (execNodeSet (nodePk 0) confBroken |> fun o => match o with
    | .next t => decide (t.grp.node = up.grp.node) && t.nvm.node.isNone
        && decide ((t.jrn.cache.map fun e => (e.state, e.status)) = [(5, 0x0031)])
    | _ => false) = true := by decide +kernel

theorem met_GroupCommandsComplete :
    goes 0x0E01 nodeSetDef (nodePk 0) up = true ∧ serialMeant (nodeSerial (nodePk 0) 16) = true
    ∧ up.confTakes [0, 1] = true
    ∧ confBroken.confTakes [0] = false ∧ confBroken.confTakes [1] = false ∧ confBroken.freeSpare 0 = none
    ∧ passes 0x0E01 nodeSetDef (nodePk 0) confBroken = true
    ∧ passes 0x0E02 groupSetDef (pk 2 (w 1 ++ w 0 ++ w 1 ++ w 0 ++ w 1)) confBroken = true
    ∧ goes 0x0E02 groupSetDef (pk 2 (w 1 ++ w 0 ++ w 1 ++ w 0 ++ w 1)) up = true
    ∧ scheduleRuns (schedPk.fix 16 0) up pingDef = true
    ∧ opPermitted 0x0E03 schedPk.cls = true ∧ replyRing schedPk = 54
    ∧ State.outFree { up with cmd := { up.cmd with reserved := [(54, 240)] } } 54 = 0
    ∧ goes 0x0E03 timedExecDef ((pk 2 (w 1 ++ w 0 ++ w 0 ++ w 0)).fix 16 1) up = true
    ∧ goes 0x0E03 timedExecDef ((pk 2 (w 2 ++ w 0 ++ w 0 ++ w 0)).fix 16 2) up = true
    ∧ goes 0x0E04 groupStatusDef (pk 2 (w 1)) up = true := by decide +kernel

theorem met_GroupCommandsComplete_inner :
    opDef ((ownOf 0x0E03 (schedPk.fix 16 0) up).u16 28) = some pingDef := rfl

theorem met_GroupCommandsComplete_other :
    ∃ n ∈ [1, 2], serialMeant (nodeSerial (nodePk n) 16) = false := by
  have h1 : nodeSerial (nodePk 1) 16 = 1 := by decide +kernel
  have h2 : nodeSerial (nodePk 2) 16 = 2 := by decide +kernel
  by_cases hc : Config.serial.toNat = 1
  · exact ⟨2, by simp, by rw [h2, serialMeant, hc]; decide⟩
  · exact ⟨1, by simp, by rw [h1, serialMeant]; simp; omega⟩

/-! ### What the statements about the block as a whole assume is met -/

theorem met_NothingStopsTheBlock : up.pending = [] := by decide +kernel

theorem met_InvKept : Inv up ∧ step up = .next up :=
  ⟨⟨by decide +kernel, by decide +kernel, by decide +kernel, by decide +kernel, by decide +kernel,
    by decide +kernel, by decide +kernel, by decide +kernel, by decide +kernel, by decide +kernel⟩, rfl⟩

/-- An engine whose class-2 reply ring on SPI has no free slot. -/
def full : State := { up with cmd := { up.cmd with reserved := [(54, 240)] } }

/-- One packet that fails each of steps 5, 7, 8 and 9 of R42, and one that is not authenticated. -/
theorem met_RefusedPacketIsNotExecuted :
    passes 0x0101 objUpdateDef { objPk with flags := 6 } up = false
    ∧ up.canStart objUpdateDef { objPk with flags := 6 } = true
    ∧ passes 0x0007 eventAckDef (pk 2 []) up = false ∧ up.canStart eventAckDef (pk 2 []) = true
    ∧ passes 0x0402 driveStatusDef (pk 2 (w 2)) up = false
    ∧ passes 0x0107 bendSetDef (pk 0 (w 0)) State.reset = false
    ∧ passes 0x0C07 authCloseDef (pk 2 []) (sessioned (2 ^ 16)) = false
    ∧ (∀ op ∈ [0x0101, 0x0007, 0x0402, 0x0C07], up.stepFour op = false) := by decide +kernel

/-- An engine whose CAL_COMMIT is in its step 4. -/
def fourth : State :=
  { building with cmd := { building.cmd with
    jobs := [{ kind := .calCommit 5, opcode := 0x0702, pkt := pk 3 (w 5), jseq := 0, step := 3, writing := true }] } }

theorem met_NoReplyRoomWaits : (pk 2 []).cls ≠ 0 ∧ opPermitted 0x0002 2 = true
    ∧ full.canStart identifyDef (pk 2 []) = false
    ∧ opPermitted 0x0704 2 = true ∧ fourth.stepFour 0x0704 = true ∧ fourth.stepFour 0x0701 = true
    ∧ fourth.stepFour 0x0703 = false := by decide +kernel

/-- An EVENT_ACK with TIMED, at DEVTIME 1,000. -/
def timedPk : Pkt := { pk 2 (w 1000 ++ w 0 ++ w 3) with flags := 0x16 }

theorem met_TimedPacketIsQueued : passesTimed 0x0007 eventAckDef timedPk up = true
    ∧ passesTimed 0x0003 resetDef ({ timedPk with params := w 0 ++ w 0 ++ resetPk.params }.fix 16 2) up = true
    ∧ up.stepFour 0x0007 = false := by decide +kernel

theorem met_FramesOfUntimedPackets : (pk 2 []).timed = false ∧ (pk 0 []).timed = false
    ∧ up.calm = true ∧ (pk 2 []).durable = false := by decide +kernel

theorem met_MemoryIsItsBytes : Memory.wf up.mem = true ∧ twf sramDef [(4, 1), (9, 255)] = true := by
  decide +kernel

theorem met_RepliesSentWhen : (pk 2 []).ackreq = true ∧ { pk 2 [] with flags := 2 }.ackreq = false
    ∧ stSeqGap ≠ stOk ∧ stSeqGap ≠ stAccepted := by decide +kernel

/-- An engine that expects SEQ 1 on rings 0 and 16 of SPI. -/
def expecting : State := (up.expectNext { pk 0 [] with seq := 0 }).expectNext { pk 2 [] with seq := 0 }

/-- Distances 0, 1, 2^31 - 1, 2^31 and 2^32 - 1 on a STRICT ring, 1 on an ADVANCE ring, a group packet,
a ring with nothing expected, and a RING_CONFIG of ring 17. -/
theorem met_SequenceNumbersJudged : expecting.expected (pk 2 []) = some 1 ∧ expecting.expected (pk 0 []) = some 1
    ∧ (pk 2 []).unicast = true ∧ up.expected (pk 2 []) = none ∧ { pk 2 [] with node := 0x8001 }.unicast = false
    ∧ ((2 : Word) - 1).toNat = 1 ∧ ((0x80000000 : Word) - 1).toNat = 2 ^ 31 - 1
    ∧ ((0x80000001 : Word) - 1).toNat = 2 ^ 31 ∧ ((0 : Word) - 1).toNat = 2 ^ 32 - 1
    ∧ (up.ring 16).advance = false ∧ (up.ring 0).advance = true
    ∧ (pk 2 (w 1 ++ [17, 2, 1, 0] ++ w 8)).u16 16 ≠ 0
    ∧ 17 ∈ (ringEntries (pk 2 (w 1 ++ [17, 2, 1, 0] ++ w 8))).map (·.1) := by decide +kernel

/-- A PING as bytes, for a NODE. -/
def arrived (node : Nat) : List Byte := withCrc (h 1 ++ [6, 16] ++ w 1 ++ h node ++ h 0 ++ w 7)

/-- Each kind of NODE: this engine's address, another, all, group 63, a group with NODE[13:6] 1 and 255,
and a group with BCAST. -/
theorem met_AddressingJudged :
    (∀ n ∈ [16383, 0, 0x4000, 0x803F, 0x8040, 0xBFFF, 0xC000], arrivalSound (arrived n) = true)
    ∧ (∀ n ∈ [16383, 0], (packetOf .spi (arrived n)).group = false ∧ (packetOf .spi (arrived n)).bcast = false)
    ∧ (packetOf .spi (arrived 0x4000)).bcast = true ∧ (packetOf .spi (arrived 0x803F)).group = true
    ∧ bits (packetOf .spi (arrived 0x803F)).node.toNat 13 6 = 0
    ∧ bits (packetOf .spi (arrived 0x8040)).node.toNat 13 6 = 1
    ∧ bits (packetOf .spi (arrived 0xBFFF)).node.toNat 13 6 = 255
    ∧ (packetOf .spi (arrived 0xC000)).group = true ∧ (packetOf .spi (arrived 0xC000)).bcast = true := by
  decide +kernel

/-- A record of 32 bytes. -/
def rec32 : Record := { bytes := List.replicate 32 0, src := 16 }

/-- ALERTn through a record that is enabled, and through an unacknowledged event; neither after reset. -/
theorem met_AlertnAsserted : State.reset.alertn = false
    ∧ State.alertn { up with cmd := { up.cmd with out := [(63, [rec32])] } } = true
    ∧ State.alertn { up with cmd := { up.cmd with out := [(54, [rec32])] } } = false
    ∧ State.alertn { up with cmd := { up.cmd with unack := [3] } } = true := by decide +kernel

/-- A severity-3 event on both ports with room, and one whose SPI ring is full. -/
theorem met_EventsRaised : up.flag pEventPorts 0 = true ∧ up.flag pEventPorts 1 = true
    ∧ 1 ≤ up.outFree 59 ∧ 1 ≤ up.outFree 63
    ∧ State.outFree { up with cmd := { up.cmd with reserved := [(63, 240)] } } 63 = 0 := by decide +kernel

theorem met_JournalSequence : up.jrn.newest = none ∧ journaled.jrn.newest = some 0
    ∧ (State.jAdd { up with jrn := { up.jrn with newest := some 0xFFFFFFFE } } { jseq := 0 } false).2 = 0
    ∧ (State.jAdd { up with jrn := { up.jrn with newest := some 0xFFFFFFFD } } { jseq := 0 } false).2 = 0xFFFFFFFE := by
  decide +kernel

theorem met_ChecksumContinues : ((arrived 0).take 16).length = 16
    ∧ ofLe ((((arrived 0).take 16).drop 10).take 2) = 0 ∧ bitOf (byteAt ((arrived 0).take 16) 2).toNat 7 = false := by
  decide +kernel

theorem met_LineCodingRoundTrip : (State.reset.lane .a).retBseq < 8 ∧ (List.replicate 28 (5 : Byte)).length ≤ 28 := by
  decide +kernel

theorem met_DitherHoldsIntensity : bitOf 1 0 = true ∧ (65535 : Nat) ≤ 65535 := by
  decide +kernel

theorem met_NodeAndGroups : up.confTakes [0, 1] = true ∧ serialMeant (nodeSerial (nodePk 0) (if (nodePk 0).timed then 24 else 16)) = true
    ∧ passes 0x0E01 nodeSetDef (nodePk 0) up = true
    ∧ passes 0x0E02 groupSetDef (pk 2 (w 0 ++ w 0x80000000 ++ w 0 ++ w 0x80000000 ++ w 0)) up = true := by
  decide +kernel

theorem met_SessionsEnd : passes 0x0C07 authCloseDef (pk 2 []) (sessioned 0) = true
    ∧ passes 0x0C06 authOpenDef ((pk 2 ([1, 0, 0, 0] ++ List.replicate 32 0)).fix 17 0) (sessioned 0) = true := by
  decide +kernel

theorem met_FallbackEnterNeverLightens :
    (∀ k : Fin 3, passes 0x0105 fallbackEnterDef
      (pk 0 ([BitVec.ofNat 8 k.val, 0] ++ h 1 ++ w (if k.val = 2 then 0x4441524B else 0))) up = true)
    ∧ up.pwr.nego = none := by decide +kernel

/-! ### What the statements about events assume is met, each with no time passed -/

/-- The state with no time passed. -/
def now (s : State) : State := s.elapse 0

/-- An engine both of whose lanes are in service, in a lane mode, with a record in a ring. -/
def duplex (mode r : Nat) : State :=
  let s := ({ linked with cmd := { linked.cmd with out := [(r, [rec32])] } }).setLive pLinkCtrl mode
  s.setLane .b { s.lane .b with stage := .active, everActive := true }

/-- The same with an error in the line of that record. -/
def marredHead (mode r : Nat) : State :=
  let s := duplex mode r
  { s with mem := { s.mem with errs := [(s.ringBase r, .lost)] } }

theorem met_PortsComplete :
    (let u := ((duplex 1 48).elapse 0).lines
     u.admits .a && returnOpen (u.lane .a) && !u.mirror
       && decide ((State.firstRecord linkRings u).2 = some (48, rec32))) = true
    ∧ (let u := ((duplex 0 59).elapse 0).lines
       u.admits .a && returnOpen (u.lane .a) && u.mirror && returnOpen (u.lane (partner .a))
         && decide ((State.firstRecord linkRings u).2 = some (59, rec32))) = true
    ∧ (let u := now (duplex 0 63)
       u.spiOn && decide (u.readRing 63 = some 63) && decide (u.readRing 0xFF = some 63)
         && decide ((u.outHead 63).2 = some rec32) && decide (rec32.bytes.length ≤ 32)
         && decide (31 < rec32.bytes.length)) = true
    ∧ (let u := now (duplex 0 62)
       u.spiOn && decide (u.readRing 63 = some 63) && (u.outHead 63).2.isNone) = true
    ∧ ((now (marredHead 0 63)).outHead 63).2 = none := by decide +kernel

/-- Waiting packets of class 0 and of class 2. -/
def waits (cls : Nat) : Waiting := { opcode := 1, pkt := pk cls [] }

/-- A timed PING of class 2, released, and one of class 1 that is due. -/
def entry (cls : Nat) (released : Bool) : Timed :=
  { id := 1, strict := false, time := 0, opcode := 1, pkt := pk cls [], jseq := 0, released := released }

/-- An engine with packets, timed entries and jobs waiting. -/
def busy (l : List Waiting) (q : List Timed) (b : List Job) : State :=
  { up with
    cmd := { up.cmd with waiting := l, jobs := b, c0Open := some { count := 65, largest := 4, first := 0 } }
    grp := { up.grp with queue := q } }

/-- A CAL_COMMIT under way. -/
def commitJob : Job := { kind := .calCommit 5, opcode := 0x0702, pkt := pk 3 (w 5), jseq := 0 }

theorem met_SequencerComplete :
    (let u := now (busy [waits 2, waits 0] [] [])
     u.seqClocked && !u.pwr.linkOff
       && decide ((u.cmd.waiting.find? fun x => decide (x.pkt.cls = 0)) = some (waits 0))) = true
    ∧ (let u := now (busy [] [entry 2 true] [])
       u.cmd.serving && u.seqRuns && !u.pwr.linkOff && decide (u.pickClass = some 2)
         && decide (u.nextTimed 2 = some (entry 2 true))) = true
    ∧ (let u := now (busy [waits 2] [] [])
       u.cmd.serving && u.seqRuns && !u.pwr.linkOff && decide (u.pickClass = some 2)
         && (u.nextTimed 2).isNone && decide (u.nextRing 2 = some 16)
         && decide (u.ringHead 16 = some (waits 2))) = true
    ∧ (let u := now (busy [] [] [commitJob])
       u.cmd.serving && u.seqRuns && decide (u.cmd.jobs.find? u.stepReady = some commitJob)) = true
    ∧ (now (busy [] [] [])).cmd.c0Open.isSome = true
    ∧ (let u := now (busy [] [entry 1 false] [])
       u.frm.running && decide (u.pwr.time ≠ .invalid) && decide (u.pwr.time ≠ .unset)) = true
    ∧ (now (busy [] [entry 1 false] [])).dueNow (entry 1 false) = true := by decide +kernel

/-- The lines of a packet at the head of ring 16, and what reading them finds in a state. -/
def headLines (u : State) : List Nat := u.ringLines 16 (u.headSlot 16) (pktSlots (pk 2 []))

/-- The packet at the head can be read; its first line cannot; only its second line, of two, cannot. -/
theorem met_SequencerComplete_lines :
    (let u := now (busy [waits 2] [] [])
     (u.ringsWritten.readEach 10 (headLines u)).2 = []) ∧
    (let u := (now (busy [waits 2] [] [])).arise ((headLines (busy [waits 2] [] [])).map fun a => (a, LineRead.lost))
     ((headLines u).headD 0 ∈ (u.ringsWritten.readEach 10 (headLines u)).2)) ∧
    (let big := pk 2 (List.replicate 64 0)
     let u := now (busy [{ opcode := 1, pkt := big }] [] [])
     let l := u.ringLines 16 (u.headSlot 16) (pktSlots big)
     let v := u.arise ((l.drop 1).map fun a => (a, LineRead.lost))
     (v.ringsWritten.readEach 10 l).2 ≠ [] ∧ l.headD 0 ∉ (v.ringsWritten.readEach 10 l).2) := by decide +kernel

/-- An engine that computes a pass for tile 3, pixel output on or off. -/
def scanning (off : Bool) : State :=
  { up with
    comp := { up.comp with passes := [(3, { g := 48, sub := 0, index := 0, slot := 0 })] }
    pwr := { up.pwr with pixOff := off } }

theorem met_PassAndSlotEventsComplete :
    ((now (scanning false)).comp.passes.find? fun x => decide (x.1 = 3)).isSome = true
    ∧ (now (scanning false)).frm.running = true ∧ (now (scanning true)).frm.running = true
    ∧ (List.replicate 16 (0 : Nat)).length = 16 ∧ (List.replicate 64 (0 : Nat)).length = 64 := by decide +kernel

/-- An engine in limp whose next sub-frame is a frame's first, on the way to fallback. -/
def leaving : State :=
  { up with
    diag := { up.diag with safe := 3 }
    frm := { up.frm with ret := some .limpToFallback, index := 15 } }

/-- An engine that changes its timing through a bridge that is not yet placed, copies a frame and a bank. -/
def changing : State :=
  { up with
    frm := { up.frm with change := some { next := {}, bridge := true }, copying := some (1, 2, 3), state := .switching }
    comp := { up.comp with lutCopying := true } }

theorem met_FrameEventsComplete :
    ((now up).plansNow && !(decide ((now up).frm.ret = some .limpToFallback) && (now up).seamNext)) = true
    ∧ ((now leaving).plansNow && decide ((now leaving).frm.ret = some .limpToFallback)
      && (now leaving).seamNext) = true
    ∧ ((now up).frm.running && (now up).frm.seam.isNone) = true
    ∧ (now up).formSeam.frm.seam.isSome = true ∧ (now up.formSeam).frm.seam.isSome = true
    ∧ (now up).frm.state = .locked ∧ (now changing).frm.change.isSome = true
    ∧ (match (now changing).frm.change with | some c => c.bridge && !c.fixed | none => false) = true
    ∧ (now up).flag pSyncCtrl 2 = false ∧ (now (up.setLive pSyncCtrl 4)).flag pSyncCtrl 2 = true
    ∧ (now changing).frm.copying = some (1, 2, 3) ∧ (now changing).comp.lutCopying = true := by decide +kernel

/-- An engine in fallback whose check has ended, with so many row-groups loaded. -/
def checking (loaded : List Nat) : State :=
  { up with
    diag := { up.diag with safe := 2 }
    frm := { up.frm with sub := 40 }
    comp := { up.comp with fbCheck := { running := true, endSub := 39, loaded := loaded } } }

/-- An engine whose host has been stale for exactly HOST_STALE, and whose limp loader reads. -/
def stale : State :=
  { up with
    clk := 200000000
    frm := { up.frm with staleStart := some 0 }
    comp := { up.comp with limp := { up.comp.limp with stage := .reading } } }

theorem met_SafeStateEventsComplete :
    (decide ((now up).pwr.boot = .up) && decide ((now up).pwr.state = .active)) = true
    ∧ (decide (11 * (now up).tripBudget ≤ 10 * 8800) && (now up).frm.running && decide ((now up).diag.safe ≠ 4)) = true
    ∧ (decide ((now stale).frm.staleStart = some 0) && decide ((now stale).pwr.state = .active)
      && decide ((now stale).live pHostStale ≠ 0)
      && decide ((now stale).live pHostStale * 1000000 ≤ (now stale).clk - 0)) = true
    ∧ (let u := now (checking (List.range 256))
       decide (u.diag.safe = 2) && u.comp.fbCheck.running && decide (u.comp.fbCheck.endSub < u.frm.sub)
         && u.fbFailed.isEmpty) = true
    ∧ (let u := now (checking (List.range 255))
       decide (u.diag.safe = 2) && u.comp.fbCheck.running && decide (u.comp.fbCheck.endSub < u.frm.sub)
         && !u.fbFailed.isEmpty) = true
    ∧ (now stale).comp.limp.stage = .reading := by decide +kernel

/-- An engine with lane A in a stage, after so many tries of CAPS, and its directions at sleep levels. -/
def lane (st : Stage) (tries : Nat) (fwd ret : SleepL) : State :=
  up.setLane .a { up.lane .a with stage := st, tries := tries, fwd := fwd, ret := ret }

/-- A state at a command of the lanes: with what their streams have carried meanwhile, no time passed. -/
def nowLanes (s : State) : State := (s.elapse 0).lines

theorem met_LaneTrainingEventsComplete :
    (let u := nowLanes up; u.laneRuns .a && decide ((u.lane .a).stage = .detect)) = true
    ∧ (let u := nowLanes (lane .train 0 .l0 .l0)
       u.adaptEnds (u.lane .a) found && !(u.lane .a).rxReady
         && decide ((u.lane .a).stage = .train) && !u.marked 17) = true
    ∧ (let u := nowLanes (lane .active 0 .l2 .l0)
       u.adaptEnds (u.lane .a) found && !(u.lane .a).rxReady
         && decide ((u.lane .a).stage = .active) && decide ((u.lane .a).fwd = .l2)) = true
    ∧ ((nowLanes (lane .lock 0 .l0 .l0)).lane .a).stage = .lock
    ∧ (let u := nowLanes (lane .caps 2 .l0 .l0)
       decide ((u.lane .a).stage = .caps) && decide (3 ≤ (u.lane .a).tries + 1)) = true
    ∧ (let u := nowLanes (lane .caps 1 .l0 .l0)
       decide ((u.lane .a).stage = .caps) && decide ((u.lane .a).tries + 1 < 3)) = true
    ∧ (let u := nowLanes linked; (u.lane .a).up && decide ((u.lane .a).fwd = .l0)) = true := by decide +kernel

/-- Lane A in service with its return at a sleep level, a record waiting or not, RET_SLEEP at a policy. -/
def asleep (ret : SleepL) (out : Tab (List Record)) (pol : Nat) : State :=
  State.setLive { lane .active 0 .l0 ret with cmd := { up.cmd with out := out } } pRetSleep pol

theorem met_LaneServiceEventsComplete :
    (let u := nowLanes linked
     decide ((u.lane .a).stage = .active) && decide ((u.lane .a).fwd = .l0)
       && decide (u.fld pRichMin 7 0 ≤ 255) && decide (u.fld pRichMin 15 8 ≤ 255)
       && decide (0 < u.fld pRichMin 7 0)) = true
    ∧ (let u := nowLanes (lane .active 0 .l2 .l0)
       decide ((u.lane .a).stage = .active) && decide ((u.lane .a).fwd = .l2) && !u.pwr.linkOff) = true
    ∧ (∀ pol ∈ [1, 2], let u := nowLanes (asleep .l0 [] pol)
       (decide ((u.lane .a).stage = .active) && decide ((u.lane .a).ret = .l0) && !(u.lane .a).retTrain
         && !u.recordWaits && decide (u.fld pRetSleep 1 0 = pol)) = true)
    ∧ (let u := nowLanes (asleep .l1 [(48, [rec32])] 1)
       decide ((u.lane .a).stage = .active) && u.recordWaits && !(u.lane .a).retTrain
         && decide (u.pwr.state ≠ .standby) && decide ((u.lane .a).ret = .l1)) = true
    ∧ (let u := nowLanes (asleep .l2 [] 0)
       decide ((u.lane .a).stage = .active) && !u.recordWaits && decide (u.fld pRetSleep 1 0 = 0)
         && !(u.lane .a).retTrain && decide (u.pwr.state ≠ .standby) && decide ((u.lane .a).ret = .l2)) = true
    ∧ (let u := nowLanes (asleep .l2 [(48, [rec32])] 2)
       decide ((u.lane .a).stage = .active) && u.recordWaits && !(u.lane .a).retTrain
         && decide (u.pwr.state ≠ .standby) && decide ((u.lane .a).ret = .l2)) = true
    ∧ (let u := nowLanes (linked.setLane .a { linked.lane .a with retTrain := true })
       decide ((u.lane .a).stage = .active) && (u.lane .a).retTrain) = true := by decide +kernel

/-- An engine whose channel 3 drives 16 positions. -/
def strung : State := up.modChan 3 fun c => { c with
  en := true, count := 16, pos := [(15, { before := some (0, 0), lit := some (0, 0) })] }

theorem met_StringEventsComplete : (now up).frm.running = true
    ∧ (let u := now strung
       (u.chan 3).en && decide (15 < (u.chan 3).count) && !((u.chan 3).at_ 15).opened
         && ((u.chan 3).at_ 15).isOpen 15 u.strStep && decide (u.vOpenMv < 25600)) = true := by decide +kernel

/-- An engine whose monitors run, at a thermal level and a temperature, TF below its target. -/
def monitored (level : Nat) (t : Int) (bad : Bool) : State :=
  { up with thm := { up.thm with
    started := true, level := level, tTh := t, coolSince := some 0, tf := 100, tfTarget := 4096, factoryBad := bad } }

theorem met_ThermalEventsComplete :
    (let u := now (monitored 0 0 false)
     u.monitors && decide (4095 < 4096) && !u.substituting && decide (u.thm.tf < u.thm.tfTarget)
       && !u.thm.factoryBad) = true
    ∧ (let u := { monitored 3 (-400) false with clk := 10 ^ 9 }.elapse 0
       decide (3 ≤ u.thm.level) && u.coolFor1s) = true
    ∧ (let u := now (monitored 0 0 true); u.monitors && u.thm.factoryBad) = true := by decide +kernel

/-- An engine with an open class-0 window. -/
def windowed : State :=
  { up with jrn := { up.jrn with windows :=
    [{ port := .spi, ring := 7, jseq := 0, crc := 0, opened := 0, lenMs := 0 }] } }

theorem met_MemoryEventsComplete :
    (let u := now up; u.talusOn && u.flag pScrubCtrl 0 && u.flag pScrubCtrl 1 && !u.thm.jInhibit) = true
    ∧ ((now windowed).jrn.windows.find? fun x => decide (x.port = .spi) && decide (x.ring = 7)).any
      (fun w => (now windowed).windowOver w) = true := by
  decide +kernel

/-- An engine that tests a target, or migrates a bank. -/
def sliced (ty tg : Nat) : State := { up with bist := { up.bist with slice := some (ty, tg), migrating := some 23 } }

theorem met_SelfTestEventsComplete : (now (sliced 1 127)).bist.slice = some (1, 127)
    ∧ (now (sliced 4 0)).bist.slice = some (4, 0) ∧ (now (sliced 4 0)).bist.migrating = some 23 := by
  decide +kernel

/-- An engine in a stage of power-up, with a supply trip or without. -/
def booting (b : Boot) (trip : Option (Rail × Nat)) : State :=
  { up with pwr := { up.pwr with boot := b, supply := trip } }

theorem met_ResetEventsComplete :
    (let u := now up; decide (u.pwr.state ≠ .dormant) && !u.supplyHolds && decide (u.pwr.boot ≠ .held)) = true
    ∧ (let u := now (booting .held none)
       decide (u.pwr.state ≠ .dormant) && !u.supplyHolds && decide (u.pwr.boot = .held)) = true
    ∧ (let u := now (booting .held (some (.vcore, 0)))
       decide (u.pwr.supply = some (.vcore, 0)) && u.supplyHolds) = true
    ∧ (∀ b ∈ [Boot.regulator, .oscillator, .memory, .logic], stageOf (now (booting b none)).pwr.boot ≠ 0)
    ∧ (let u := now (booting .trims none)
       (decide (u.pwr.boot = .trims) || u.pwr.trimming) && decide (u.pwr.state = .active) && !u.fw.noImage) = true
    ∧ tapHolds 0 = true ∧ tapHolds 2 = false ∧ (now up).tapHold = false
    ∧ (now { up with tapHold := true }).tapHold = true := by decide +kernel

/-- A negotiation all of whose blocks have quiesced. -/
def nego : Nego :=
  { target := 2, force := false, wakeAct := false, wakeEn := 1, burst := false, timerMs := 0, block := 9
    opcode := 0x0B01, pkt := pwrPk 2 0 1, jseq := 0, gap := false }

theorem met_PowerEventsComplete :
    (let u := now up
     u.pwr.oscLost.isNone && u.logicUp && decide (u.pwr.state ≠ .dormant) && decide (u.pwr.state = .active)
       && decide (u.pwr.boot ≠ .held) && decide (u.pwr.boot ≠ .regulator) && decide (u.pwr.boot ≠ .oscillator)) = true
    ∧ (now { up with pwr := { up.pwr with oscLost := some 0 } }).pwr.oscLost.isSome = true
    ∧ (now { up with pwr := { up.pwr with nego := some nego } }).pwr.nego = some nego ∧ nego.block = 9 := by
  decide +kernel

/-- A wake burst of R329, each interval at an end of its range. -/
def burst : List Envelope :=
  [⟨true, true, 20000⟩, ⟨false, false, 200000⟩, ⟨true, true, 200000⟩, ⟨false, false, 20000⟩, ⟨true, true, 20000⟩,
    ⟨false, false, 20000⟩]

/-- An engine that wakes on the burst only. -/
def wakesOnBurst : State := { up with pwr := { up.pwr with burst := true } }

/-- An envelope of 1 us wakes in WAKE_MODE 0, none of 999 ns; in WAKE_MODE 1 the burst does, also after an
interval that is too long; not with its third off-interval missing, too short, or one of its on-intervals without
alternation. -/
theorem met_PowerEventsComplete_wakes : (now up).laneHeard [⟨true, false, 1000⟩] = true
    ∧ (now up).laneHeard [⟨true, false, 999⟩] = false
    ∧ (now wakesOnBurst).laneHeard burst = true ∧ (now wakesOnBurst).laneHeard (burst.take 3 ++ ⟨false, false, 200001⟩ :: burst) = true
    ∧ (now wakesOnBurst).laneHeard (burst.take 5) = false
    ∧ (now wakesOnBurst).laneHeard (burst.take 5 ++ [⟨false, false, 19999⟩]) = false
    ∧ (now wakesOnBurst).laneHeard (⟨true, false, 20000⟩ :: burst.drop 1) = false := by decide +kernel

/-- An engine whose restart is held, whose recovery waits, whose pipeline and image are being checked. -/
def recovering (till : Option Nat) : State :=
  { up with
    jrn := { up.jrn with holdTill := till, recover := true, pipeBusy := true }
    fw := { up.fw with selfCheck := true } }

theorem met_RecoveryEventsComplete : (now up).seqRuns = true ∧ regionOf 0x10500000 ≠ 8 ∧ regionOf 0xA00000 = 8
    ∧ (now (recovering (some 0))).holdOver = true
    ∧ (let u := now (recovering none)
       u.jrn.recover && u.seqRuns && !u.fw.noImage && !u.fw.starting && u.jrn.pipeBusy && u.fw.selfCheck) = true := by
  decide +kernel

/-! ### Worked examples of the manual -/

/-- Land 1 at (-19.8, 13.8) mm (R377), and the group counts that R379 gives. -/
theorem test_lands : landCentre 1 = some (-198, 138) ∧ landCentre 412 = some (-190, -66)
    ∧ (let count := fun (x : Land) => ((List.range 413).filter fun n => landOf n = some x).length
       [count .vled, count .pgnd, count .vcore, count .gnd, count .vpix, count .vio, count .vstr, count .rsv]
         = [56, 64, 24, 40 + 8 + 4 + 16, 12, 4, 4, 64])
    ∧ landOf 242 = some (.sw 31) ∧ landOf 301 = some (.sw 48) := by decide +kernel

/-- The boundary register: 66 cells, those of land 2 nearest TDO (R400). -/
theorem test_boundary : 3 * boundaryLands.length = TapReg.boundary.length ∧ boundaryBit 2 .input = some 0
    ∧ boundaryBit 193 .enable = some 65 ∧ tapSelects 4 = .bypass ∧ tapSelects 31 = .bypass := by decide +kernel

/-- The pixel (1,300, 270): tile T13, row-group 208 (00_scope.md R10); limp slot 16 (R73). -/
theorem test_geometry : tileOf 1300 270 = 13 ∧ limpSlot 208 = 16 := by decide +kernel

/-- R78: at E = 9,990 and N = 16 the code is 625 in sub-frames 0, 2, 4, 8, 10 and 12, else 624. -/
theorem test_dither : (List.range 16).map (fun k => ditherCode 1 16 k 1300 270 40000)
    = [625, 624, 625, 624, 625, 624, 624, 624, 625, 624, 625, 624, 625, 624, 624, 624] := by decide +kernel

/-- The scene bytes of the composition example, by column and row. -/
def texels (i j : Nat) : Nat :=
  if j = 59 then (if i = 184 then 199 else 200) else if i = 184 then 208 else 216

/-- 04_composition.md, worked example: stages 1 to 5 of a pixel. -/
theorem test_composition : sceneAt texels 739 241 = 44282 ∧ sceneAt (fun _ _ => 160) 739 241 = 25801
    ∧ mixOf 44282 25801 64 = 39662 ∧ levelOf 39662 4096 = 39662
    ∧ raise3 1 512 4096 (39662, 0, 0) = (44619, 0, 0) ∧ flux3 202 (44619, 0, 0) = (40000, 0, 0) := by
  decide +kernel

/-- R115: the limp code of a scene byte 180 at gain 230 and LIMP_LEVEL 3,072. -/
theorem test_limp_code : limpCode 180 230 3072 = 364 := by decide +kernel

/-- The OBJ_UPDATE packet of 05_shadowing.md, less its trailer. -/
def carBytes : List Byte :=
  [0x01, 0x01, 0x04, 0x00, 0x10, 0x1A, 0x00, 0x00, 0x05, 0x00, 0x11, 0x00, 0x43, 0x00, 0x00, 0x00,
   0x01, 0x00, 0x00, 0x00, 0x0C, 0x00, 0x00, 0x00, 0x00, 0xB4, 0x04, 0x00, 0x00, 0x06, 0x01, 0x00,
   0x00, 0x06, 0x00, 0x00, 0x00, 0x14, 0x00, 0x00, 0xC0, 0xFF, 0x00, 0x00, 0x00, 0x00, 0x00, 0x00,
   0x40, 0x4B, 0x4C, 0x00, 0x00, 0x00, 0x80, 0x01, 0x00, 0x04, 0x00, 0x00, 0x64, 0x00, 0x40, 0x00,
   0x90, 0x01, 0x00, 0x08, 0x11, 0x03, 0x00, 0x00, 0x00, 0x00, 0x00, 0x00, 0x00, 0x00, 0x00, 0x00,
   0x00, 0x00, 0x00, 0x00]

/-- Its context. -/
def car : ObjCtx := entryCtx (packetOf .link (withCrc carBytes)) 20

/-- Its box at the emission instants of the example, and the ceilings of three pixels. -/
theorem test_shadow_extrapolation :
    emissionUs 5040691731 520833333 21 0 = 5040950 ∧
    boxOf car 5040950 true 0 0 = { x := 305603, y := 67072, hw := 1920, hh := 5504 }
    ∧ boxOf car 5160000 true 0 0 = { x := 301824, y := 67072, hw := 3968, hh := 7552 }
    ∧ (let b := boxOf car 5040950 true 0 0
       ctxCeiling car b 1190 262 = 0 ∧ ctxCeiling car b 1203 262 = 36671 ∧ ctxCeiling car b 1206 262 = 65535) := by
  decide +kernel

/-- An engine at that DEVTIME takes the packet, and the context stands as the example gives it. -/
theorem test_obj_update : (match exec (.objUpdate (packetOf .link (withCrc carBytes)))
      { up with pwr := { up.pwr with devtime := 5040150000 } } with
    | .next t => decide ((t.ctx 12).active = true) && decide ((t.ctx 12).vx = -64)
        && decide ((t.ctx 12).tCap = 5000000) && decide (t.activeCount = 1)
    | _ => false) = true := by decide +kernel

/-- 02_command_model.md, PARAM_SET: the packet, less its trailer. -/
def alertBytes : List Byte :=
  [0x05, 0x00, 0x06, 0x10, 0x23, 0x01, 0x00, 0x00, 0x05, 0x00, 0x03, 0x00, 0x01, 0x00, 0xFE, 0xCA,
   0x01, 0x00, 0x00, 0x00, 0x02, 0x00, 0x00, 0x00, 0xF0, 0xF0, 0x00, 0x00]

/-- Its reply, less its trailer. -/
def alertReply : List Byte :=
  [0x05, 0x00, 0x82, 0x36, 0x23, 0x01, 0x00, 0x00, 0x05, 0x00, 0x01, 0x00, 0x01, 0x00, 0xFE, 0xCA,
   0x00, 0x00, 0x01, 0x00, 0x01, 0x00, 0x00, 0x00, 0x17, 0x2A, 0x00, 0x00, 0x01, 0x00, 0xFF, 0xFF]

/-- An engine at node 5 whose newest journal entry is 0x2A16, with BUDGET 7,000. -/
def node5 : State :=
  ({ up with
    grp := { up.grp with node := 5 }
    jrn := { up.jrn with newest := some 0x2A16 } }).setLive pBudget 7000

/-- The packet arrives on SPI, is served, and the reply in ring 54 is the example's, byte for byte. -/
theorem test_param_set_reply : (match exec (.pktWrite 0 (withCrc alertBytes)) node5 with
    | .next t => (match exec (.sequencerTake 0 []) t with
      | .next u => decide (u.outRing 54 = [{ bytes := withCrc alertReply, src := 16 }])
          && decide (u.live pAlertMask = 0xF0F0) && decide (u.cmd.waiting = [])
      | _ => false)
    | _ => false) = true := by decide +kernel

/-- 06_saddle.md, BUDGET_SET: the packet, less its trailer, and the first two result words. -/
theorem test_budget_set : (match exec (.budgetSet (packetOf .spi (withCrc
      [0x03, 0x04, 0x06, 0x10, 0x24, 0x01, 0x00, 0x00, 0x05, 0x00, 0x02, 0x00, 0x01, 0x08, 0x00, 0x00,
       0x64, 0x19, 0x00, 0x00, 0xFF, 0xFF, 0x00, 0x00]))) node5 with
    | .next t => decide ((t.outRing 54).map (fun r => ofLe ((r.bytes.drop 28).take 4)) = [0x19641B58])
        && decide (t.live pBudget = 6500) && decide (t.live pGuard = node5.live pGuard)
        && decide (t.tripBudget = 7000)
    | _ => false) = true := by decide +kernel

/-- 10_pixel_diagnostics_safe_state.md, PIXEL_MASK: eight pixels newly masked. -/
theorem test_pixel_mask : (match exec (.pixelMask (packetOf .spi (withCrc
      [0x03, 0x06, 0x06, 0x10, 0x30, 0x01, 0x00, 0x00, 0x05, 0x00, 0x03, 0x00, 0x01, 0x09, 0x00, 0x00,
       0x01, 0x00, 0x00, 0x04, 0x64, 0x00, 0x03, 0x04, 0x65, 0x00, 0x00, 0x00]))) node5 with
    | .next t => decide ((t.outRing 54).map (fun r => ofLe ((r.bytes.drop 28).take 4)) = [8])
        && decide (ofLe (((t.outRing 54).map (fun r => (r.bytes.drop 16).take 2)).flatten) = stOk)
    | _ => false) = true := by decide +kernel

/-- 03_pixel_drive.md, TILE_REF_SET: T5 and T13 to REF 639, and COMMIT. -/
theorem test_tile_ref_set : (match exec (.tileRefSet (packetOf .spi (withCrc
      [0x01, 0x04, 0x05, 0x08, 0x40, 0x00, 0x00, 0x00, 0x05, 0x00, 0x09, 0x00, 0x77, 0x07, 0x00, 0x00,
       0x20, 0x20, 0x01, 0x00, 0x00, 0x00, 0x00, 0x00, 0x00, 0x00, 0x00, 0x00, 0x00, 0x00, 0x7F, 0x02,
       0x00, 0x00, 0x00, 0x00, 0x00, 0x00, 0x00, 0x00, 0x00, 0x00, 0x00, 0x00, 0x00, 0x00, 0x7F, 0x02,
       0x00, 0x00, 0x00, 0x00]))) node5 with
    | .next t => decide (t.shadow (pTileRef + 5) = 639) && decide (t.shadow (pTileRef + 13) = 639)
        && t.prm.commit && decide ((t.outRing 53).map (fun r => ofLe ((r.bytes.drop 28).take 4)) = [0x2020])
    | _ => false) = true := by decide +kernel

/-- 04_composition.md, BEND_SET: a shift of -24 and +3; BEND_STEP 4 brings DX there at the sixth notch
end and DY at the first. -/
theorem test_bend_set : (match exec (.bendSet (packetOf .link (withCrc
      [0x07, 0x01, 0x04, 0x00, 0x00, 0x1A, 0x00, 0x00, 0x05, 0x00, 0x01, 0x00, 0x42, 0x00, 0x00, 0x00,
       0xE8, 0xFF, 0x03, 0x00]))) node5 with
    | .next t => decide (t.comp.bendX = -24) && decide (t.comp.bendY = 3)
    | _ => false) = true
    ∧ bendMove 4 0 3 = 3 ∧ bendMove 4 (-16) (-24) = -20 ∧ bendMove 4 (-20) (-24) = -24 := by decide +kernel

/-- 06_saddle.md: stage 6 of a base pixel at f_b 3,780 leaves 36,914 and 9,228. -/
theorem test_stage_six : 40000 * (classFactors 11972).1 / 4096 = 36914
    ∧ 10000 * (classFactors 11972).1 / 4096 = 9228 ∧ classFactors 11972 = (3780, 4096, 4096) := by decide +kernel

/-- 07_plokam_link.md: the precoder of R160 and the header of R163. -/
theorem test_line_code : precode 0 [1, 3, 1, 1] = [1, 2, 3, 2] ∧ unprecode 0 [1, 2, 3, 2] = [1, 3, 1, 1]
    ∧ byteAt (blockBytes 5 1 true []) 0 = 0x59 := by decide +kernel

/-- 09_strings_crest.md: FB_CODE, and the edges of position 2 in two periods (R217): it opens at 128 and
closes at 388, then at 378. -/
theorem test_string_edges :
    ({ iSet := 700, fsMa := 1500, d := 4096 } : Channel).fb = 477
    ∧ (let s := { up.setLive pStrCtrl 0 with frm := { up.frm with running := true } }
       let c : Channel := { en := true, count := 7, pos := [(2, { entry := { level := 255 } }), (6, { entry := { level := 300 } })] }
       let a := s.placeEdges c
       let b := s.placeEdges a.1
       (a.1.at_ 2).lit = some (128, 388) ∧ (a.1.at_ 2).residue = 5 ∧ a.2 = 1
         ∧ (b.1.at_ 2).lit = some (128, 378) ∧ (b.1.at_ 2).residue = 0) := by decide +kernel

/-- 08_frames_sync_seam.md: the bridge of the example, S at 0 and L_new 3,000 us later. -/
theorem test_bridge : (let c := up.fixChange { next := {}, bridge := true } 3000000
    (c.oldSubs, c.bridgePs / 1000, c.sAt, c.lNew)) = (4, 916666, 8333333, 11333333) := by decide +kernel

/-- 12_memory_integrity.md and R40: the check values of the published algorithms (CRC-32 and CRC-16 of 123456789;
SHA-256 of abcd; AES-128 of FIPS 197; AES-CMAC of RFC 4493, examples 1 and 2). -/
theorem test_check_values : crc32 nineDigits = 0xCBF43926
    ∧ crcOf 16 0x1021 0xFFFF false false 0 nineDigits = 0x29B1
    ∧ (CvuRun.ok { mode := 0, elem := 4096, addr := 0x200000, stride := 4096, count := 512, expect := 0, dest := 0 })
      = true
    ∧ sha256 [0x61, 0x62, 0x63, 0x64] = (header.drop 16).take 32
    ∧ aesEnc (List.range 16) ((List.range 16).map (17 * ·))
      = [0x69, 0xc4, 0xe0, 0xd8, 0x6a, 0x7b, 0x04, 0x30, 0xd8, 0xcd, 0xb7, 0x80, 0x70, 0xb4, 0xc5, 0x5a] := by
  decide +kernel

/-- The key of RFC 4493. -/
def rfcKey : List Byte :=
  [0x2b, 0x7e, 0x15, 0x16, 0x28, 0xae, 0xd2, 0xa6, 0xab, 0xf7, 0x15, 0x88, 0x09, 0xcf, 0x4f, 0x3c]

theorem test_cmac : cmac rfcKey []
      = [0xbb, 0x1d, 0x69, 0x29, 0xe9, 0x59, 0x37, 0x28, 0x7f, 0xa3, 0x7d, 0x12, 0x9b, 0x75, 0x67, 0x46]
    ∧ cmac rfcKey [0x6b, 0xc1, 0xbe, 0xe2, 0x2e, 0x40, 0x9f, 0x96, 0xe9, 0x3d, 0x7e, 0x11, 0x73, 0x93, 0x17, 0x2a]
      = [0x07, 0x0a, 0x16, 0xb4, 0x6b, 0x4d, 0x41, 0x44, 0xf7, 0x9b, 0xdd, 0x9d, 0xd0, 0x4a, 0x28, 0x7c] := by
  decide +kernel

/-- 11_calibration.md: a trim of 40 at 4,114 beside a median of 4,100 becomes 39, and holds at 4,098. -/
theorem test_trim : movedTrim 10 4100 4114 40 = 39 ∧ movedTrim 10 4100 4098 39 = 39
    ∧ resMaxOf [4098] 4100 = 1 := by decide +kernel

/-- R3: a full reset of the LQ leaves a scene mix as the base layer, and the returns in L2 when idle. -/
theorem test_lq_reset :
    let s : State := { State.reset with nvm := { State.reset.nvm with variant := .lq } }
    (s.fullReset .regulator 0 2).live pCompCtrl = 0x1D ∧ (s.fullReset .regulator 0 2).shadow pCompCtrl = 0x1D
      ∧ (s.fullReset .regulator 0 2).live pRetSleep = 0x00640002
      ∧ (State.reset.fullReset .regulator 0 2).live pCompCtrl = 0x1C := by decide +kernel

end Sys2Proof.Tests
end

section
/-! PROOFS. The address map (01_architecture.md R33, R34): the checks of steps 8 and 9 that reject an access, the
bytes that a rejection leaves, and memory as its bytes. -/

namespace Sys2Proof.Machine

/-! ### The checks of steps 8 and 9 -/

/-- A check of step 8 passes where its condition holds. -/
@[simp] theorem need_eq_none {b : Bool} : need b = none ↔ b = true := by cases b <;> simp [need]

/-- A check of step 9 passes where its condition fails. -/
@[simp] theorem stop_eq_none {b : Bool} {st : Nat} : stop b st = none ↔ b = false := by cases b <;> simp [stop]

/-- Two checks of step 9 pass where each does. -/
@[simp] theorem orElse9_eq_none {a b : Option (Nat × List Word)} : orElse9 a b = none ↔ a = none ∧ b = none := by
  cases a <;> simp [orElse9]

/-- A packet above class 0 with its reserved FLAGS bits clear passes the check of its flags (R38). -/
theorem badFlags_eq_false {p : Pkt} (h0 : p.cls ≠ 0) (hr : p.replyBits = 0) : badFlags p = false := by
  simp [badFlags, h0, hr]

/-- A packet that fails its opcode's own check of step 8 is rejected with BAD_PARAM. -/
theorem serveOp_badParam {op : Nat} {d : OpDef} {p : Pkt} {s : State} {r : List Word} (h : reaches op d p s = true)
    (hb : d.bad (ownOf op p s) (authOf op p s) = some r) :
    serveOp op d p false s = (authOf op p s).reject op p stBadParam r false := by
  obtain ⟨-, -, -, hs⟩ := serveOp_reaches h
  rw [hs, hb]

/-- A packet that passes step 8 and fails step 9 is rejected with that failure's status. -/
theorem serveOp_gated {op : Nat} {d : OpDef} {p : Pkt} {s : State} {st : Nat} {r : List Word}
    (h : reaches op d p s = true) (hb : d.bad (ownOf op p s) (authOf op p s) = none) (hf : badFlags p = false)
    (hg : d.gate (ownOf op p s) (authOf op p s) = some (st, r)) :
    serveOp op d p false s = (authOf op p s).reject op p st r false := by
  obtain ⟨-, -, -, hs⟩ := serveOp_reaches h
  simp [hs, hb, hf, hg]

/-- An opcode that class 0 does not permit is served above class 0 only. -/
theorem reaches_cls {op : Nat} {d : OpDef} {p : Pkt} {s : State} (h : reaches op d p s = true)
    (h0 : opPermitted op 0 = false) : p.cls ≠ 0 := by
  obtain ⟨-, hp, -⟩ := serveOp_reaches h
  intro hc
  rw [hc, h0] at hp
  cases hp

/-! ### Accesses and the map -/

/-- MEM_READ may not read a range marked LOCKED to it. -/
theorem readLocked_of_range {a n : Nat} {r : Nat × Nat × Bool × Bool} (h : memRange a n = some r)
    (hr : r.2.2.1 = false) : readLocked a n = true := by simp [readLocked, h, hr]

/-- MEM_WRITE may not write a range marked LOCKED to it. -/
theorem writeLocked_of_range {a n : Nat} {r : Nat × Nat × Bool × Bool} (h : memRange a n = some r)
    (hr : r.2.2.2 = false) : writeLocked a n = true := by simp [writeLocked, h, hr]

/-- A locked access fails step 9 where its check-value unit is free. -/
theorem memGate_locked {q : Pkt} {u : State} {b : Bool} (hc : usesCvu q = true → u.cvuGate (cvuOf q) = none)
    (hb : b = true) :
    orElse9 (if usesCvu q then u.cvuGate (cvuOf q) else none) (stop b stLocked) = some (stLocked, []) := by
  have hn : (if usesCvu q then u.cvuGate (cvuOf q) else none) = none := by
    split
    · exact hc ‹_›
    · rfl
  rw [hn, hb]
  rfl

/-- A MEM_READ that no one range holds whole fails step 8. -/
theorem memRead_bad {q : Pkt} (u : State) (h : memRange (q.u32 16) (q.u16 20) = none) :
    memReadDef.bad q u = some [] := by simp [memReadDef, need, h]

/-- A MEM_READ within one range whose fields are well formed passes step 8. -/
theorem memRead_good {q : Pkt} {r : Nat × Nat × Bool × Bool} (u : State)
    (h : memRange (q.u32 16) (q.u16 20) = some r) (hf : memFields q = true) : memReadDef.bad q u = none := by
  simp [memReadDef, h, hf]

/-- A MEM_WRITE that no one range holds whole fails step 8. -/
theorem memWrite_bad {q : Pkt} (u : State) (h : memRange (q.u32 16) (writeLen q) = none) :
    memWriteDef.bad q u = some [] := by simp [memWriteDef, need, h]

/-- A MEM_WRITE within one range whose fields are well formed passes step 8. -/
theorem memWrite_good {q : Pkt} {r : Nat × Nat × Bool × Bool} (u : State)
    (h : memRange (q.u32 16) (writeLen q) = some r) (hf : memFields q = true)
    (hc : usesCvu q = true → 8 ≤ q.u16 20) : memWriteDef.bad q u = none := by
  cases hu : usesCvu q with
  | false => simp [memWriteDef, h, hf, hu]
  | true => simp [memWriteDef, h, hf, hu, hc hu]

/-! ### The bytes of the map -/

/-- What leaves the two memories, the journal's lines and the contexts leaves every byte of the map. -/
theorem byte_of_frame {l : List Part} {s t : State} (h : sameBut l s t) (hb : .bytes ∉ l) (hj : .journal ∉ l)
    (hs : .shadow ∉ l) (hc : .compose ∉ l) (a : Nat) : t.byte a = s.byte a := by
  obtain ⟨hsram, hmram⟩ := h .bytes hb
  obtain ⟨-, hjrn⟩ := h .journal hj
  have hshd : t.shd = s.shd := h .shadow hs
  have hcomp : t.comp = s.comp := h .compose hc
  simp only [State.byte, State.sram, State.mram, State.jLine, State.ctx, State.ovl, hsram, hmram, hjrn, hshd, hcomp]

/-- A rejected packet changes no byte of the map, whatever errors have arisen in lines before it. -/
theorem reject_byte (op : Nat) (p : Pkt) (s : State) (st a : Nat) (r : List Word) (ups : Upsets) :
    ((authOf op p (s.arise ups)).reject op p st r false).byte a = s.byte a := by
  have h : sameBut [.rings, .params, .firmware, .memory] s ((authOf op p (s.arise ups)).reject op p st r false) :=
    sameBut_trans (sameBut_mono (arise_frame s ups) (by decide))
      (sameBut_trans (sameBut_mono (authenticate_frame _ op p) (by decide))
        (sameBut_mono (reject_frame _ op p st r false) (by decide)))
  exact byte_of_frame h (by decide) (by decide) (by decide) (by decide) a

/-- Settles O13: the map is checked in step 8 (no range) and in step 9 (LOCKED), and a rejection touches no
byte. -/
theorem memoryChecksByMap : Obligations.MemoryChecksByMap := by
  refine ⟨fun p ups s hr => ⟨fun hn => ?_, fun r hm hl hf hb hc => ?_⟩,
    fun p s hr => ⟨fun hn => ?_, fun r hm hl hf h8 hb hc => ?_⟩, fun op p s st a ups => reject_byte op p s st a [] ups⟩
  · exact congrArg _ (serveOp_badParam hr (memRead_bad _ hn))
  · exact congrArg _ (serveOp_gated hr (memRead_good _ hm hf) (badFlags_eq_false (reaches_cls hr (by decide)) hb)
      (memGate_locked hc (readLocked_of_range hm hl)))
  · exact congrArg _ (serveOp_badParam hr (memWrite_bad _ hn))
  · exact congrArg _ (serveOp_gated hr (memWrite_good _ hm hf h8)
      (badFlags_eq_false (reaches_cls hr (by decide)) hb) (memGate_locked hc (writeLocked_of_range hm hl)))

/-- Settles O14: the laws of the sparse tables, for the two memories. -/
theorem memoryIsItsBytes : Obligations.MemoryIsItsBytes :=
  ⟨setSram_sram, setMram_mram,
   fun s a l hw => ⟨wf_of_bytes (writeSram_bytes s a l) (setSram_wf s a l hw),
    wf_of_bytes (writeMram_bytes s a l).symm (setMram_wf s a l hw)⟩,
   fun _ t u ht hu h => tab_ext t u none ht hu h⟩

end Sys2Proof.Machine
end

section
/-! PROOFS. The rows of passes, loads, slots and notches (03_pixel_drive.md). -/

namespace Sys2Proof.Machine

/-- A row that acts while the frame engine runs, and otherwise lets time pass (log 9). -/
theorem after_running {c : Instr} {dt : Nat} {s : State} {f : State → State}
    (hc : exec c s = .next (if (s.elapse dt).frm.running then f (s.elapse dt) else s.elapse dt)) :
    After c dt s (fun u => u.frm.running) f := fun h => by rw [hc, if_pos h]

/-- A notch row access with its 16 probes acts while the frame engine runs. -/
theorem exec_notchRowAccess {probes : List TileProbe} (h : probes.length = 16) (dt : Nat) (low : List Nat) (s : State) :
    exec (.notchRowAccess dt probes low) s
      = .next (if (s.elapse dt).frm.running then (s.elapse dt).notchAccess probes low else s.elapse dt) := by
  show execNotchRowAccess dt probes low s = _
  simp only [execNotchRowAccess, h, and_true]

/-- A notch end with its 64 measured values acts while the frame engine runs. -/
theorem exec_notchEnd {m : List Nat} (h : m.length = 64) (dt : Nat) (s : State) :
    exec (.notchEnd dt m) s
      = .next (if (s.elapse dt).frm.running then (s.elapse dt).notchEnd m else s.elapse dt) := by
  show execNotchEnd dt m s = _
  simp only [execNotchEnd, h, if_true]
  cases (s.elapse dt).frm.running <;> rfl

/-- The pass of a tile completes, and the tile's next token starts. -/
theorem exec_passComplete {dt : Nat} {t : Fin 16} {ups : Upsets} {s : State} {e : Nat × Pass}
    (h : ((s.elapse dt).arise ups).comp.passes.find? (fun x => decide (x.1 = t.val)) = some e) :
    exec (.passComplete dt t ups) s = .next ((((s.elapse dt).arise ups).passDone t e.2).nextToken t) := by
  show execPassComplete dt t ups s = _
  simp only [execPassComplete, h]

/-- Settles O49: each row's own arm, under its premise. -/
theorem passAndSlotEventsComplete : Obligations.PassAndSlotEventsComplete := fun s dt _ _ =>
  ⟨fun _ => rfl, fun _ _ h => exec_passComplete (of_decide_eq_true h), fun _ => after_running rfl,
   after_running rfl, fun _ low hl => after_running (exec_notchRowAccess hl dt low s),
   fun _ hl => after_running (exec_notchEnd hl dt s)⟩

end Sys2Proof.Machine
end

section
/-! PROOFS. What a command that stores to SRAM can change: one relation between the state before and after, which
serving a packet keeps, reading the lines of a partial write keeps, and writing inside the span keeps. -/

namespace Sys2Proof.Machine

/-! ### The relation of a store -/

/-- The parts that a store may change, where errors stand in lines or a slice runs. -/
def storeParts : List Part := .firmware :: .bytes :: durParts

/-- The parts that a store may change in a calm state. -/
def calmStoreParts : List Part := [.rings, .params, .firmware, .journal, .memory, .bytes]

/-- A store that leaves MRAM and the bytes of SRAM of which `Q` holds; in a calm state also those of which `C`
holds, and then the state stays calm. -/
structure Stores (Q C : Nat → Prop) (s t : State) : Prop where
  parts : sameBut storeParts s t
  bytes : Outside Q s t
  calm  : s.calm = true → t.calm = true ∧ sameBut calmStoreParts s t ∧ Outside C s t

section
variable {Q C : Nat → Prop} {s t : State}

/-- Nothing stored. -/
theorem Stores.refl (s : State) : Stores Q C s s :=
  ⟨sameBut_refl _ s, outside_refl Q s, fun c => ⟨c, sameBut_refl _ s, outside_refl C s⟩⟩

/-- Two stores outside the same bytes. -/
theorem Stores.trans {u : State} (h : Stores Q C s t) (k : Stores Q C t u) : Stores Q C s u :=
  ⟨sameBut_trans h.parts k.parts, outside_trans h.bytes k.bytes, fun c =>
    let ⟨ct, ht, ot⟩ := h.calm c
    let ⟨cu, hu, ou⟩ := k.calm ct
    ⟨cu, sameBut_trans ht hu, outside_trans ot ou⟩⟩

/-- What changes no byte, and in a calm state its own parts alone. -/
theorem Stores.of_quiet (h : sameBut durParts s t) (hc : calmBut calmStoreParts s t) : Stores Q C s t :=
  ⟨sameBut_mono h (by decide), outside_base (by decide) Q h,
   fun c => ⟨(hc c).1, (hc c).2, outside_base (by decide) C h⟩⟩

/-- What changes nothing in a calm state. -/
theorem Stores.of_calm_eq (h : sameBut storeParts s t) (hQ : Outside Q s t) (hc : s.calm = true → t = s) :
    Stores Q C s t :=
  ⟨h, hQ, fun c => by rw [hc c]; exact ⟨c, sameBut_refl _ s, outside_refl C s⟩⟩

/-- Serving a packet keeps the relation. -/
theorem stores_serveRel : ServeRel serveParts (Stores Q C) where
  refl := Stores.refl
  trans := Stores.trans
  base h := ⟨sameBut_mono h (by decide), outside_base (by decide) Q h,
    fun c => have ⟨ct, ht⟩ := calmBut_of h (m := calmStoreParts) (by decide) (by decide) (by decide) c
      ⟨ct, ht, outside_base (by decide) C h⟩⟩

/-- A durable line of the journal keeps the relation. -/
theorem jDurable_stores (u : State) (j : Word) : Stores Q C u (u.jDurable j) :=
  .of_quiet (jDurable_frame u j) (calmBut_mono (jDurable_calm u j) (by decide))

/-- A slice on a check-value unit that is cut short keeps the relation. -/
theorem abortCvu_stores (u : State) (k : Nat) : Stores Q C u (u.abortCvu k) :=
  .of_quiet (abortCvu_dur u k) fun c => by
    rw [show u.abortCvu k = u from calm_abortSlice c _]
    exact ⟨c, sameBut_refl _ u⟩

/-- Bytes written to SRAM outside those that must stay. -/
theorem writeSram_stores (u : State) {a : Nat} {l : List Byte} (hQ : ∀ b, Q b → b < a ∨ a + l.length ≤ b)
    (hC : ∀ b, C b → b < a ∨ a + l.length ≤ b) : Stores Q C u (u.writeSram a l) := by
  have out : ∀ P : Nat → Prop, (∀ b, P b → b < a ∨ a + l.length ≤ b) → Outside P u (u.writeSram a l) :=
    fun P hP => ⟨(writeSram_bytes u a l).2, fun b hb => writeSram_out u a b l (hP b hb)⟩
  have calm : u.calm = true → (u.writeSram a l).calm = true := fun c => by
    simp only [State.calm, Bool.and_eq_true, List.isEmpty_iff] at c ⊢
    exact ⟨by simp [State.writeSram, State.wholeWritten, State.setSram, c.1], c.2⟩
  exact ⟨sameBut_mono (writeSram_frame u a l) (by decide), out Q hQ,
    fun c => ⟨calm c, sameBut_mono (writeSram_frame u a l) (by decide), out C hC⟩⟩

/-- The lines that a write takes in in part are read first (R277), where their sources are SRAM's own. -/
theorem readParts_stores (u : State) {req a n : Nat}
    (hr : ∀ l, l % 64 = 0 → a < l + 64 → l < a + n → regionOf l ≤ 4 ∨ regionOf l = 10)
    (hQ : ∀ b, Q b → lineOf b + 64 ≤ a ∨ a + n ≤ lineOf b) : Stores Q C u (u.readParts req a n).1 :=
  .of_calm_eq (sameBut_mono (readParts_frame u req a n) (by decide)) (readParts_out Q u req a n hr hQ)
    fun c => readParts_good c req a n

end

/-- A byte whose line lies outside a span lies outside it. -/
theorem out_of_line {a b n : Nat} (h : lineOf b + 64 ≤ a ∨ a + n ≤ lineOf b) : b < a ∨ a + n ≤ b := by
  unfold lineOf at h
  omega

/-! ### Serving a store -/

/-- What an opcode's effect keeps: the relation, with the reply given at once and nothing done after it. -/
def EndsWithin (Q C : Nat → Prop) (u : State) (o : Out) : Prop :=
  Stores Q C u o.s ∧ o.replies = true ∧ ∀ v, o.post v = v

/-- A packet is served within the relation, if its opcode's effect keeps it wherever the checks of steps 8 and 9 have
passed. -/
theorem serveOp_stores {Q C : Nat → Prop} {op : Nat} {d : OpDef} {p : Pkt} {s : State} (ht : p.timed = false)
    (hr : ∀ w, d.bad (ownOf op p s) w = none → d.gate (ownOf op p s) w = none →
      ∀ j u, EndsWithin Q C u (d.run j (ownOf op p s) u)) : Stores Q C s (serveOp op d p false s) :=
  serveOp_checked stores_serveRel (by decide) (by decide) (by decide) ht
    (.inr ⟨by decide, .inr (.inr jDurable_stores)⟩) fun w _ hb hg => hr w hb hg

/-- A write whose partial lines are read first, and which those that fail refuse (R277). -/
theorem partWrite_ends {Q C : Nat → Prop} {u v : State} {a n : Nat} {l : List Byte} (h : Stores Q C u v)
    (hr : Stores Q C v (v.readParts 5 a n).1) (hw : ∀ w : State, Stores Q C w (w.writeSram a l)) :
    EndsWithin Q C u (let r := v.readParts 5 a n
      if r.2 then okOut (r.1.writeSram a l) [] else { s := r.1, status := stMemFault, step := 0 }) := by
  dsimp only
  split
  · exact ⟨(h.trans hr).trans (hw _), rfl, fun _ => rfl⟩
  · exact ⟨h.trans hr, rfl, fun _ => rfl⟩

/-! ### MEM_WRITE -/

/-- The ranges that MEM_WRITE may write: frame stores, scene symbols, the ring pool. -/
theorem writable_ranges : ∀ r ∈ memRanges, r.2.2.2 = true →
    r.2.1 < 0x600000 ∨ (0xB00000 ≤ r.1 ∧ r.2.1 < 0xB80000) := by decide

/-- The region of the ring pool. -/
theorem region_rings {a : Nat} (h1 : 0xB00000 ≤ a) (h2 : a < 0x10000000) : regionOf a = 10 := by
  unfold regionOf
  repeat rw [if_neg (by omega)]
  rw [if_pos h2]

/-- The lines that a permitted MEM_WRITE touches have SRAM sources or none. -/
theorem memWrite_lines {a n : Nat} (hm : (memRange a n).isSome = true) (hl : writeLocked a n = false) (l : Nat)
    (h0 : l % 64 = 0) (h1 : a < l + 64) (h2 : l < a + n) : regionOf l ≤ 4 ∨ regionOf l = 10 := by
  obtain ⟨r, hr⟩ := Option.isSome_iff_exists.mp hm
  have hw : r.2.2.2 = true := by simpa [writeLocked, hr] using hl
  have hin := List.find?_some hr
  simp only [Bool.and_eq_true, decide_eq_true_eq] at hin
  obtain ⟨⟨hlo, hhi⟩, -⟩ := hin
  cases writable_ranges r (List.mem_of_find?_eq_some hr) hw with
  | inl h => exact .inl (region_low (by omega))
  | inr h => exact .inr (region_rings (by omega) (by omega))

/-- The bytes whose lines a MEM_WRITE does not touch. -/
def memOutLines (q : Pkt) (a : Nat) : Prop := lineOf a + 64 ≤ q.u32 16 ∨ q.u32 16 + writeLen q ≤ lineOf a
/-- The bytes outside the span of a MEM_WRITE. -/
def memOut (q : Pkt) (a : Nat) : Prop := a < q.u32 16 ∨ q.u32 16 + writeLen q ≤ a

/-- A MEM_WRITE that passes its checks stores in its own span, or refuses with a status (R277). -/
theorem memWrite_ends {q : Pkt} {w : State} (hb : memWriteDef.bad q w = none) (hg : memWriteDef.gate q w = none)
    (j : Word) (u : State) : EndsWithin (memOutLines q) (memOut q) u (memWriteDef.run j q u) := by
  simp only [memWriteDef, need_eq_none, orElse9_eq_none, stop_eq_none, Bool.and_eq_true] at hb hg
  have hd := bytes_le q 24 (writeLen q)
  have hv : Stores (memOutLines q) (memOut q) u (if usesCvu q then u.abortCvu (cvuOf q) else u) := by
    split
    · exact abortCvu_stores u _
    · exact Stores.refl u
  simp only [memWriteDef]
  generalize (if usesCvu q then u.abortCvu (cvuOf q) else u) = v at hv ⊢
  split
  · exact ⟨hv, rfl, fun _ => rfl⟩
  · refine partWrite_ends hv (readParts_stores _ (memWrite_lines hb.2 hg.2) fun b hb => hb) fun w => ?_
    refine writeSram_stores w (fun b hb => ?_) fun b hb => ?_
    · have := out_of_line hb
      omega
    · unfold memOut at hb
      omega

/-! ### SCENE_WRITE -/

/-- The bytes outside the span of a SCENE_WRITE. -/
def sceneOut (q : Pkt) (a : Nat) : Prop :=
  a < 0x800000 + 65536 * q.u8 16 + q.u32 20 ∨ 0x800000 + 65536 * q.u8 16 + q.u32 20 + 64 * q.u16 18 ≤ a

/-- A SCENE_WRITE stores whole lines, and reads none. -/
theorem sceneWrite_ends (q : Pkt) (j : Word) (u : State) :
    EndsWithin (sceneOut q) (sceneOut q) u (sceneWriteDef.run j q u) := by
  have hd := bytes_le q 24 (64 * q.u16 18)
  have hout : ∀ b, sceneOut q b → b < 0x800000 + 65536 * q.u8 16 + q.u32 20
      ∨ 0x800000 + 65536 * q.u8 16 + q.u32 20 + (q.bytes 24 (64 * q.u16 18)).length ≤ b := by
    unfold sceneOut
    omega
  exact ⟨writeSram_stores u hout hout, rfl, fun _ => rfl⟩

/-! ### SYMBOL_WRITE -/

/-- The region of the scene symbols. -/
theorem region_symbols {a : Nat} (h1 : 0x400000 ≤ a) (h2 : a < 0x600000) : regionOf a = 2 := by
  unfold regionOf
  repeat rw [if_neg (by omega)]
  rw [if_pos h2]

/-- A line of the symbols has no source: nothing is put back (R274). -/
theorem restoreLine_symbols (s : State) {a : Nat} (h : regionOf a = 2) : s.restoreLine a = s := by
  simp only [State.restoreLine, h]

/-- A partial write of symbols reads its lines and changes no byte by that. -/
theorem readParts_symbols (u : State) {req a n : Nat} (h1 : 0x400000 ≤ a) (h2 : a + n ≤ 0x600000) :
    sameBut readParts u (u.readParts req a n).1 := by
  unfold State.readParts
  split
  · exact sameBut_refl _ u
  · refine readEach_keeps (fun _ hx => hx) req _ (fun l hl v => ?_) u
    obtain ⟨h64, hlo, hhi⟩ := partLines_of hl
    rw [restoreLine_symbols v (region_symbols (by omega) (by omega))]
    exact sameBut_refl _ v

/-- The bytes outside the span of a SYMBOL_WRITE. -/
def symbolOut (q : Pkt) (a : Nat) : Prop := a < 0x400000 + q.u32 16 ∨ 0x400000 + q.u32 16 + q.u16 20 ≤ a

/-- A SYMBOL_WRITE that passes its checks stores in its own span; the lines that it reads have no source. -/
theorem symbolWrite_ends {q : Pkt} {w : State} (hb : symbolWriteDef.bad q w = none) (j : Word) (u : State) :
    EndsWithin (symbolOut q) (symbolOut q) u (symbolWriteDef.run j q u) := by
  simp only [symbolWriteDef, need_eq_none, Bool.and_eq_true, decide_eq_true_eq] at hb
  obtain ⟨⟨-, hspan⟩, -⟩ := hb
  have hd := bytes_le q 28 (q.u16 20)
  have hout : ∀ b, symbolOut q b → b < 0x400000 + q.u32 16
      ∨ 0x400000 + q.u32 16 + (q.bytes 28 (q.u16 20)).length ≤ b := by
    unfold symbolOut
    omega
  simp only [symbolWriteDef]
  split
  · exact ⟨Stores.refl u, rfl, fun _ => rfl⟩
  · have hr := readParts_symbols u (req := 5) (a := 0x400000 + q.u32 16) (n := (q.bytes 28 (q.u16 20)).length)
      (by omega) (by omega)
    exact partWrite_ends (Stores.refl u)
      (.of_calm_eq (sameBut_mono hr (by decide)) (outside_base (by decide) _ hr) fun c => readParts_good c _ _ _)
      fun v => writeSram_stores v hout hout

/-! ### FLUX_WRITE -/

/-- The bytes whose lines no row of a FLUX_WRITE touches. -/
def fluxOutLines (q : Pkt) (a : Nat) : Prop :=
  ∀ r, r < q.u16 22 → lineOf a + 64 ≤ fluxRow q r ∨ fluxRow q r + q.u16 20 ≤ lineOf a
/-- The bytes outside the rows of a FLUX_WRITE. -/
def fluxOut (q : Pkt) (a : Nat) : Prop := ∀ r, r < q.u16 22 → a < fluxRow q r ∨ fluxRow q r + q.u16 20 ≤ a

section
variable {q : Pkt} (hx : q.u16 16 + q.u16 20 ≤ 2048) (hy : q.u16 18 + q.u16 22 ≤ 512)
include hx hy

/-- The rows of a FLUX_WRITE end inside the gains. -/
theorem fluxRow_end {r : Nat} (hr : r < q.u16 22) : fluxRow q r + q.u16 20 ≤ 0x700000 := by
  unfold fluxRow
  omega

/-- The lines that the rows take in in part are read. -/
theorem readRows_stores (u : State) : Stores (fluxOutLines q) (fluxOut q) u (u.readRows q).1 := by
  unfold State.readRows
  dsimp only
  split
  · exact Stores.refl u
  · refine List.foldlRecOn (motive := fun x : State × Bool => Stores (fluxOutLines q) (fluxOut q) u x.1) _ _
      (Stores.refl u) fun x h r hr => ?_
    rw [List.mem_range] at hr
    have hend := fluxRow_end hx hy hr
    exact h.trans (readParts_stores x.1 (fun l _ _ hl => .inl (region_low (by omega))) fun b hb => hb r hr)

end

/-- The rows of a FLUX_WRITE are written. -/
theorem writeRows_stores (q : Pkt) (d : List Byte) (u : State) :
    Stores (fluxOutLines q) (fluxOut q) u ((List.range (q.u16 22)).foldl (fun s r =>
      s.writeSram (fluxRow q r) ((d.drop (q.u16 20 * r)).take (q.u16 20))) u) := by
  refine List.foldlRecOn (motive := Stores (fluxOutLines q) (fluxOut q) u) _ _ (Stores.refl u) fun v h r hr => ?_
  rw [List.mem_range] at hr
  have hlen : ((d.drop (q.u16 20 * r)).take (q.u16 20)).length ≤ q.u16 20 := List.length_take_le ..
  refine h.trans (writeSram_stores v (fun b hb => ?_) fun b hb => ?_)
  · have := out_of_line (hb r hr)
    omega
  · have := hb r hr
    omega

/-- A FLUX_WRITE that passes its checks reads the lines of its rows, then stores in its rows. -/
theorem fluxWrite_ends {q : Pkt} {w : State} (hb : fluxWriteDef.bad q w = none) (j : Word) (u : State) :
    EndsWithin (fluxOutLines q) (fluxOut q) u (fluxWriteDef.run j q u) := by
  simp only [fluxWriteDef, need_eq_none, Bool.and_eq_true, decide_eq_true_eq] at hb
  obtain ⟨⟨⟨⟨⟨⟨-, hx⟩, -⟩, hy⟩, -⟩, -⟩, -⟩ := hb
  have hr := readRows_stores hx hy u
  simp only [fluxWriteDef]
  split
  · exact ⟨Stores.refl u, rfl, fun _ => rfl⟩
  · split
    · exact ⟨hr, rfl, fun _ => rfl⟩
    · exact ⟨hr.trans (writeRows_stores q _ _), rfl, fun _ => rfl⟩

/-! ### The statement -/

/-- Settles O12: each store's effect keeps the relation of its own span, and serving a packet keeps it. -/
theorem memoryWritesFrame : Obligations.MemoryWritesFrame := by
  intro p s ht
  have hm : Stores _ _ s (serveOp 0x0802 memWriteDef p false s) := serveOp_stores ht fun _ hb hg => memWrite_ends hb hg
  have hs : Stores _ _ s (serveOp 0x0301 sceneWriteDef p false s) := serveOp_stores ht fun _ _ _ => sceneWrite_ends _
  have hy : Stores _ _ s (serveOp 0x0304 symbolWriteDef p false s) := serveOp_stores ht fun _ hb _ => symbolWrite_ends hb
  have hf : Stores _ _ s (serveOp 0x0705 fluxWriteDef p false s) := serveOp_stores ht fun _ hb _ => fluxWrite_ends hb
  refine ⟨⟨_, rfl, hm.parts, hm.bytes.1, hm.bytes.2, fun c => ?_⟩, ⟨_, rfl, hs.parts, hs.bytes.1, hs.bytes.2, fun c => ?_⟩,
    ⟨_, rfl, hy.parts, hy.bytes.1, hy.bytes.2, fun c => ?_⟩, ⟨_, rfl, hf.parts, hf.bytes.1, hf.bytes.2, fun c => ?_⟩⟩
  · obtain ⟨-, hparts, hout⟩ := hm.calm c
    exact ⟨sameBut_mono hparts (by decide), hout.2⟩
  · obtain ⟨-, hparts, -⟩ := hs.calm c
    exact hparts
  · obtain ⟨-, hparts, -⟩ := hy.calm c
    exact sameBut_mono hparts (by decide)
  · obtain ⟨-, hparts, hout⟩ := hf.calm c
    exact ⟨sameBut_mono hparts (by decide), hout.2⟩

end Sys2Proof.Machine
end

section
/-! PROOFS. Packets that are not executed (02_command_model.md R42, R52, R267): the rejections of steps 5 to 9, and
the packets that wait at the head of their ring. -/

namespace Sys2Proof.Machine

/-! ### The rejections of steps 5 to 9 -/

/-- A packet that need not wait for its reply slots (R52) goes through steps 5 to 9 of R42. -/
theorem serveOp_room {op : Nat} {d : OpDef} {p : Pkt} {s : State} (gap : Bool)
    (hc : p.cls = 0 ∨ s.canStart d p = true) : serveOp op d p gap s = runOp op d p gap s := by
  have hn : ¬(p.cls ≠ 0 ∧ opPermitted op p.cls = true ∧ (!s.canStart d p) = true) := by
    rintro ⟨h0, -, hs⟩
    cases hc with
    | inl h => exact h0 h
    | inr h => simp [h] at hs
  exact if_neg hn

/-- One failure. -/
theorem fails_some {st : Nat} {r : List Word} (h : st ≠ stOk ∧ st ≠ stAccepted) : Fails (some (st, r)) := by
  intro y hy
  cases hy
  exact h

/-- Steps 7 and 8 answer nothing, or a status that is neither OK nor ACCEPTED. -/
theorem fails_layoutBad (u : State) (d : OpDef) (p q : Pkt) : Fails (u.layoutBad d p q) := by
  unfold State.layoutBad
  split
  · exact fails_some (by decide)
  · split
    · exact fails_some (by decide)
    · exact fails_ite (fails_some (by decide)) fails_none

/-- A state changed by step 6 and by a rejection alone. -/
theorem authReject_frame (s : State) (op : Nat) (p : Pkt) (st : Nat) (r : List Word) :
    sameBut [.rings, .params, .firmware] s ((authOf op p s).reject op p st r false) :=
  sameBut_trans (authenticate_frame s op p) (sameBut_mono (reject_frame _ op p st r false) (by decide))

/-- What steps 5 to 9 of R42 do with a packet without TIMED that fails one of them: a rejection, of the state
after step 6 where step 5 has passed. -/
theorem runOp_refused {op : Nat} {d : OpDef} {p : Pkt} {s : State} (ht : p.timed = false)
    (hg : ∀ q u, Fails (d.gate q u)) (hc : p.cls = 0 ∨ s.canStart d p = true) (hn : passes op d p s = false) :
    ∃ st r, st ≠ stOk ∧ st ≠ stAccepted ∧ runOp op d p false s
      = (if opPermitted op p.cls then authOf op p s else s).reject op p st r false := by
  unfold runOp
  cases hp : opPermitted op p.cls with
  | false => exact ⟨stBadOpcode, [], by decide, by decide, by simp⟩
  | true =>
    simp only [Bool.not_true, Bool.false_eq_true, if_false, if_true, ht]
    cases hb : (s.authenticate op p).2 with
    | none => exact ⟨stNotAuth, [], by decide, by decide, rfl⟩
    | some body =>
      have hq : ({ p with params := body } : Pkt) = ownOf op p s := by simp [ownOf, hb]
      simp only [hq]
      cases hl : (s.authenticate op p).1.layoutBad d p (ownOf op p s) with
      | some y => exact ⟨y.1, y.2, (fails_layoutBad _ d p _ y hl).1, (fails_layoutBad _ d p _ y hl).2, rfl⟩
      | none =>
        cases hk : d.gate (ownOf op p s) (s.authenticate op p).1 with
        | some y => exact ⟨y.1, y.2, (hg _ _ y hk).1, (hg _ _ y hk).2, rfl⟩
        | none =>
          exfalso
          have hpass : passes op d p s = true := by
            simp [passes, hp, ht, hb, hc, authOf, hl, hk]
          rw [hpass] at hn
          cases hn

/-- Settles O6: steps 5 to 9 answer a rejection, and no check of theirs answers OK or ACCEPTED. -/
theorem refusedPacketIsNotExecuted : Obligations.RefusedPacketIsNotExecuted := by
  intro c op d p s hc v ht hf hroom hn
  obtain ⟨st, r, h0, h1, hrun⟩ := runOp_refused ht (fails_gate hc) hroom hn
  refine ⟨st, r, h0, h1, ?_, ?_⟩
  · rw [servedAs_exec hc s hf, serveOp_room false hroom, hrun]
  · split
    · exact authReject_frame v op p st r
    · exact sameBut_mono (reject_frame v op p st r false) (by decide)

/-! ### Packets that wait -/

/-- The head of a ring that moves on. -/
theorem headSlot_headOn (s : State) (r n q : Nat) :
    (s.headOn r n).headSlot q = if q = r then (s.headSlot r + n) % (s.ring r).depth else s.headSlot q :=
  tget_tput _ _ _ _ _

/-- What is written in the ring registers alone changes the rings alone. -/
theorem setCmd_frame (s : State) (c : Cmd) : sameBut [.rings] s { s with cmd := c } := by
  intro x hx
  cases x <;> first | exact absurd (by decide) hx | rfl | exact ⟨rfl, rfl⟩ | exact ⟨rfl, rfl, rfl⟩

/-- A packet put back changes the rings alone. -/
theorem putBack_frame (s : State) (op : Nat) (p : Pkt) (gap : Bool) : sameBut [.rings] s (s.putBack op p gap) :=
  setCmd_frame s _

/-- Only a CAL_SWEEP and a CAL_ABORT wait for a CAL_COMMIT (R267). -/
theorem stepFour_opcode {s : State} {op : Nat} (h : s.stepFour op = true) : op = 0x0701 ∨ op = 0x0704 := by
  simp only [State.stepFour, Bool.and_eq_true, Bool.or_eq_true, decide_eq_true_eq] at h
  exact h.1

/-- A CAL_SWEEP or a CAL_ABORT waits while a CAL_COMMIT is in its step 4 (R267). -/
theorem exec_calWaits {c : Instr} {op : Nat} {d : OpDef} {p : Pkt} {s : State} (h : servedAs c = some (op, d, p))
    (hf : s.stepFour op = true) (hp : opPermitted op p.cls = true) :
    exec c s = .next ((servedOn c s).putBack op p false) := by
  have hop := stepFour_opcode hf
  cases c
  case calSweep | calAbort =>
    cases h
    exact congrArg _ (serveCal_waits _ false hf hp)
  all_goals cases h <;> exact absurd hop (by decide)

/-- A packet whose reply slots cannot be reserved is put back (R52). -/
theorem serveOp_noRoom {op : Nat} {d : OpDef} {p : Pkt} {s : State} (gap : Bool) (h0 : p.cls ≠ 0)
    (hp : opPermitted op p.cls = true) (hs : s.canStart d p = false) : serveOp op d p gap s = s.putBack op p gap :=
  if_pos ⟨h0, hp, by simp [hs]⟩

/-- Settles O7: in either case the packet is put back. -/
theorem noReplyRoomWaits : Obligations.NoReplyRoomWaits := by
  intro c op d p s hc v h0 hp hw
  have hexec : exec c s = .next (v.putBack op p false) := by
    cases hf : s.stepFour op with
    | true => exact exec_calWaits hc hf hp
    | false =>
      have hs : v.canStart d p = false := hw.resolve_right (by simp [hf])
      rw [servedAs_exec hc s hf, serveOp_noRoom false h0 hp hs]
  exact ⟨_, hexec, putBack_frame v op p false, rfl, fun r hr => (headSlot_headOn v p.ring _ r).trans (if_neg hr)⟩

end Sys2Proof.Machine
end

section
/-! PROOFS. Packets with TIMED (17_group_operation.md R368): the entry that a packet leaves in the timed queue, and
the frame of placing it. -/

namespace Sys2Proof.Machine

/-- What leaves the group registers alone leaves the timed queue. -/
theorem grp_of_frame {l : List Part} {s t : State} (h : sameBut l s t) (hg : .groups ∉ l) : t.grp = s.grp :=
  h .groups hg

/-- Errors that arise in lines leave the timed queue. -/
theorem servedOn_grp (c : Instr) (s : State) : (servedOn c s).grp = s.grp := by
  cases c <;> rfl

/-- A timed packet that passes its checks enters the queue with its own parameters, ID 0 and STRICT clear. -/
theorem serveOp_passesTimed {op : Nat} {d : OpDef} {p : Pkt} {s : State} (h : passesTimed op d p s = true) :
    serveOp op d p false s = (authOf op p s).enqueue op op p { p with params := (ownOf op p s).params.drop 8 }
      (ownOf op p s).params 0 false (timedOf (ownOf op p s).params) false := by
  simp only [passesTimed, Bool.and_eq_true, Bool.or_eq_true, decide_eq_true_eq, Option.isNone_iff_eq_none] at h
  obtain ⟨⟨⟨⟨⟨⟨hp, ht⟩, ha⟩, hc⟩, h8⟩, hl⟩, hb⟩ := h
  obtain ⟨body, hbody⟩ := Option.isSome_iff_exists.mp ha
  have hown : (ownOf op p s).params = body := by simp [ownOf, hbody]
  have hq : ({ ownOf op p s with params := body.drop 8 } : Pkt) = { p with params := body.drop 8 } := by
    simp [ownOf]
  rw [hown] at h8 hb hl ⊢
  rw [hq] at hl
  rw [serveOp_room false hc]
  unfold runOp
  simp only [authOf] at hl hb
  simp only [hp, ht, hbody, Bool.not_true, Bool.false_eq_true, if_false, if_true, if_neg (Nat.not_lt.mpr h8), hl, hb]
  rfl

/-- The entry that a packet leaves in the timed queue (R368). -/
def timedEntry (s : State) (inner : Nat) (q : Pkt) (id : Nat) (strict : Bool) (time : Nat) : Timed :=
  { id := id, strict := strict, time := BitVec.ofNat 64 time, opcode := inner, pkt := q, jseq := s.jNext }

/-- The state whose queue an entry enters: with its kind-0 record made, in MRAM too where it is durable. -/
def State.timedEntered (s : State) (inner : Nat) (q : Pkt) (params : List Byte) : State :=
  let x := s.jAdd (kind0 inner q q.durable true params 1 1) q.durable
  if q.durable then x.1.jDurable x.2 else x.1

section
variable {s : State} {op inner : Nat} {p q : Pkt} {params : List Byte} {id : Nat} {strict : Bool} {time : Nat}
  {gap : Bool}

/-- Placing an entry: its record, its place at the end of the queue, the reply ACCEPTED. -/
theorem enqueue_eq : s.enqueue op inner p q params id strict time gap
    = (let u := s.timedEntered inner q params
       State.reply { u with grp := { u.grp with queue := u.grp.queue ++ [timedEntry s inner q id strict time] } }
        op p stAccepted 0 1 s.jNext [] gap true) := rfl

/-- The record of an entry changes what a durable entry changes. -/
theorem timedEntered_frame : sameBut durParts s (s.timedEntered inner q params) := by
  have hadd := jAdd_frame s (kind0 inner q q.durable true params 1 1) q.durable
  unfold State.timedEntered
  dsimp only
  split
  · exact sameBut_trans (sameBut_mono hadd (by decide)) (jDurable_frame _ _)
  · exact sameBut_mono hadd (by decide)

/-- The record of an entry that is not durable changes the journal alone. -/
theorem timedEntered_frame_brief (hd : q.durable = false) : sameBut [.journal] s (s.timedEntered inner q params) := by
  unfold State.timedEntered
  dsimp only
  rw [if_neg (by simp [hd])]
  exact jAdd_frame s _ _

/-- The group registers with an entry placed: the queue alone has it, at its end. -/
theorem enqueue_grp : (s.enqueue op inner p q params id strict time gap).grp
    = { s.grp with queue := s.grp.queue ++ [timedEntry s inner q id strict time] } := by
  have hgrp : (s.timedEntered inner q params).grp = s.grp := grp_of_frame timedEntered_frame (by decide)
  rw [enqueue_eq, grp_of_frame (reply_frame _ _ _ _ _ _ _ _ _ _) (by decide)]
  dsimp only
  rw [hgrp]

/-- The group registers alone are written. -/
theorem setGrp_frame (u : State) (g : Grp) : sameBut [.groups] u { u with grp := g } := by
  intro x hx
  cases x <;> first | exact absurd (by decide) hx | rfl | exact ⟨rfl, rfl⟩ | exact ⟨rfl, rfl, rfl⟩

/-- Placing an entry keeps every frame that its record keeps, beside the queue and the reply. -/
theorem enqueue_keeps {l : List Part} (hl : ∀ x ∈ ([.rings, .params, .groups] : List Part), x ∈ l)
    (he : sameBut l s (s.timedEntered inner q params)) :
    sameBut l s (s.enqueue op inner p q params id strict time gap) := by
  rw [enqueue_eq]
  refine sameBut_trans he (sameBut_trans (sameBut_mono (setGrp_frame _ _) fun x hx => hl x ?_)
    (sameBut_mono (reply_frame _ _ _ _ _ _ _ _ _ _) fun x hx => hl x ?_)) <;>
    (revert x; decide)

end

/-- Settles O8: the packet is placed in the queue, and placing it has its own frame. -/
theorem timedPacketIsQueued : Obligations.TimedPacketIsQueued := by
  intro c op d p s hc v hp hf
  have hexec := (servedAs_exec hc s hf).trans (congrArg _ (serveOp_passesTimed hp))
  have hauth : sameBut [.rings, .params, .firmware] v (authOf op p v) := authenticate_frame v op p
  have hgrp : (authOf op p v).grp = s.grp := (grp_of_frame hauth (by decide)).trans (servedOn_grp c s)
  have hplaced := enqueue_grp (s := authOf op p v) (op := op) (inner := op) (p := p)
    (q := { p with params := (ownOf op p v).params.drop 8 }) (params := (ownOf op p v).params) (id := 0)
    (strict := false) (time := timedOf (ownOf op p v).params) (gap := false)
  rw [hgrp] at hplaced
  refine ⟨_, _, hexec, congrArg Grp.queue hplaced, rfl, rfl, rfl, rfl, rfl, rfl, rfl, by rw [hplaced],
    by rw [hplaced], ?_, fun hd => ?_⟩
  · exact sameBut_trans (sameBut_mono hauth (by decide))
      (enqueue_keeps (by decide) (sameBut_mono timedEntered_frame (by decide)))
  · exact sameBut_trans (sameBut_mono hauth (by decide))
      (enqueue_keeps (by decide) (sameBut_mono (timedEntered_frame_brief hd) (by decide)))

end Sys2Proof.Machine
end

section
/-! PROOFS. Commands that read: serving one keeps each relation that its effect keeps, and most effects leave the
state as it is. -/

namespace Sys2Proof.Machine

/-! ### Serving a command that is not journaled -/

/-- What a served packet that is not journaled changes beside its effect. -/
def replyParts : List Part := [.rings, .params, .firmware]

/-- What an effect leaves: a relation kept, an answer at once, nothing done after it. -/
def Ends (R : State → State → Prop) (u : State) (o : Out) : Prop :=
  R u o.s ∧ o.replies = true ∧ ∀ v, o.post v = v

/-- An effect that completes with result words. -/
theorem ends_okOut {R : State → State → Prop} {u v : State} (r : List Word) (h : R u v) : Ends R u (okOut v r) :=
  ⟨h, rfl, fun _ => rfl⟩

/-- An effect that ends with a status of its own. -/
theorem ends_fails {R : State → State → Prop} {u v : State} (st : Nat) (r : List Word) (h : R u v) :
    Ends R u { s := v, status := st, results := r, step := 0 } :=
  ⟨h, rfl, fun _ => rfl⟩

/-- An opcode that is not journaled and whose effect keeps a relation. -/
def Reads (R : State → State → Prop) (d : OpDef) (q : Pkt) : Prop :=
  d.jnl q = 0 ∧ ∀ j u, Ends R u (d.run j q u)

/-- A served command that reads keeps the relation that its effect keeps. -/
theorem exec_reads {R : State → State → Prop} {c : Instr} {op : Nat} {d : OpDef} {p : Pkt} {s : State}
    (hR : ServeRel replyParts R) (hc : servedAs c = some (op, d, p)) (hf : s.stepFour op = false)
    (ht : p.timed = false) (h : Reads R d (ownOf op p (servedOn c s))) :
    ∃ t, exec c s = .next t ∧ R (servedOn c s) t :=
  ⟨_, servedAs_exec hc s hf, serveOp_rel hR (by decide) (by decide) (by decide) ht (.inl h.1) h.2⟩

/-- Frames that take in the reply. -/
theorem frame_replyRel {l : List Part} (hl : ∀ x ∈ replyParts, x ∈ l) : ServeRel replyParts (sameBut l) :=
  sameBut_serveRel hl

/-- Frames of calm states that take in the reply. -/
theorem calm_replyRel {l : List Part} (hl : ∀ x ∈ replyParts, x ∈ l) : ServeRel replyParts (calmBut l) :=
  calmBut_serveRel hl (by decide) (by decide)

section
variable {l : List Part} {c : Instr} {op : Nat} {d : OpDef} {p : Pkt} {s : State}
  (hl : ∀ x ∈ replyParts, x ∈ l) (hc : servedAs c = some (op, d, p)) (hs : servedOn c s = s)
  (hf : s.stepFour op = false) (ht : p.timed = false)
include hl hc hs hf ht

/-- A command that reads touches the parts that its effect touches, and those of its reply. -/
theorem touches_reads (h : Reads (sameBut l) d (ownOf op p s)) : Touches l c s := by
  obtain ⟨t, he, hr⟩ := exec_reads (frame_replyRel hl) hc hf ht (by rw [hs]; exact h)
  exact ⟨t, he, hs ▸ hr⟩

/-- A command whose effect leaves the state as it is. -/
theorem touches_plain (hj : ∀ q, d.jnl q = 0) (hr : ∀ j q u, ∃ r, d.run j q u = okOut u r) : Touches l c s := by
  refine touches_reads hl hc hs hf ht ⟨hj _, fun j u => ?_⟩
  obtain ⟨r, hrun⟩ := hr j (ownOf op p s) u
  rw [hrun]
  exact ends_okOut r (sameBut_refl _ u)

/-- In a calm state a command that reads touches what its effect then touches. -/
theorem touches_calm (h : Reads (calmBut l) d (ownOf op p s)) (hcalm : s.calm = true) : Touches l c s := by
  obtain ⟨t, he, hr⟩ := exec_reads (calm_replyRel hl) hc hf ht (by rw [hs]; exact h)
  rw [hs] at hr
  exact ⟨t, he, (hr hcalm).2⟩

end

/-! ### The effects that change something -/

/-- Records of all tiles are changed. -/
theorem allTiles_frame (s : State) (f : Tile → Tile) : sameBut [.pixels] s (s.allTiles f) := by
  refine sameBut_foldl (fun u t => ?_) _ s
  intro x hx
  cases x <;> first | exact absurd (by decide) hx | rfl | exact ⟨rfl, rfl⟩ | exact ⟨rfl, rfl, rfl⟩

/-- STATUS_GET clears its restart flag. -/
theorem statusGet_reads (q : Pkt) : Reads (sameBut replyParts) statusGetDef q :=
  ⟨rfl, fun _ u => ends_okOut _ (sameBut_mono (setCmd_frame u _) (by decide))⟩

/-- LIST is TIMED_EXEC with its first byte fixed as 2, so that no entry is cancelled. -/
theorem list_reads (p : Pkt) (s : State) (ht : p.timed = false) :
    Reads (sameBut replyParts) timedExecDef (ownOf 0x0E03 (p.fix 16 2) s) := by
  have hne : (ownOf 0x0E03 (p.fix 16 2) s).u8 16 ≠ 1 := by
    by_cases hlen : 0 < (ownOf 0x0E03 (p.fix 16 2) s).params.length
    · rw [ownOf_fix ht hlen]
      decide
    · have hnil : (ownOf 0x0E03 (p.fix 16 2) s).params = [] := List.length_eq_zero_iff.mp (by omega)
      unfold Pkt.u8
      rw [hnil]
      decide
  refine ⟨rfl, fun j u => ?_⟩
  simp only [timedExecDef, if_neg hne]
  exact ends_okOut _ (sameBut_refl _ u)

/-- The signature of a self-test that the spec leaves free is drawn. -/
theorem resultSig_frame (s : State) (ty tg : Nat) : sameBut [.free] s (s.resultSig ty tg).1 := by
  unfold State.resultSig
  split
  · exact freeW_frame s
  · exact sameBut_refl _ s

/-- SADDLE_STATUS clears what it is asked to clear. -/
theorem saddleStatus_reads (q : Pkt) : Reads (sameBut [.rings, .params, .firmware, .saddle]) saddleStatusDef q := by
  refine ⟨rfl, fun j u => ends_okOut _ ?_⟩
  split
  · intro x hx
    cases x <;> first | exact absurd (by decide) hx | rfl | exact ⟨rfl, rfl⟩ | exact ⟨rfl, rfl, rfl⟩
  · exact sameBut_refl _ u

/-- PWR_STATUS clears the fault record where it is asked to. -/
theorem pwrStatus_reads (q : Pkt) : Reads (sameBut [.rings, .params, .firmware, .power]) pwrStatusDef q := by
  refine ⟨rfl, fun j u => ends_okOut _ ?_⟩
  split
  · intro x hx
    cases x <;> first | exact absurd (by decide) hx | rfl | exact ⟨rfl, rfl⟩ | exact ⟨rfl, rfl, rfl⟩
  · exact sameBut_refl _ u

/-- ERRLOG_READ counts the lines of the rings that have been written, and empties the table where it is asked to. -/
theorem errlogRead_reads (q : Pkt) : Reads (sameBut [.rings, .params, .firmware, .memory]) errlogReadDef q := by
  refine ⟨rfl, fun j u => ends_okOut _ ?_⟩
  have h := sameBut_mono (ringsWritten_frame u) (m := [.rings, .params, .firmware, .memory]) (by decide)
  split
  · exact setMem_frame h (by decide) _ rfl rfl
  · exact h

/-! ### The effects that read lines (R273) -/

section
variable {R : State → State → Prop} (hR : ServeRel replyParts R)
include hR

/-- JRNL_READ reads entries one after another, and counts those that it cannot read. -/
theorem jrnlRead_reads (hfree : ∀ u : State, R u u.freeW.1) (hscan : ∀ k n j (u : State), R u (u.jScan k n j).1)
    (q : Pkt) : Reads R jrnlReadDef q := by
  refine ⟨rfl, fun j u => ?_⟩
  simp only [jrnlReadDef]
  split
  · exact ends_okOut _ (hfree u)
  · refine ends_okOut _ ?_
    split
    · exact hscan _ _ _ u
    · exact hR.trans (hscan _ _ _ u) (hR.base (sameBut_mono (bump_frame _ _ _) (by decide)))

omit hR in
/-- DIAG_MAP_READ reads the lines of the defect map. -/
theorem diagMapRead_reads (hread : ∀ req as (u : State), R u (u.readLines req as).1) (q : Pkt) :
    Reads R diagMapReadDef q := by
  refine ⟨rfl, fun j u => ?_⟩
  simp only [diagMapReadDef]
  split
  · exact ends_fails _ _ (hread _ _ u)
  · split <;> exact ends_okOut _ (hread _ _ u)

omit hR in
/-- STATE_DIGEST reads the lines of the scene store. -/
theorem stateDigest_reads (hread : ∀ req as (u : State), R u (u.readEach req as).1) (q : Pkt) :
    Reads R stateDigestDef q := by
  refine ⟨rfl, fun j u => ?_⟩
  have h : R u (u.readSpan 4 0x800000 0x180000).1 := hread 4 _ u
  simp only [stateDigestDef]
  split
  · exact ends_fails _ _ h
  · exact ends_okOut _ h

/-- MEM_READ cuts short the slices that its unit and its lines are in, and reads the lines. -/
theorem memRead_reads (hcvu : ∀ (u : State) k, R u (u.abortCvu k)) (hslice : ∀ as (u : State), R u (u.abortMrams as))
    (hread : ∀ req as (u : State), R u (u.readLines req as).1) (q : Pkt) : Reads R memReadDef q := by
  refine ⟨rfl, fun j u => ?_⟩
  have hu : R u (if usesCvu q then u.abortCvu (cvuOf q) else u) := by
    split
    · exact hcvu u _
    · exact hR.refl u
  have h := hR.trans hu (hR.trans (hslice (linesOf (q.u32 16) (q.u16 20)) _)
    (hread 5 (linesOf (q.u32 16) (q.u16 20)) _))
  simp only [memReadDef]
  split
  · exact ends_fails _ _ h
  · exact ends_okOut _ h

end

/-- In a calm state what leaves it as it is keeps every frame. -/
theorem calmBut_of_eq {l : List Part} {s t : State} (h : s.calm = true → t = s) : calmBut l s t := fun c => by
  rw [h c]
  exact ⟨c, sameBut_refl l s⟩

/-- A drawn value keeps a calm state calm. -/
theorem freeW_calm {l : List Part} (hl : .free ∈ l) (u : State) : calmBut l u u.freeW.1 :=
  calmBut_of (freeW_frame u) (by simpa using hl) (by decide) (by decide)

/-- A row that names no error keeps a calm state calm. -/
theorem arise_nil_calm (s : State) : calmBut [.rings, .memory] s (s.arise []) := fun c => by
  refine ⟨?_, arise_frame s []⟩
  simp only [State.calm, Bool.and_eq_true, List.isEmpty_iff] at c ⊢
  exact ⟨by simp [State.arise, State.ringsWritten, State.wholeWritten, c.1], c.2⟩

/-! ### The frames -/

/-- The commands whose effect reads registers alone leave everything but their reply. -/
theorem registerReads_touch {p : Pkt} (s : State) (ht : p.timed = false) :
    ∀ c ∈ ([.ping p, .identify p, .paramGet p, .statusGet p, .timeStatus p, .timingStatus p,
      .freezeStatus p, .strStatus p, .calStatus p, .scrubStatus p, .thermStatus p, .linkStatus p,
      .eyeRead p, .groupStatus p, .list p] : List Instr), Touches replyParts c s := by
  have plain {c : Instr} {op : Nat} {d : OpDef} (hc : servedAs c = some (op, d, p)) (hs : servedOn c s = s)
      (hf : s.stepFour op = false) := touches_plain (l := replyParts) (fun _ h => h) hc hs hf ht
  have status : Touches replyParts (.statusGet p) s :=
    touches_reads (fun _ h => h) rfl rfl rfl ht (statusGet_reads _)
  have list : Touches replyParts (.list p) s := touches_reads (fun _ h => h) rfl rfl rfl ht (list_reads p s ht)
  simp only [List.forall_mem_cons, List.not_mem_nil, false_implies, implies_true, and_true]
  refine ⟨?_, ?_, ?_, status, ?_, ?_, ?_, ?_, ?_, ?_, ?_, ?_, ?_, ?_, list⟩ <;>
    exact plain rfl rfl rfl (fun _ => rfl) fun _ _ _ => ⟨_, rfl⟩

/-- MEM_READ in any state. -/
theorem memRead_touches {p : Pkt} (ups : Upsets) (s : State) (ht : p.timed = false) :
    Touches (.firmware :: .bytes :: durParts) (.memRead p ups) s := by
  have hR := frame_replyRel (l := .firmware :: .bytes :: durParts) (by decide)
  obtain ⟨t, he, hr⟩ := exec_reads (c := .memRead p ups) (s := s) hR rfl rfl ht
    (memRead_reads hR (fun u k => sameBut_mono (abortCvu_dur u k) (by decide))
      (fun as u => sameBut_mono (abortMrams_frame as u) (by decide))
      (fun req as u => sameBut_mono (readLines_frame u req as) (by decide)) _)
  exact ⟨t, he, sameBut_trans (sameBut_mono (arise_frame s ups) (by decide)) hr⟩

/-- The parts that a command which reads lines changes in a calm state. -/
def calmReadParts : List Part := [.rings, .params, .firmware, .memory, .diag]

/-- MEM_READ in a calm state. -/
theorem memRead_touches_calm {p : Pkt} {s : State} (ht : p.timed = false) (hcalm : s.calm = true) :
    Touches calmReadParts (.memRead p []) s := by
  have hR := calm_replyRel (l := calmReadParts) (by decide)
  obtain ⟨t, he, hr⟩ := exec_reads (c := .memRead p []) (s := s) hR rfl rfl ht
    (memRead_reads hR (fun u k => calmBut_of_eq fun c => calm_abortSlice c _)
      (fun as u => calmBut_of_eq (abortMrams_calm as u))
      (fun req as u => calmBut_mono (readLines_calm req as u) (by decide)) _)
  exact ⟨t, he, (calmBut_trans (calmBut_mono (arise_nil_calm s) (by decide)) hr hcalm).2⟩

/-- Settles O9: each command's effect keeps its own frame, and serving a packet keeps it. -/
theorem readCommandsFrame : Obligations.ReadCommandsFrame := by
  intro p ups s ht
  refine ⟨registerReads_touch s ht, ?_, ?_, ?_, ?_, ?_, ?_, ?_, ?_, memRead_touches ups s ht, fun hcalm => ⟨?_, ?_⟩⟩
  · exact touches_reads (by decide) rfl rfl rfl ht
      ⟨rfl, fun _ u => ends_okOut _ (sameBut_mono (resultSig_frame u _ _) (by decide))⟩
  · exact touches_reads (by decide) rfl rfl rfl ht
      ⟨rfl, fun _ u => ends_okOut _ (sameBut_mono (allTiles_frame u _) (by decide))⟩
  · refine touches_reads (by decide) rfl rfl rfl ht ⟨rfl, fun _ u => ends_okOut _ ?_⟩
    split
    · exact sameBut_mono (allTiles_frame u _) (by decide)
    · exact sameBut_refl _ u
  · exact touches_reads (by decide) rfl rfl rfl ht (saddleStatus_reads _)
  · exact touches_reads (by decide) rfl rfl rfl ht (pwrStatus_reads _)
  · exact touches_reads (by decide) rfl rfl rfl ht (errlogRead_reads _)
  · exact touches_reads (by decide) rfl rfl rfl ht (jrnlRead_reads (frame_replyRel (by decide))
      (fun u => sameBut_mono (freeW_frame u) (by decide))
      (fun k n j u => sameBut_mono (jScan_frame k n j u) (by decide)) _)
  · simp only [List.forall_mem_cons, List.not_mem_nil, false_implies, implies_true, and_true]
    exact ⟨touches_reads (by decide) rfl rfl rfl ht
        (diagMapRead_reads (fun req as u => sameBut_mono (readLines_frame u req as) (by decide)) _),
      touches_reads (by decide) rfl rfl rfl ht
        (stateDigest_reads (fun req as u => sameBut_mono (readEach_frame u req as) (by decide)) _)⟩
  · exact touches_calm (by decide) rfl rfl rfl ht (jrnlRead_reads (calm_replyRel (by decide))
      (freeW_calm (by decide)) (fun k n j u => calmBut_mono (jScan_calm k n j u) (by decide)) _) hcalm
  · simp only [List.forall_mem_cons, List.not_mem_nil, false_implies, implies_true, and_true]
    exact ⟨touches_calm (by decide) rfl rfl rfl ht
        (diagMapRead_reads (fun req as u => calmBut_mono (readLines_calm req as u) (by decide)) _) hcalm,
      touches_calm (by decide) rfl rfl rfl ht
        (stateDigest_reads (fun req as u => calmBut_mono (readEach_calm req as u) (by decide)) _) hcalm,
      memRead_touches_calm ht hcalm⟩

end Sys2Proof.Machine
end

section
/-! PROOFS. Arrival (02_command_model.md R39, R40, R42, R49 to R51, R56): sequence numbers, addressing, the check of
the trailer, and the events that are raised. -/

namespace Sys2Proof

/-- What a table reads as where only some of its numbers are kept. -/
theorem tget_tkeep {α : Type} (d : Nat → α) (t : Tab α) (p : Nat → Bool) (k : Nat) :
    tget d (tkeep t p) k = if p k then tget d t k else d k := by
  induction t with
  | nil => simp [tkeep, tget]
  | cons e r ih =>
    obtain ⟨i, v⟩ := e
    by_cases hi : p i = true
    · rw [show tkeep ((i, v) :: r) p = (i, v) :: tkeep r p from List.filter_cons_of_pos hi]
      by_cases hik : i = k
      · subst hik
        simp [tget, hi]
      · simpa [tget, hik] using ih
    · rw [show tkeep ((i, v) :: r) p = tkeep r p from List.filter_cons_of_neg (by simpa using hi), ih]
      by_cases hik : i = k
      · subst hik
        simp [hi]
      · simp [tget, hik]

end Sys2Proof

namespace Sys2Proof.Machine

/-! ### Sequence numbers (R49 to R51) -/

/-- Posting a reply leaves the expected sequence numbers. -/
theorem postReply_expected (s : State) (p q : Pkt) (b : List Byte) : (s.postReply p b).expected q = s.expected q := by
  unfold State.postReply
  dsimp only
  split <;> rfl

/-- A reply that R53 sends and R51 does not retain is posted, and no more. -/
theorem reply_unkept {s : State} {op : Nat} {p : Pkt} {st step steps : Nat} {j : Word} {r : List Word} {gap : Bool}
    (h : replySent p st = true) : s.reply op p st step steps j r gap false
      = s.postReply p (replyBytes s op p st step steps j r gap false) := by
  unfold State.reply
  simp [h]

/-- The places of a ring's packets in the order of arrival leave the expected sequence numbers. -/
theorem takeIn_expected (s : State) (op : Nat) (p q : Pkt) (gap : Bool) :
    (s.takeIn op p gap).expected q = s.expected q := rfl

/-- A packet of which nothing is expected is in order. -/
theorem sequence_unexpected {s : State} {op : Nat} {p : Pkt} (hu : p.unicast = true) (he : s.expected p = none) :
    s.sequence op p = (s.expectNext p).takeIn op p false := by
  unfold State.sequence
  simp [hu, he]

/-- A unicast packet is judged by the distance of its SEQ from the expected one. -/
theorem sequence_expected {s : State} {op : Nat} {p : Pkt} {e : Word} (hu : p.unicast = true)
    (he : s.expected p = some e) : s.sequence op p
      = if (p.seq - e).toNat = 0 then (s.expectNext p).takeIn op p false
        else if (p.seq - e).toNat < 2 ^ 31 then
          if (s.ring p.ring).advance then (s.expectNext p).takeIn op p true
          else s.reply op p stSeqGap 0 1 0xFFFFFFFF [e] false false
        else s.duplicate op p e := by
  unfold State.sequence
  simp [hu, he]

/-- A configured ring loses the expected sequence numbers of both ports (R49). -/
theorem ringConfig_expected {q p : Pkt} {s : State} (j : Word) (h0 : q.u16 16 ≠ 0) (hr : p.ring < 48)
    (hm : p.ring ∈ (ringEntries q).map (·.1)) : (ringConfigDef.run j q s).s.expected p = none := by
  have hpair : pairOf p % 64 = p.ring := by
    unfold pairOf
    omega
  simp only [ringConfigDef, if_neg h0, okOut, State.expected]
  rw [tget_tkeep, if_neg]
  rw [hpair]
  simpa using hm

/-- Settles O16: each case of R49's distance, and the operations that set or drop an expected SEQ. -/
theorem sequenceNumbersJudged : Obligations.SequenceNumbersJudged := by
  intro s op p
  refine ⟨fun hu => ?_, sequence_unexpected, fun e hu he hs => ?_, fun e hu he h1 h2 ha => ?_,
    fun e hu he h1 h2 ha => ?_, fun e hu he h2 => ?_, fun gap => ⟨?_, takeIn_expected s op p p gap⟩,
    fun _ _ _ => rfl, fun q j => ringConfig_expected j⟩
  · unfold State.sequence
    simp [hu]
  · rw [sequence_expected hu he, if_pos (by simp [hs])]
  · rw [sequence_expected hu he, if_neg (by omega), if_pos h2, if_pos ha]
  · have hrej := sequence_expected (op := op) hu he
    rw [if_neg (by omega), if_pos h2, if_neg (by simp [ha]),
      reply_unkept (by simp [replySent, stSeqGap, stOk, stAccepted])] at hrej
    exact ⟨hrej, by rw [hrej, postReply_expected, he]⟩
  · rw [sequence_expected hu he, if_neg (by omega), if_neg (by omega)]
  · rw [takeIn_expected, expected_expectNext, if_pos rfl]

/-! ### Addressing (R39, R41) -/

/-- What becomes of a packet that has passed step 1 of R42, by its NODE. -/
theorem packetIn_sound {s : State} {port : Port} {l : List Byte} (h : arrivalSound l = true) :
    s.packetIn port l = if badAddress (packetOf port l) then s.bump pAddrDrops 1
      else if s.meant (opcodeOf l) (packetOf port l) then
        if s.pwr.linkOff then s.bump pPwrDrops 1 else s.arrive (opcodeOf l) (packetOf port l)
      else s := by
  unfold State.packetIn
  cases hm : s.meant (opcodeOf l) (packetOf port l) <;> simp [h, hm]

/-- Settles O17: each form of NODE, through the model's test of an address that names no engine, then its test of
what this engine accepts. -/
theorem addressingJudged : Obligations.AddressingJudged := by
  intro s port l hl op p taken serial
  have hin : s.packetIn port l = if badAddress p then s.bump pAddrDrops 1 else if s.meant op p then taken else s :=
    packetIn_sound hl
  rw [hin]
  refine ⟨fun hg hb => ?_, fun hg hb => ?_, fun hg hb h0 => ?_, fun hg hb h0 => ?_, fun hg hb => ?_⟩
  · simp [badAddress, State.meant, hg, hb, serial]
  · simp [badAddress, State.meant, hg, hb, serial]
  · simp [badAddress, State.meant, hg, hb, h0, serial]
  · simp [badAddress, hg, h0]
  · simp [badAddress, hg, hb]

/-! ### Events (R48, R52, R56) -/

/-- The state whose ESEQ an event has taken (R56, R57). -/
def State.eseqTaken (s : State) (sev : Nat) : State :=
  { s with cmd := { s.cmd with
    eseq := s.cmd.eseq + 1
    unack := if sev = 3 then s.cmd.unack ++ [s.cmd.eseq] else s.cmd.unack } }

/-- One port's copy of an event, where the port is enabled. -/
def State.copyOut (s : State) (on : Bool) (r src : Nat) (b : List Byte) : State :=
  if on then s.postEvent r src b else s

/-- An event takes its ESEQ, then goes to the rings of its severity on the two ports. -/
theorem evt_eq (s : State) (code sev src a0 a1 a2 a3 : Nat) : s.evt code sev src a0 a1 a2 a3
    = ((s.eseqTaken sev).copyOut (s.flag pEventPorts 0) (56 + sev) src (eventBytes s code sev src a0 a1 a2 a3)).copyOut
        (s.flag pEventPorts 1) (60 + sev) src (eventBytes s code sev src a0 a1 a2 a3) := rfl

/-- A copy of an event has been offered to a ring: taken where there is room, counted where there is none. -/
structure Offered (on : Bool) (r : Nat) (x : Record) (s t : State) : Prop where
  taken  : on = true → 1 ≤ s.outFree r → t.outRing r = s.outRing r ++ [x]
  full   : on = true → s.outFree r = 0 → t.outRing r = s.outRing r
  lost   : on = true → s.outFree r = 0 → s.live pEventsLost < t.live pEventsLost ∨ s.live pEventsLost = 2 ^ 32 - 1
  rings  : ∀ q, (on = true → q ≠ r) → t.outRing q = s.outRing q
  free   : ∀ q, q ≠ r → t.outFree q = s.outFree q
  live   : ∀ id, id ≠ pEventsLost → t.live id = s.live id
  count  : s.live pEventsLost ≤ t.live pEventsLost
  eseq   : t.cmd.eseq = s.cmd.eseq

/-- What a port's copy of an event does. -/
theorem copyOut_offered (s : State) (on : Bool) (r src : Nat) (b : List Byte) :
    Offered on r { bytes := b, src := src } s (s.copyOut on r src b) := by
  cases on with
  | false => exact ⟨nofun, nofun, nofun, fun _ _ => rfl, fun _ _ => rfl, fun _ _ => rfl, Nat.le_refl _, rfl⟩
  | true =>
    obtain ⟨hroom, hfull, hlive, hcount, hrest, heseq⟩ := postEvent_facts s r src b
    have heq : s.copyOut true r src b = s.postEvent r src b := rfl
    rw [heq]
    refine ⟨fun _ h => ?_, fun _ h => (hfull h).1 r, fun _ h => (hfull h).2, fun q hq => (hrest q (hq rfl)).1,
      fun q hq => (hrest q hq).2, hlive, hcount, heseq⟩
    rw [hroom h, outRing_pushOut, if_pos rfl]

/-- A parameter is 32 bits wide. -/
theorem live_lt (s : State) (id : Nat) : s.live id < 2 ^ 32 := (tget prmReset s.prm.live id).isLt

/-- Bytes with a trailer are those bytes, then their CRC. -/
theorem withCrc_split (l : List Byte) : (withCrc l).take l.length = l ∧ ofLe ((withCrc l).drop l.length) = crc32 l := by
  unfold withCrc
  refine ⟨List.take_left, ?_⟩
  rw [List.drop_left, crc_trailer]

/-- An event record ends in the CRC of the 28 bytes before. -/
theorem eventBytes_trailer (s : State) (code sev src a0 a1 a2 a3 : Nat) :
    ofLe ((eventBytes s code sev src a0 a1 a2 a3).drop 28) = crc32 ((eventBytes s code sev src a0 a1 a2 a3).take 28) := by
  obtain ⟨hbody, hcrc⟩ := withCrc_split (leBytes 2 code ++ leBytes 1 sev ++ leBytes 1 src ++ leBytes 4 s.cmd.eseq.toNat
    ++ leBytes 2 s.grp.node.toNat ++ leBytes 2 a0 ++ leBytes 6 s.us ++ leBytes 2 a1 ++ leBytes 4 a2 ++ leBytes 4 a3)
  simp only [List.length_append, leBytes_length] at hbody hcrc
  unfold eventBytes
  rw [hcrc, hbody]

/-- Settles O19: the two copies are offered to two rings, one after the other. -/
theorem eventsRaised : Obligations.EventsRaised := by
  intro s code sev src a0 a1 a2 a3 hsev t b
  let s1 := s.eseqTaken sev
  let s2 := s1.copyOut (s.flag pEventPorts 0) (56 + sev) src b
  have link : Offered (s.flag pEventPorts 0) (56 + sev) { bytes := b, src := src } s1 s2 := copyOut_offered _ _ _ _ _
  have spi : Offered (s.flag pEventPorts 1) (60 + sev) { bytes := b, src := src } s2 t := copyOut_offered _ _ _ _ _
  have ht := live_lt t pEventsLost
  have hmid : s2.outFree (60 + sev) = s.outFree (60 + sev) := link.free _ (by omega)
  have hmidRing : s2.outRing (60 + sev) = s.outRing (60 + sev) := link.rings _ fun _ => by omega
  have hlast : t.outRing (56 + sev) = s2.outRing (56 + sev) := spi.rings _ fun _ => by omega
  refine ⟨eventBytes_length .., eventBytes_trailer .., spi.eseq.trans link.eseq, fun k hk hon hroom => ?_,
    fun k hk hon hfull => ?_, fun r hr => ?_, fun id hid => (spi.live id hid).trans (link.live id hid),
    evt_frame s code sev src a0 a1 a2 a3⟩
  · obtain rfl | rfl : k = 0 ∨ k = 1 := by omega
    · exact hlast.trans (link.taken hon hroom)
    · exact (spi.taken hon (hmid ▸ hroom)).trans (by rw [hmidRing])
  · obtain rfl | rfl : k = 0 ∨ k = 1 := by omega
    · have hlost := link.lost hon hfull
      have hcount := spi.count
      exact ⟨hlast.trans (link.full hon hfull), hlost.imp_left fun h => Nat.lt_of_lt_of_le h hcount⟩
    · have hlost := spi.lost hon (hmid.trans hfull)
      have hcount : s.live pEventsLost ≤ s2.live pEventsLost := link.count
      have hlater := spi.count
      exact ⟨(spi.full hon (hmid.trans hfull)).trans hmidRing, by omega⟩
  · exact (spi.rings r fun hon => hr 1 (by decide) hon).trans (link.rings r fun hon => hr 0 (by decide) hon)

/-! ### The check of the trailer (R40, R42) -/

/-- The CRC run on from the CRC of the bytes before is that of all the bytes. -/
theorem crc32From_crc32 (a b : List Byte) : crc32From (crc32 a) b = crc32 (a ++ b) := by
  unfold crc32 crc32From
  rw [crcRun_append, Nat.xor_assoc, Nat.xor_self, Nat.xor_zero]

/-- A packet with its header, its PLEN words of parameters and a right trailer passes step 1 of R42. -/
theorem arrivalSound_withCrc {h b : List Byte} (hh : h.length = 16) (hp : ofLe ((h.drop 10).take 2) ≤ 1020)
    (hb : b.length = 4 * ofLe ((h.drop 10).take 2)) (hf : bitOf (byteAt h 2).toNat 7 = false) :
    arrivalSound (withCrc (h ++ b)) = true := by
  obtain ⟨hbody, hcrc⟩ := withCrc_split (h ++ b)
  have hlen : (withCrc (h ++ b)).length = 20 + 4 * ofLe ((h.drop 10).take 2) := by
    simp [withCrc, leBytes_length, hh, hb]
    omega
  have hplen : plenOf (withCrc (h ++ b)) = ofLe ((h.drop 10).take 2) := by
    simp [plenOf, withCrc, List.drop_append, List.take_append, hh]
  have hflags : byteAt (withCrc (h ++ b)) 2 = byteAt h 2 := by
    simp [byteAt, withCrc, List.getElem?_append, hh]
  have hn : packetLength (plenOf (withCrc (h ++ b))) - 4 = (h ++ b).length := by
    simp only [packetLength, hplen, List.length_append, hh, hb]
    omega
  have htrail : ((withCrc (h ++ b)).drop (h ++ b).length).take 4 = (withCrc (h ++ b)).drop (h ++ b).length :=
    List.take_of_length_le (by simp [withCrc, leBytes_length])
  rw [hplen] at hn
  simp only [arrivalSound, hplen, hn, htrail, hcrc, hbody, hflags, hf, hlen]
  simp [hp, packetLength, Nat.le_add_right_of_le]

/-- Settles O21: the register runs on, and the trailer of a packet is its CRC. -/
theorem checksumContinues : Obligations.ChecksumContinues :=
  ⟨crc32From_crc32, by decide +kernel, crc32_lt, fun _ _ hh hp hb hf => arrivalSound_withCrc hh hp hb hf⟩

end Sys2Proof.Machine
end

section
/-! PROOFS. The system commands that read complete (02_command_model.md system opcodes, 15_power_states.md
TIME_STATUS). -/

namespace Sys2Proof.Machine

/-- A command that is not journaled completes wherever its packet passes its checks: its effect, then the reply OK
with its result words. -/
theorem runs_answered {c : Instr} {op : Nat} {d : OpDef} {p : Pkt} {s : State} (eff : Pkt → State → State × List Word)
    (hc : servedAs c = some (op, d, p)) (hj : ∀ q, d.jnl q = 0)
    (hr : ∀ j q u, d.run j q u = okOut (eff q u).1 (eff q u).2) :
    Runs c op d p s fun q u => (eff q u).1.answered op q (eff q u).2 := by
  intro hp hf
  rw [servedAs_exec hc s hf, serveOp_passes hp]
  exact congrArg _ (execute_answered (eff := eff (ownOf op p (servedOn c s))) (hj _)
    fun j => hr j (ownOf op p (servedOn c s)) (authOf op p (servedOn c s)))

/-- Settles O28: each command's effect, with its result words. -/
theorem systemReadsComplete : Obligations.SystemReadsComplete := fun _ _ =>
  ⟨runs_answered (fun q u => (u, words64 u.pwr.devtime.toNat ++ wordsOf q.params)) rfl (fun _ => rfl) fun _ _ _ => rfl,
   runs_answered (fun _ u => (u, identifyWords u)) rfl (fun _ => rfl) fun _ _ _ => rfl,
   runs_answered (fun q u => (u, getWords q u)) rfl (fun _ => rfl) fun _ _ _ => rfl,
   runs_answered (fun _ u => ({ u with cmd := { u.cmd with restarted := false } }, statusWords u)) rfl (fun _ => rfl)
    fun _ _ _ => rfl,
   runs_answered (fun _ u => (u, timeStatusWords u)) rfl (fun _ => rfl) fun _ _ _ => rfl⟩

end Sys2Proof.Machine
end

section
/-! PROOFS. The values that the release of a power-on reset leaves (02_command_model.md, 15_power_states.md). -/

namespace Sys2Proof.Machine

/-- The rings of R48. -/
theorem reset_ring {r : Nat} (h : r < 64) : State.reset.ring r =
    if r < 8 then { cls := 0, advance := true, depth := 32 }
    else if r < 16 then { cls := 1, advance := true, depth := 128 }
    else if r < 32 then { cls := 2, advance := false, depth := 64 }
    else if r < 48 then { cls := 3, advance := false, depth := 128 }
    else { cls := 0, advance := false, depth := 240 } := by
  show ringDefault r = _
  unfold ringDefault
  rw [if_pos h]

/-- The counters of R61 start at 0. -/
theorem reset_counters {id : Nat} (h1 : pCrcDropsLink ≤ id) (h2 : id ≤ pRepliesLost) : State.reset.live id = 0 := by
  have all : ∀ n < pRepliesLost + 1, pCrcDropsLink ≤ n → State.reset.live n = 0 := by decide +kernel
  exact all id (Nat.lt_succ_of_le h2) h1

/-- Every cell of a row-group is blank (R63). -/
theorem reset_cells (g : Nat) {n : Nat} (h : n < 4096) :
    ((State.reset.rg g).list).getD n {} = { code := 0, mask := true } := by
  show blankCells.getD n {} = _
  rw [blankCells, List.getD_eq_getElem?_getD, List.getElem?_replicate, if_pos h]
  rfl

/-- Settles O3: rings, counters and cells have their own lemmas, and every other value is a field's reset value. -/
theorem resetValues : Obligations.ResetValues := by
  refine ⟨fun _ => reset_ring, fun _ => rfl, rfl, rfl, rfl, by decide +kernel, by decide +kernel, by decide +kernel,
    fun _ => reset_counters, fun g _ => reset_cells g, fun _ => rfl, fun _ _ => rfl, rfl, fun _ => rfl, rfl, rfl, rfl,
    rfl, rfl, rfl, fun l => ?_, rfl, by decide +kernel, rfl, rfl, rfl, rfl⟩
  cases l <;> exact ⟨rfl, rfl⟩

end Sys2Proof.Machine
end

section
/-! PROOFS. The rows of resets and power-up (15_power_states.md, 18_package_electrical.md). -/

namespace Sys2Proof.Machine

/-! ### Rows of the block's own clocks and pins (log 9) -/

section
variable {c : Instr} {dt : Nat} {s : State} {when : State → Bool} {f : State → State}

/-- A row without a premise acts at once. -/
theorem after_always (hc : exec c s = .next (f (s.elapse dt))) : After c dt s when f := fun _ => hc

/-- A row that acts where its premise holds. -/
theorem after_if {P : Prop} [Decidable P] {g : State}
    (hc : exec c s = .next (if P then f (s.elapse dt) else g)) (hw : when (s.elapse dt) = true → P) :
    After c dt s when f := fun h => by rw [hc, if_pos (hw h)]

/-- A row that acts where a condition that would stop it fails. -/
theorem after_unless {P : Prop} [Decidable P] {g : State}
    (hc : exec c s = .next (if P then g else f (s.elapse dt))) (hw : when (s.elapse dt) = true → ¬P) :
    After c dt s when f := fun h => by rw [hc, if_neg (hw h)]

end

/-! ### The supply and the test port -/

/-- A supply trip of an engine that runs resets it; one that is held is left where it is. -/
theorem exec_supplyTrip {dt : Nat} {rail : Rail} {s : State} (hd : (s.elapse dt).pwr.state ≠ .dormant)
    (hh : (s.elapse dt).supplyHolds = false) : exec (.supplyTrip dt rail) s
      = .next (let v := if (s.elapse dt).pwr.boot = .held then s.elapse dt else (s.elapse dt).fullReset .held 5 7
        { v with pwr := { v.pwr with supply := some (rail, v.clk), supplyMs := none } }) :=
  congrArg _ (if_neg (by simp [hd, hh]))

/-- A supply that holds again lets the engine go, with the time that it was away. -/
theorem exec_supplyRecovery {dt t : Nat} {rail : Rail} {s : State} (hs : (s.elapse dt).pwr.supply = some (rail, t))
    (hh : (s.elapse dt).supplyHolds = true) : exec (.supplyMonitorRecovery dt) s
      = .next (State.letGo { s.elapse dt with
          pwr := { (s.elapse dt).pwr with supplyMs := some (((s.elapse dt).clk - t) / 1000000) } }) := by
  show execSupplyMonitorRecovery dt s = _
  simp only [execSupplyMonitorRecovery, hs, hh, if_true]
  rfl

/-- A TAP instruction that holds the engine takes it into reset, where no such instruction does already (R401). -/
theorem exec_jtagHolds {dt : Nat} {code : BitVec 5} {s : State} (hc : tapHolds code = true)
    (ht : (s.elapse dt).tapHold = false) : exec (.jtagInstructionUpdate dt code) s
      = .next { (s.elapse dt).fullReset .held 4 1 with jtag := code, tapHold := true } := by
  show execJtagInstructionUpdate dt code s = _
  simp only [execJtagInstructionUpdate, hc, if_true]
  rw [if_neg (by simpa using ht)]

/-- Settles O58: each row's own arm, under its premise. -/
theorem resetEventsComplete : Obligations.ResetEventsComplete := by
  intro s dt
  refine ⟨fun rail h => ?_, fun rail h => ?_, fun rail t h => ?_, after_always rfl, after_always rfl, after_always rfl,
    after_unless rfl (by simp), fun d => after_unless rfl (by simp),
    fun dac cmp => after_if rfl fun h => by simpa [and_assoc] using h,
    fun code hc h => exec_jtagHolds hc (by simpa using h), fun code hc _ => ?_, after_if rfl id,
    after_unless rfl (by simp)⟩
  · simp only [Bool.and_eq_true, Bool.not_eq_true', decide_eq_true_eq] at h
    obtain ⟨⟨hd, hh⟩, hb⟩ := h
    rw [exec_supplyTrip hd hh, if_neg hb]
  · simp only [Bool.and_eq_true, Bool.not_eq_true', decide_eq_true_eq] at h
    obtain ⟨⟨hd, hh⟩, hb⟩ := h
    rw [exec_supplyTrip hd hh, if_pos hb]
  · simp only [Bool.and_eq_true, decide_eq_true_eq] at h
    exact exec_supplyRecovery h.1 h.2
  · exact congrArg _ (if_neg (by simp [hc]))

end Sys2Proof.Machine
end

section
/-! PROOFS. The rows of the ports (07_plokam_link.md, 02_command_model.md R44): blocks, records and SPI transactions. -/

namespace Sys2Proof.Machine

/-! ### The SPI port (R44) -/

section
variable {s : State}

/-- PKT_WRITE delivers its bytes while the port answers. -/
theorem pktWrite_on (h : s.spiOn = true) (l : List Byte) :
    s.pktWrite l = State.packetIn { s with cmd := { s.cmd with sdo := some [] } } .spi l := if_pos h

/-- STATUS_POLL drives the poll word while the port answers. -/
theorem statusPoll_on (h : s.spiOn = true) :
    s.statusPoll = { s with cmd := { s.cmd with sdo := some (0 :: leBytes 8 s.pollWord), subFull := false } } :=
  if_pos h

/-- RING_READ drives the head record of the ring that it names, and consumes it if all of it is clocked out. -/
theorem ringRead_record {sel : Byte} {r : Nat} {x : Record} (h : s.spiOn = true) (hr : s.readRing sel = some r)
    (hx : (s.outHead r).2 = some x) (n : Nat) : s.ringRead sel n
      = (let w := (s.outHead r).1.drive (some (0 :: (leBytes 2 x.bytes.length ++ x.bytes.take n)))
         if x.bytes.length ≤ n then (w.popOut r).negoTick else w) := by
  unfold State.ringRead
  simp [h, hr, hx]

/-- RING_READ of a ring without a record drives the length 0. -/
theorem ringRead_empty {sel : Byte} {r : Nat} (h : s.spiOn = true) (hr : s.readRing sel = some r)
    (hx : (s.outHead r).2 = none) (n : Nat) :
    s.ringRead sel n = (s.outHead r).1.drive (some (0 :: leBytes 2 0)) := by
  unfold State.ringRead
  simp [h, hr, hx]

end

/-! ### The return of a lane (R43, R48, R174) -/

/-- The head record of the link rings goes out on a return that can send, and leaves its ring. -/
theorem sendHead_open {s : State} {l : Lane} {r : Nat} {x : Record} (ha : s.admits l = true)
    (ho : returnOpen (s.lane l) = true) (hx : (State.firstRecord linkRings s).2 = some (r, x)) : s.sendHead l
      = ((State.firstRecord linkRings s).1.putRecord l (if r < 56 then 3 else 4) x.bytes).popOut r := by
  unfold State.sendHead
  simp [ha, ho, hx]

/-- A record goes out on the lane, and in mirror mode on its partner's open return with the same BSEQ (R174). -/
theorem putRecord_eq (v : State) (l : Lane) (typ : Nat) (b : List Byte) : v.putRecord l typ b
    = if v.mirror = true ∧ returnOpen (v.lane (partner l)) = true then
        (v.setLane l (sendRecord (v.lane l) typ b v.clk)).setLane (partner l)
          (sendRecord { v.lane (partner l) with retBseq := (v.lane l).retBseq } typ b v.clk)
      else v.setLane l (sendRecord (v.lane l) typ b v.clk) := by
  unfold State.putRecord
  simp only [Bool.and_eq_true]

/-- Settles O47: each row's own arm, under its premise. -/
theorem portsComplete : Obligations.PortsComplete := by
  intro s dt
  refine ⟨fun _ _ _ => rfl, fun l r x h => ?_, fun l h => congrArg _ (pktWrite_on h l), fun sel n r x h => ?_,
    fun sel n r h => ?_, fun h => congrArg _ (statusPoll_on h)⟩
  · simp only [Bool.and_eq_true, decide_eq_true_eq] at h
    obtain ⟨⟨ha, ho⟩, hx⟩ := h
    show Host.Outcome.next (((s.elapse dt).lines.sendHead l).negoTick) = _
    rw [sendHead_open ha ho hx, putRecord_eq]
  · simp only [Bool.and_eq_true, decide_eq_true_eq] at h
    obtain ⟨⟨hon, hr⟩, hx⟩ := h
    exact congrArg _ (ringRead_record hon hr hx n)
  · simp only [Bool.and_eq_true, decide_eq_true_eq, Option.isNone_iff_eq_none] at h
    obtain ⟨⟨hon, hr⟩, hx⟩ := h
    exact congrArg _ (ringRead_empty hon hr hx n)

end Sys2Proof.Machine
end

section
/-! PROOFS. The rows of the servers (02_command_model.md R46, R58, R276, R369): the class-0 decoder, the sequencer,
steps of jobs, the accounting interval, the release of timed entries. -/

namespace Sys2Proof.Machine

/-- A packet at the head of its ring runs where all its lines can be read; else it counts, and is answered where its
first line can be read (R276). -/
theorem serveHead_eq (w : Waiting) (u : State) : serveHead w u
    = (let lines := u.ringLines w.pkt.ring (u.headSlot w.pkt.ring) (pktSlots w.pkt)
       let rd := u.ringsWritten.readEach 10 lines
       let t := rd.1.unqueue w
       if rd.2 = [] then serveTaken w t
       else if lines.headD 0 ∈ rd.2 then t.bump pRingMemDrops 1
       else (t.bump pRingMemDrops 1).reject w.opcode w.pkt stMemFault [] w.gap) := by
  unfold serveHead
  simp only [List.isEmpty_iff, List.contains_iff_mem]

section
variable {u : State}

/-- The class-0 decoder takes the oldest class-0 packet while its clock runs. -/
theorem contextWrite_takes {w : Waiting} (hc : u.seqClocked = true) (hl : u.pwr.linkOff = false)
    (hw : u.cmd.waiting.find? (fun x => decide (x.pkt.cls = 0)) = some w) : u.contextWrite = serveHead w u := by
  unfold State.contextWrite
  simp [hc, hl, hw]

/-- The sequencer counts the pick, and takes a released entry of the class that it picks. -/
theorem sequencerTake_timed {c : Nat} {t : Timed} (hs : u.cmd.serving = true) (hr : u.seqRuns = true)
    (hl : u.pwr.linkOff = false) (hc : u.pickClass = some c) (ht : u.nextTimed c = some t) : u.sequencerTake
      = State.takeTimed { u with cmd := { u.cmd with picks := (u.cmd.picks + 1) % 16 } } t := by
  unfold State.sequencerTake
  simp [hs, hr, hl, hc, ht]

/-- Where the class has no released entry it takes the packet at the head of the ring that is next. -/
theorem sequencerTake_ring {c r : Nat} {w : Waiting} (hs : u.cmd.serving = true) (hr : u.seqRuns = true)
    (hl : u.pwr.linkOff = false) (hc : u.pickClass = some c) (ht : u.nextTimed c = none)
    (hn : u.nextRing c = some r) (hw : u.ringHead r = some w) : u.sequencerTake
      = State.takeRing { u with cmd := { u.cmd with picks := (u.cmd.picks + 1) % 16 } } c r w := by
  unfold State.sequencerTake
  simp [hs, hr, hl, hc, ht, hn, hw]

/-- The oldest job that is ready runs its next step. -/
theorem multiStep_runs {b : Job} (hs : u.cmd.serving = true) (hr : u.seqRuns = true)
    (hb : u.cmd.jobs.find? u.stepReady = some b) : u.multiStep = (u.runStep b).negoTick := by
  unfold State.multiStep
  simp [hs, hr, hb]

/-- The accounting interval of class 0 ends with C0_OVERLOAD (R58). -/
theorem c0Overload_ends {c : C0Interval} (h : u.cmd.c0Open = some c) : u.c0Overload
    = State.evt { u with cmd := { u.cmd with c0Open := none } } 0x0004 1 c.first (min c.count 65535) 0 c.largest 0 := by
  unfold State.c0Overload
  rw [h]

end

/-- Settles O48: each row's own arm, under its premise. -/
theorem sequencerComplete : Obligations.SequencerComplete := by
  intro s dt ups lines rd runs
  have hruns (w : Waiting) (u : State) : serveHead w u = runs w u := serveHead_eq w u
  refine ⟨fun w h => ?_, fun c t h => ?_, fun c r w h => ?_, fun b h => ?_, fun c h => ?_, ?_⟩
  · simp only [Bool.and_eq_true, Bool.not_eq_true', decide_eq_true_eq] at h
    obtain ⟨⟨hc, hl⟩, hw⟩ := h
    exact congrArg _ ((contextWrite_takes hc hl hw).trans (hruns w _))
  · simp only [Bool.and_eq_true, Bool.not_eq_true', decide_eq_true_eq] at h
    obtain ⟨⟨⟨⟨hs, hr⟩, hl⟩, hc⟩, ht⟩ := h
    exact congrArg _ (sequencerTake_timed hs hr hl hc ht)
  · simp only [Bool.and_eq_true, Bool.not_eq_true', decide_eq_true_eq, Option.isNone_iff_eq_none] at h
    obtain ⟨⟨⟨⟨⟨⟨hs, hr⟩, hl⟩, hc⟩, ht⟩, hn⟩, hw⟩ := h
    exact congrArg _ ((sequencerTake_ring hs hr hl hc ht hn hw).trans (hruns w _))
  · simp only [Bool.and_eq_true, decide_eq_true_eq] at h
    obtain ⟨⟨hs, hr⟩, hb⟩ := h
    exact congrArg _ (multiStep_runs hs hr hb)
  · exact congrArg _ (c0Overload_ends (of_decide_eq_true h))
  · exact after_unless rfl (by simp +contextual)

end Sys2Proof.Machine
end

section
/-! PROOFS. Dither over a frame (03_pixel_drive.md R76, R77): over the N sub-frames j takes each value once, and
reversing its bits permutes the values, so that the codes b + 1 are exactly r. -/

namespace Sys2Proof.Machine

/-! ### Counting through a permutation of the numbers below n -/

/-- A map of the numbers below `n` to themselves that takes no value twice takes each value once. -/
theorem range_map_perm {n : Nat} {g : Nat → Nat} (hlt : ∀ k < n, g k < n)
    (hinj : ∀ i < n, ∀ j < n, g i = g j → i = j) : ((List.range n).map g).Perm (List.range n) := by
  have hnodup : ((List.range n).map g).Nodup := List.pairwise_map.2 <| List.nodup_range.imp_of_mem
    fun hi hj hne h => hne (hinj _ (List.mem_range.1 hi) _ (List.mem_range.1 hj) h)
  have hsub : (List.range n).map g ⊆ List.range n := fun j hj => by
    obtain ⟨k, hk, rfl⟩ := List.mem_map.1 hj
    exact List.mem_range.2 (hlt k (List.mem_range.1 hk))
  refine (List.perm_ext_iff_of_nodup hnodup List.nodup_range).2 fun j => ⟨fun hj => hsub hj, fun hj => ?_⟩
  refine Decidable.byContradiction fun hmiss => ?_
  have hlen := (List.nodup_cons.2 ⟨hmiss, hnodup⟩).length_le_of_subset (List.cons_subset.2 ⟨hj, hsub⟩)
  rw [List.length_cons, List.length_map] at hlen
  exact Nat.not_succ_le_self _ hlen

/-- Numbers below `n` that the same shift takes to one value modulo `n` are the same. -/
theorem add_mod_inj {n i j : Nat} (c : Nat) (hi : i < n) (hj : j < n) (h : (i + c) % n = (j + c) % n) : i = j := by
  have hc : c ≤ n * c := Nat.le_mul_of_pos_left c (Nat.zero_lt_of_lt hi)
  have hback (m : Nat) : m + c + (n * c - c) = m + n * c := by omega
  have hturn := Nat.add_mod_eq_add_mod_right (n * c - c) h
  rwa [hback, hback, Nat.add_mul_mod_self_left, Nat.add_mul_mod_self_left, Nat.mod_eq_of_lt hi,
    Nat.mod_eq_of_lt hj] at hturn

/-- Of the numbers below `n`, `r` are below `r`. -/
theorem countP_range_lt {n r : Nat} (h : r ≤ n) : (List.range n).countP (fun j => decide (j < r)) = r := by
  obtain ⟨m, rfl⟩ := Nat.exists_eq_add_of_le h
  rw [List.range_add, List.countP_append, List.countP_eq_length.2 (by simp), List.countP_eq_zero.2 (by simp),
    List.length_range, Nat.add_zero]

/-- A sum of terms that are each `b` or, where `p` holds, one more. -/
theorem sumOf_map_add_one_if (l : List Nat) (p : Nat → Bool) (b : Nat) :
    sumOf (l.map fun k => if p k then b + 1 else b) = l.length * b + l.countP p := by
  rw [sumOf, ← List.sum_eq_foldl]
  induction l with
  | nil => simp
  | cons k l ih =>
    rw [List.map_cons, List.sum_cons, ih, List.countP_cons, List.length_cons, Nat.succ_mul]
    split <;> omega

/-! ### The order in which the sub-frames of a frame take b + 1 (R77) -/

/-- Reversing `f` bits gives `f` bits. -/
theorem bitRev_lt (f j : Nat) : bitRev f j < 2 ^ f := by
  induction f generalizing j with
  | zero => exact Nat.one_pos
  | succ f ih =>
    have hrest := ih (j / 2)
    rw [bitRev, Nat.pow_succ]
    rcases Nat.mod_two_eq_zero_or_one j with h | h <;> rw [h] <;> omega

/-- Two numbers of `f` bits with the same reversal are the same. -/
theorem bitRev_inj {f i j : Nat} (hi : i < 2 ^ f) (hj : j < 2 ^ f) (h : bitRev f i = bitRev f j) : i = j := by
  induction f generalizing i j with
  | zero => omega
  | succ f ih =>
    rw [Nat.pow_succ] at hi hj
    rw [bitRev, bitRev] at h
    have hil := bitRev_lt f (i / 2)
    have hjl := bitRev_lt f (j / 2)
    obtain ⟨hlow, hrev⟩ : i % 2 = j % 2 ∧ bitRev f (i / 2) = bitRev f (j / 2) := by
      rcases Nat.mod_two_eq_zero_or_one i with a | a <;> rcases Nat.mod_two_eq_zero_or_one j with b | b <;>
        rw [a, b] at h <;> omega
    have hhigh : i / 2 = j / 2 := ih (by omega) (by omega) hrev
    omega

/-- N is a power of two with `log2N` its exponent. -/
theorem two_pow_log2N {n : Nat} (h : n = 4 ∨ n = 8 ∨ n = 16 ∨ n = 32) : 2 ^ log2N n = n := by
  rcases h with rfl | rfl | rfl | rfl <;> rfl

/-- The place of sub-frame `k` in the order in which a pixel's sub-frames take b + 1: `bitrev` of R77's j. -/
def ditherPlace (ctrl n k x y : Nat) : Nat :=
  bitRev (log2N n) ((k + if bitOf ctrl 1 then x + 2 * y else 0) % n)

/-- With DITHER_EN set a sub-frame whose place is below r carries b + 1, and another b. -/
theorem ditherCode_eq {ctrl : Nat} (h : bitOf ctrl 0 = true) (n k x y i : Nat) :
    ditherCode ctrl n k x y i =
      let e := (i * 1023 * n + 32767) / 65535
      if ditherPlace ctrl n k x y < e % n then e / n + 1 else e / n := by
  unfold ditherCode ditherPlace
  rw [if_pos h]
  cases bitOf ctrl 1 <;> simp [Nat.add_assoc]

section
variable {n : Nat} (hn : n = 4 ∨ n = 8 ∨ n = 16 ∨ n = 32)
include hn

/-- Over a frame the sub-frames' places are the numbers below N, each once. -/
theorem ditherPlace_perm (ctrl x y : Nat) :
    ((List.range n).map fun k => ditherPlace ctrl n k x y).Perm (List.range n) := by
  have hpow := two_pow_log2N hn
  have hpos : 0 < n := by omega
  have hbits (m : Nat) : m % n < 2 ^ log2N n := hpow.symm ▸ Nat.mod_lt m hpos
  refine range_map_perm (fun k _ => ?_) fun i hi j hj hij => ?_
  · exact Nat.lt_of_lt_of_eq (bitRev_lt _ _) hpow
  · exact add_mod_inj _ hi hj (bitRev_inj (hbits _) (hbits _) hij)

/-- Exactly r sub-frames of a frame have a place below r. -/
theorem ditherPlace_countP (ctrl x y : Nat) {r : Nat} (hr : r ≤ n) :
    (List.range n).countP (fun k => decide (ditherPlace ctrl n k x y < r)) = r := by
  have h := (ditherPlace_perm hn ctrl x y).countP_eq fun j => decide (j < r)
  rw [List.countP_map, countP_range_lt hr] at h
  exact h

end

/-- E is at most 1,023 × N (R76). -/
theorem frameSteps_le {i : Nat} (hi : i ≤ 65535) (n : Nat) : (i * 1023 * n + 32767) / 65535 ≤ 1023 * n := by
  have hscale : i * (1023 * n) ≤ 65535 * (1023 * n) := Nat.mul_le_mul_right _ hi
  rw [Nat.mul_assoc]
  omega

/-- Where E leaves a remainder, b is below 1,023. -/
theorem div_lt_of_mod_pos {e n c : Nat} (he : e ≤ c * n) (hr : 0 < e % n) : e / n < c := by
  have hsplit := Nat.div_add_mod e n
  exact Nat.lt_of_mul_lt_mul_left (a := n) (by rw [Nat.mul_comm n c]; omega)

/-- Settles O23: each code is b or, at the r places below r, b + 1. -/
theorem ditherHoldsIntensity : Obligations.DitherHoldsIntensity := by
  intro ctrl n x y i hn hi hd e
  have hpos : 0 < n := by omega
  have he : e ≤ 1023 * n := frameSteps_le hi n
  have hcode (k : Nat) : ditherCode ctrl n k x y i = if ditherPlace ctrl n k x y < e % n then e / n + 1 else e / n :=
    ditherCode_eq hd n k x y i
  have hcount := ditherPlace_countP hn ctrl x y (Nat.le_of_lt (Nat.mod_lt e hpos))
  refine ⟨?_, fun k _ => ?_, ?_⟩
  · have hsum := sumOf_map_add_one_if (List.range n) (fun k => decide (ditherPlace ctrl n k x y < e % n)) (e / n)
    simp only [decide_eq_true_eq] at hsum
    rw [List.map_congr_left fun k _ => hcode k, hsum, hcount, List.length_range, Nat.div_add_mod]
  · rw [hcode]
    split
    next hlt => exact ⟨.inr rfl, div_lt_of_mod_pos he (Nat.zero_lt_of_lt hlt)⟩
    next => exact ⟨.inl rfl, Nat.div_le_of_le_mul (by rwa [Nat.mul_comm])⟩
  · have hone (k : Nat) : decide (ditherCode ctrl n k x y i = e / n + 1)
        = decide (ditherPlace ctrl n k x y < e % n) := by
      rw [hcode, decide_eq_decide]
      split
      next hlt => simp [hlt]
      next hge => simp [hge]
    simp only [hone]
    rw [← List.countP_eq_length_filter, hcount]

end Sys2Proof.Machine
end

section
/-! PROOFS. What the assertion of RESETn leaves (16_journal_recovery_firmware.md R352). -/

namespace Sys2Proof.Machine

/-- Where no writes are held back, the stored records are the records (R314). -/
theorem asStored_of_not_held {v : Nvm} (h : v.held = none) : v.asStored = v := by
  unfold Nvm.asStored
  rw [h]

/-- After a full reset exactly the MRAM lines that were unreadable still are (R287). -/
theorem fullReset_poison (s : State) (boot : Boot) (cause wake a : Nat) :
    a ∈ (s.fullReset boot cause wake).mem.poison ↔ a ∈ s.mem.poison ∧ 0x10000000 ≤ a ∧ a < 0x20000000 := by
  simp [State.fullReset, List.mem_filter]

/-- Settles O24: the lines that cannot be read and the stored records have their own lemmas, and every other value
is a field that the full reset sets or keeps. -/
theorem fullResetLeaves : Obligations.FullResetLeaves := by
  intro s dt
  refine ⟨_, rfl, fun _ => rfl, rfl, fun _ => rfl, rfl, rfl, rfl, rfl, fun g _ => reset_cells g,
    fun _ => rfl, fun _ _ => rfl, fun _ => rfl, rfl, rfl, fun _ => rfl, rfl, asStored_of_not_held, rfl, rfl, rfl, rfl,
    fun a ha hm => ?_, fun a hlo hhi => ?_, rfl, rfl, rfl⟩
  · have hkept := (fullReset_poison (s.elapse dt) .held 4 1 a).1 hm
    omega
  · exact (fullReset_poison (s.elapse dt) .held 4 1 a).trans (and_iff_left ⟨hlo, hhi⟩)

end Sys2Proof.Machine
end

section
/-! PROOFS. The overlay commands complete (04_composition.md: OVL_SET, OVL_CLEAR, LUT_WRITE, WINDOW_SET). -/

namespace Sys2Proof.Machine

/-- A journaled command that ends at once completes wherever its packet passes its checks: its entry, its effect, the
entry's end, then the reply OK with its result words. -/
theorem runs_journaled {c : Instr} {op : Nat} {d : OpDef} {p : Pkt} {s : State} {b : Pkt → Bool}
    {eff : Pkt → State → State × List Word}
    (hc : s.stepFour op = false → exec c s = .next (serveOp op d p false (servedOn c s)))
    (hb : ∀ q, b q = (decide (d.jnl q = 2) || q.durable)) (hj : ∀ q, d.jnl q = 1 ∨ d.jnl q = 2)
    (hr : ∀ j q u, d.run j q u = okOut (eff q u).1 (eff q u).2) :
    Runs c op d p s fun q u => u.journaled op q (b q) (eff q) := fun hp hf => by
  rw [hc hf, serveOp_passes hp]
  exact congrArg _ (execute_journaled (hb _) (hj _) (hr _ _ _))

/-- LUT_WRITE is served at once while no bank is copied (R92). -/
theorem exec_lutWrite_served {p : Pkt} {s : State} (h : s.comp.lutCopying = false) :
    exec (.lutWrite p) s = .next (serveOp 0x0307 lutWriteDef p false s) :=
  congrArg _ (if_neg (by simp [h]))

/-- LUT_WRITE waits while a bank is copied (R92). -/
theorem exec_lutWrite_waits {p : Pkt} {s : State} (h : s.comp.lutCopying = true) :
    exec (.lutWrite p) s = .next { s with comp := { s.comp with
      lutWaiting := s.comp.lutWaiting ++ [{ opcode := 0x0307, pkt := p, gap := false }] } } :=
  congrArg _ (if_pos h)

/-- Settles O34: each command is served, LUT_WRITE once no bank is copied, and does its own effect. -/
theorem overlayCommandsComplete : Obligations.OverlayCommandsComplete := fun s _ =>
  ⟨runs_journaled (servedAs_exec rfl s) (fun _ => rfl) (fun _ => .inl rfl) fun _ _ _ => rfl,
   runs_journaled (servedAs_exec rfl s) (fun _ => rfl) (fun _ => .inl rfl) fun _ _ _ => rfl,
   fun h => runs_journaled (fun _ => exec_lutWrite_served h) (fun _ => rfl) (fun _ => .inl rfl) fun _ _ _ => rfl,
   exec_lutWrite_waits,
   runs_journaled (servedAs_exec rfl s) (fun _ => rfl) (fun _ => .inl rfl) fun _ _ _ => rfl⟩

end Sys2Proof.Machine
end

section
/-! PROOFS. The rows of frame timing (08_frame_timing_scanout.md) and of the bank copy (04_composition.md R92). -/

namespace Sys2Proof.Machine

section
variable {dt : Nat} {s : State}

/-- A plan instant at which a plan is made: the return from limp is armed at its seam, then the plan. -/
theorem exec_planInstant_plans {dup : Bool} (h : (s.elapse dt).plansNow = true) : exec (.planInstant dt dup) s
    = .next (let u := s.elapse dt
      let r := if u.frm.ret = some .limpToFallback ∧ u.seamNext then
        { u with frm := { u.frm with retArmed := true } } else u
      let v := r.abortSlice fun ty _ => decide (ty = 4)
      (v.makePlan v.seamNext).govCompare dup) :=
  congrArg _ (if_pos h)

/-- A latch instant latches the seam set, which it forms if none stands formed. -/
theorem exec_latchInstant_latches {v : State} {x : SeamSet} (hr : (s.elapse dt).frm.running = true)
    (hv : (if (s.elapse dt).frm.seam.isSome then s.elapse dt else (s.elapse dt).formSeam) = v)
    (hx : v.frm.seam = some x) : exec (.latchInstant dt) s = .next ((v.latch x).negoTick) := by
  show execLatchInstant dt s = _
  simp only [execLatchInstant, hr, hv, hx, Bool.not_true, Bool.false_eq_true, if_false]

/-- The phase lock of a bridge that is not yet placed places it (R195). -/
theorem exec_ptbLock_fixes {off : Nat} {c : Change} (hc : (s.elapse dt).frm.change = some c)
    (hb : (c.bridge && !c.fixed) = true) : exec (.ptbLock dt off) s
      = .next { s.elapse dt with frm := { (s.elapse dt).frm with change := some ((s.elapse dt).fixChange c off) } } := by
  show execPtbLock dt off s = _
  simp only [execPtbLock, hc, hb, if_true]

/-- The copy of a frame's missing lines ends (R201). -/
theorem exec_frameReady_ends {b m : Nat} {f : Word} (h : (s.elapse dt).frm.copying = some (b, f, m)) :
    exec (.frameReady dt) s = .next ((s.elapse dt).frameReady b f m) := by
  show execFrameReady dt s = _
  simp only [execFrameReady, h]

end

/-- Settles O50: each row's own arm, under its premise. -/
theorem frameEventsComplete : Obligations.FrameEventsComplete := by
  intro s dt
  refine ⟨fun dup h => ?planned, fun dup h => ?armed, after_if rfl fun h => by simpa using h, fun x h => ?latched,
    fun x h => ?formed, fun falling => after_if rfl of_decide_eq_true,
    fun falling => after_unless rfl of_decide_eq_true,
    after_if rfl fun h => ((Bool.or_eq_true _ _).mp h).imp_left of_decide_eq_true,
    fun off c h => ?locked, fun b f m h => exec_frameReady_ends (of_decide_eq_true h), after_if rfl id⟩
  case planned =>
    simp only [Bool.and_eq_true, Bool.not_eq_true', Bool.and_eq_false_imp, decide_eq_true_eq] at h
    obtain ⟨hp, hr⟩ := h
    rw [exec_planInstant_plans hp]
    dsimp only
    rw [if_neg fun ⟨h1, h2⟩ => by simp [hr h1] at h2]
  case armed =>
    simp only [Bool.and_eq_true, decide_eq_true_eq] at h
    obtain ⟨⟨hp, hr⟩, hs⟩ := h
    rw [exec_planInstant_plans hp]
    dsimp only
    rw [if_pos ⟨hr, hs⟩]
  case latched =>
    simp only [Bool.and_eq_true, decide_eq_true_eq] at h
    obtain ⟨hr, hx⟩ := h
    exact exec_latchInstant_latches hr (if_pos (by rw [hx]; rfl)) hx
  case formed =>
    simp only [Bool.and_eq_true, decide_eq_true_eq, Option.isNone_iff_eq_none] at h
    obtain ⟨⟨hr, hn⟩, hx⟩ := h
    exact exec_latchInstant_latches hr (if_neg (by rw [hn]; decide)) hx
  case locked =>
    simp only [Bool.and_eq_true, decide_eq_true_eq] at h
    obtain ⟨⟨hc, hb⟩, hx⟩ := h
    exact exec_ptbLock_fixes hc (by rw [hb, hx]; rfl)

end Sys2Proof.Machine
end

section
/-! PROOFS. What the class-0 commands over contexts, forced level and bend can change (05_glare_free_shadowing.md
R123, R138; 04_composition.md R95). -/

namespace Sys2Proof.Machine

/-! ### Relations over the shadowing state -/

/-- A relation that sees the shadowing state alone, and composes. -/
structure ShadowRel (Q : State → State → Prop) : Prop where
  trans : ∀ {s t u}, Q s t → Q t u → Q s u
  ofShd : ∀ {s t : State}, t.shd = s.shd → Q s t

/-- The forced level is kept. -/
def ForceKept (s t : State) : Prop := t.shd.force = s.shd.force
/-- The contexts that a list does not name are kept. -/
def CtxKept (l : List Nat) (s t : State) : Prop := ∀ n, n ∉ l → t.ctx n = s.ctx n
/-- Contexts change by a release alone, which keeps their other fields (R123). -/
def OnlyReleased (s t : State) : Prop := ∀ n, t.ctx n = s.ctx n ∨ t.ctx n = { s.ctx n with active := false }

/-- A context is part of the shadowing state. -/
theorem ctx_of_shd {s t : State} (h : t.shd = s.shd) (n : Nat) : t.ctx n = s.ctx n := by
  unfold State.ctx
  rw [h]

theorem forceKept_rel : ShadowRel ForceKept := ⟨fun h k => Eq.trans k h, fun h => congrArg Shd.force h⟩

theorem ctxKept_rel (l : List Nat) : ShadowRel (CtxKept l) :=
  ⟨fun h k n hn => (k n hn).trans (h n hn), fun h n _ => ctx_of_shd h n⟩

theorem onlyReleased_rel : ShadowRel OnlyReleased where
  trans h k n := by
    cases k n with
    | inl kn => rw [kn]; exact h n
    | inr kn =>
      right
      cases h n with
      | inl hn => rw [kn, hn]
      | inr hn => rw [kn, hn]
  ofShd h n := .inl (ctx_of_shd h n)

/-- Two relations at once. -/
theorem ShadowRel.and {Q Q' : State → State → Prop} (h : ShadowRel Q) (h' : ShadowRel Q') :
    ShadowRel fun s t => Q s t ∧ Q' s t :=
  ⟨fun x y => ⟨h.trans x.1 y.1, h'.trans x.2 y.2⟩, fun e => ⟨h.ofShd e, h'.ofShd e⟩⟩

/-- A relation under a condition. -/
theorem ShadowRel.imp {Q : State → State → Prop} (h : ShadowRel Q) (c : Prop) : ShadowRel fun s t => c → Q s t :=
  ⟨fun x y hc => h.trans (x hc) (y hc), fun e _ => h.ofShd e⟩

/-! ### Serving a class-0 command -/

/-- The parts that an object command or a FORCE_LEVEL changes. -/
def shadowParts : List Part := [.rings, .params, .firmware, .journal, .shadow]

/-- Serving a packet keeps a relation over the shadowing state. -/
theorem ShadowRel.serveRel {Q : State → State → Prop} (h : ShadowRel Q) :
    ServeRel serveParts fun s t => sameBut shadowParts s t ∧ Q s t :=
  and_serveRel (by decide) (fun _ => h.ofShd rfl) h.trans fun k => h.ofShd (k .shadow (by decide))

/-- A served class-0 command keeps the relation that its effect keeps: its entry is the class-0 record (R347). -/
theorem exec_classZero {R : State → State → Prop} {c : Instr} {op : Nat} {d : OpDef} {p : Pkt} {s : State}
    (hR : ServeRel serveParts R) (hc : exec c s = .next (serveOp op d p false s)) (ht : p.timed = false)
    (hj : ∀ q, d.jnl q = 3) (hr : ∀ j u, Ends R u (d.run j (ownOf op p s) u)) : ∃ t, exec c s = .next t ∧ R s t :=
  ⟨_, hc, serveOp_rel hR (by decide) (by decide) (by decide) ht (.inr ⟨by decide, .inl (hj _)⟩) hr⟩

/-! ### The effects -/

/-- What replaces the shadowing state alone. -/
theorem setShd_frame (s : State) (x : Shd) : sameBut [.shadow] s { s with shd := x } := by
  intro y hy
  cases y <;> first | exact absurd (by decide) hy | rfl | exact ⟨rfl, rfl⟩ | exact ⟨rfl, rfl, rfl⟩

/-- An entry of OBJ_UPDATE writes its own context (R123). -/
theorem objWrite_keeps (s : State) (p : Pkt) (o : Nat) :
    sameBut [.shadow] s (s.objWrite p o) ∧ ForceKept s (s.objWrite p o) ∧ CtxKept [p.u8 o] s (s.objWrite p o) :=
  ⟨setCtx_frame _ _ _, rfl, fun n hn => (ctx_setCtx _ _ _ _).trans (if_neg (by simpa using hn))⟩

/-- The entries of OBJ_UPDATE write the contexts that the packet names. -/
theorem objWrites_keep (s : State) (p : Pkt) :
    let t := (List.range (p.u8 16)).foldl (fun s k => s.objWrite p (entOff k)) s
    sameBut [.shadow] s t ∧ ForceKept s t ∧ CtxKept (entryIds p) s t := by
  refine List.foldlRecOn (motive := fun t => sameBut [.shadow] s t ∧ ForceKept s t ∧ CtxKept (entryIds p) s t) _ _
    ⟨sameBut_refl _ s, rfl, fun _ _ => rfl⟩ fun t ⟨hf, hforce, hctx⟩ k hk => ?_
  obtain ⟨wf, wforce, wctx⟩ := objWrite_keeps t p (entOff k)
  refine ⟨sameBut_trans hf wf, wforce.trans hforce, fun n hn => (wctx n fun h => hn ?_).trans (hctx n hn)⟩
  rw [List.mem_singleton.mp h]
  exact List.mem_map_of_mem hk

/-- OBJ_CLEAR_ALL releases the active contexts, and clears the forced level where bit 0 asks for it. -/
theorem clearAll_keeps (s : State) (l : List Nat) (b : Bool) :
    let t := if b then (s.releaseAll l).clearForce else s.releaseAll l
    sameBut [.shadow] s t ∧ (b = false → ForceKept s t) ∧ OnlyReleased s t := by
  obtain ⟨hf, hforce, -, hctx⟩ := releaseAll_facts l s
  cases b with
  | false => exact ⟨hf, fun _ => hforce, hctx⟩
  | true => exact ⟨sameBut_trans hf (setShd_frame _ _), fun h => (by cases h), hctx⟩

/-! ### The bend -/

/-- The composition but for the target shift is kept. -/
def BendOnly (s t : State) : Prop :=
  { t.comp with bendX := 0, bendY := 0 } = { s.comp with bendX := 0, bendY := 0 }

/-- The parts that BEND_SET changes. -/
def bendParts : List Part := [.rings, .params, .firmware, .journal, .compose]

/-- Serving a packet keeps the composition. -/
theorem bend_serveRel : ServeRel serveParts fun s t => sameBut bendParts s t ∧ BendOnly s t :=
  and_serveRel (by decide) (fun _ => rfl) (fun h k => Eq.trans k h) fun h => by
    unfold BendOnly
    rw [h .compose (by decide)]

/-- A new target shift. -/
theorem setBend_frame (s : State) (x y : Int) :
    sameBut [.compose] s { s with comp := { s.comp with bendX := x, bendY := y } } := by
  intro z hz
  cases z <;> first | exact absurd (by decide) hz | rfl | exact ⟨rfl, rfl⟩ | exact ⟨rfl, rfl, rfl⟩

/-! ### The statement -/

/-- Settles O10: each command's effect keeps its own relation, and serving a packet keeps it. -/
theorem shadowCommandsFrame : Obligations.ShadowCommandsFrame := by
  intro p s ht
  refine ⟨?update, ?release, ?clearAll, ?force, ?bend⟩
  case update =>
    refine exec_classZero (forceKept_rel.and (ctxKept_rel _)).serveRel rfl ht (fun _ => rfl) fun j u => ends_okOut _ ?_
    obtain ⟨hf, hkeeps⟩ := objWrites_keep u (ownOf 0x0101 p s)
    exact ⟨sameBut_mono hf (by decide), hkeeps⟩
  case release =>
    refine exec_classZero (forceKept_rel.and ((ctxKept_rel _).and onlyReleased_rel)).serveRel rfl ht (fun _ => rfl)
      fun j u => ends_okOut _ ?_
    obtain ⟨hf, hkeeps⟩ := releaseAll_facts (maskIds (ownOf 0x0102 p s)) u
    exact ⟨sameBut_mono hf (by decide), hkeeps⟩
  case clearAll =>
    refine exec_classZero ((forceKept_rel.imp _).and onlyReleased_rel).serveRel rfl ht (fun _ => rfl)
      fun j u => ends_okOut _ ?_
    obtain ⟨hf, hkeeps⟩ := clearAll_keeps u (u.activeCtx.map (·.1)) (bitOf ((ownOf 0x0103 p s).u32 16) 0)
    exact ⟨sameBut_mono hf (by decide), hkeeps⟩
  case force =>
    refine exec_classZero (R := fun s t => sameBut shadowParts s t ∧ t.shd.ctx = s.shd.ctx)
      (ShadowRel.serveRel ⟨fun h k => Eq.trans k h, congrArg Shd.ctx⟩) rfl ht (fun _ => rfl) fun j u =>
        ends_okOut _ ⟨sameBut_mono (setShd_frame u _) (by decide), rfl⟩
  case bend =>
    exact exec_classZero bend_serveRel rfl ht (fun _ => rfl) fun j u =>
      ends_okOut _ ⟨sameBut_mono (setBend_frame u _ _) (by decide), rfl⟩

end Sys2Proof.Machine
end

section
/-! PROOFS. The safe state and its causes (10_pixel_diagnostics_safe_state.md R238 to R242): what reads, durable lines
and slices cut short leave of them, and what an added cause makes of them. -/

namespace Sys2Proof.Machine

/-! ### What latches faults alone -/

/-- The diagnostics are the same but for FAULT_LATCH: the safe state and the causes are kept. -/
def DiagKept (s t : State) : Prop := { t.diag with latch := 0 } = { s.diag with latch := 0 }

theorem DiagKept.refl (s : State) : DiagKept s s := rfl

theorem DiagKept.trans {s t u : State} (h : DiagKept s t) (k : DiagKept t u) : DiagKept s u := Eq.trans k h

/-- What leaves the diagnostics whole. -/
theorem DiagKept.of_eq {s t : State} (h : t.diag = s.diag) : DiagKept s t := by
  unfold DiagKept
  rw [h]

/-- A frame that does not take in the diagnostics. -/
theorem DiagKept.of_frame {l : List Part} {s t : State} (h : sameBut l s t) (hd : .diag ∉ l) : DiagKept s t :=
  .of_eq (h .diag hd)

/-- A step that leaves the diagnostics alone, after others. -/
theorem DiagKept.frame {l : List Part} {s t u : State} (h : DiagKept s t) (k : sameBut l t u) (hd : .diag ∉ l) :
    DiagKept s u := h.trans (.of_frame k hd)

theorem DiagKept.safe {s t : State} (h : DiagKept s t) : t.diag.safe = s.diag.safe :=
  (congrArg Diag.safe h : _)

theorem DiagKept.causes {s t : State} (h : DiagKept s t) : t.diag.causes = s.diag.causes :=
  (congrArg Diag.causes h : _)

/-- A fault is latched. -/
theorem latchFault_diag (s : State) (c : Nat) : DiagKept s (s.latchFault c) := rfl

/-- An uncorrectable line latches MEM, and no more of the diagnostics (R273, R278). -/
theorem lineLost_diag (s : State) (a req : Nat) : DiagKept s (s.lineLost a req) := by
  unfold State.lineLost
  extract_lets logged latched known _ poisoned q
  have hl : DiagKept s latched := .of_frame (t := s.errLog a _ req 0) (errLog_frame s a _ req 0) (by decide)
  have hq : DiagKept s q.1 := .frame (t := poisoned) hl (queueRepair_frame poisoned a known) (by decide)
  split
  · exact hl
  · split
    · exact hq.frame (reportLost_frame q.1 a req q.2) (by decide)
    · exact hq

/-- A read of a line latches MEM at most (R273). -/
theorem readLine_diag (s : State) (req a : Nat) : DiagKept s (s.readLine req a).1 := by
  have gone : DiagKept s (s.errGone a) := rfl
  have corrected (u : State) (src : Nat) : DiagKept u (u.lineCorrected a req src) :=
    .of_frame (lineCorrected_frame u a req src) (by decide)
  unfold State.readLine
  split
  · exact lineLost_diag s a req
  · split
    · exact DiagKept.refl s
    · exact gone.trans (corrected _ _)
    · refine gone.trans ?_
      unfold State.refetch
      split
      · exact DiagKept.trans (.of_frame (restoreLine_frame _ a) (by decide)) (corrected _ _)
      · exact lineLost_diag _ a req
    · exact gone.trans (lineLost_diag _ a req)

/-- Reads of lines latch MEM at most. -/
theorem readEach_diag (s : State) (req : Nat) (as : List Nat) : DiagKept s (s.readEach req as).1 :=
  List.foldlRecOn (motive := fun x : State × List Nat => DiagKept s x.1) as _ (DiagKept.refl s) fun x h a _ => by
    dsimp only
    split <;> exact h.trans (readLine_diag x.1 req a)

/-- A remap of a sector latches MEM at most, by the reads of its lines (R284). -/
theorem remapSector_diag (s : State) (a k : Nat) : DiagKept s (s.remapSector a k) := by
  unfold State.remapSector
  extract_lets sec read spares _ mapped
  have hm : DiagKept s mapped := readEach_diag s 7 _
  exact hm.frame (evt_frame mapped _ _ _ _ _ _ _) (by decide)

/-- A write that fails leaves the diagnostics (R284). -/
theorem writeFails_diag (s : State) (a : Nat) : DiagKept s (s.writeFails a) := by
  unfold State.writeFails
  extract_lets _ poisoned
  exact .frame (t := poisoned) rfl (evt_frame poisoned _ _ _ _ _ _ _) (by decide)

/-- A write of an MRAM line that is verified latches MEM at most (R284). -/
theorem verifyLine_diag (s : State) (a : Nat) : DiagKept s (s.verifyLine a).1 := by
  unfold State.verifyLine
  split
  · exact DiagKept.refl s
  · split
    · exact remapSector_diag (s.errGone a) a _
    · exact writeFails_diag (s.errGone a) a

/-- A durable line of the journal latches MEM at most (R348). -/
theorem jKeep_diag (s : State) (j : Word) : DiagKept s (s.jKeep j) := by
  unfold State.jKeep
  split
  · exact .of_frame (jWait_frame s j true) (by decide)
  · dsimp only
    split
    · exact (verifyLine_diag s _).trans (.of_frame (jStore_frame _ j) (by decide))
    · exact (verifyLine_diag s _).trans (.of_frame (dropLine_frame _ j) (by decide))

/-- The count of a slice cut short, and the end of its BIST_RUN, latch MEM at most (R293). -/
theorem sliceAborted_diag (s : State) (ty tg : Nat) : DiagKept s (s.sliceAborted ty tg) := by
  unfold State.sliceAborted
  extract_lets _ counted tested turned r starved
  have ht : DiagKept s turned := .frame (t := tested) rfl (turnOver_frame tested ty tg) (by decide)
  have hs : DiagKept s starved := by
    unfold starved
    split
    · exact .frame (t := turned.modTest ty tg fun r => { r with starved := true }) ht (evt_frame _ _ _ _ _ _ _ _)
        (by decide)
    · exact ht
  split
  · split
    · refine DiagKept.frame ?_ (cmdDone_frame _ _ _ _) (by decide)
      refine DiagKept.trans ?_ (jKeep_diag _ _)
      exact (hs.frame (dropJob_frame starved _) (by decide)).frame (jFinal_frame _ _ _ _ _ _ _ _) (by decide)
    · exact hs
  · exact hs

/-- A slice cut short latches MEM at most (R293). -/
theorem abortSlice_diag (s : State) (p : Nat → Nat → Bool) : DiagKept s (s.abortSlice p) := by
  unfold State.abortSlice
  split
  · exact DiagKept.refl s
  · split
    · extract_lets f g cut
      have hc : DiagKept s cut := rfl
      exact (hc.trans (sliceAborted_diag cut _ _)).frame (abortLeaves_frame _ _ _) (by decide)
    · exact DiagKept.refl s

/-! ### Changes of the safe state -/

/-- Every tile's reference DAC is set: the diagnostics are kept. -/
theorem setDacs_diag (s : State) (d : Dac) : DiagKept s (s.setDacs d) :=
  List.foldlRecOn (motive := DiagKept s) _ _ (DiagKept.refl s) fun _ h _ _ => h

/-- The last forcing case ends: the diagnostics are kept. -/
theorem vfbRelease_diag (s : State) : DiagKept s s.vfbRelease := by
  unfold State.vfbRelease
  split <;> exact DiagKept.refl s

/-- The limp loader is asked for: a slice cut short latches MEM at most (R117, R293). -/
theorem limpRequest_diag (s : State) : DiagKept s s.limpRequest := (abortSlice_diag s _).trans (.of_eq rfl)

/-- A change of the safe state puts the new state in place, and keeps the causes (R240). -/
theorem setSafe_diag (s : State) (new : Nat) :
    (s.setSafe new).diag.safe = new ∧ (s.setSafe new).diag.causes = s.diag.causes := by
  unfold State.setSafe
  extract_lets old _ moved released told _ _ lit
  split
  · exact ⟨by assumption, rfl⟩
  · have ht : DiagKept moved told := (vfbRelease_diag moved).frame (evt_frame released _ _ _ _ _ _ _) (by decide)
    clear_value told
    have hl : DiagKept moved lit := by
      unfold lit
      split
      · exact ht.trans (.of_eq rfl)
      · exact ht
    clear_value lit
    have acted {u : State} (h : DiagKept lit u) : u.diag.safe = new ∧ u.diag.causes = s.diag.causes :=
      ⟨(hl.trans h).safe, (hl.trans h).causes⟩
    split
    · exact acted (.of_eq rfl)
    · split
      · have rest (u : State) : DiagKept u u.clearFreeze.delayFreeze.forceVfb :=
          .of_eq (by simp only [State.forceVfb, State.delayFreeze, State.clearFreeze])
        exact acted ((limpRequest_diag lit).trans (rest _))
      · split
        · have rest (u : State) : DiagKept u u.shutStrings.clearFreeze :=
            .of_eq (by simp only [State.clearFreeze, State.shutStrings])
          exact acted ((setDacs_diag lit .off).trans (rest _))
        · exact acted (.of_eq rfl)

/-! ### Causes that are added -/

/-- A cancelled return leaves the diagnostics (R242). -/
theorem cancelReturn_diag (s : State) : s.cancelReturn.diag = s.diag := by
  unfold State.cancelReturn
  split <;> rfl

/-- An added cause is held during a sleep negotiation, and the engine stays where it is (R333); else it is present, and
the engine is at the deeper of its state and the cause's target (R240). -/
theorem addCause_diag (s : State) (b : Nat) :
    if s.pwr.nego.isSome then (s.addCause b).diag.safe = s.diag.safe
    else (s.addCause b).diag.causes = s.diag.causes ||| BitVec.ofNat 16 (2 ^ b)
      ∧ (s.addCause b).diag.safe = max s.diag.safe (causeTarget b) := by
  unfold State.addCause
  extract_lets latched _ caused settled
  have hl : DiagKept s latched ∧ latched.pwr = s.pwr := by
    unfold latched
    split <;> exact ⟨rfl, rfl⟩
  obtain ⟨hd, hp⟩ := hl
  simp only [hp]
  split
  · exact hd.safe
  · have hcauses : settled.diag.causes = s.diag.causes ||| BitVec.ofNat 16 (2 ^ b) := by
      rw [← hd.causes]
      exact congrArg Diag.causes (cancelReturn_diag caused)
    have hsafe : settled.diag.safe = s.diag.safe := (congrArg Diag.safe (cancelReturn_diag caused)).trans hd.safe
    obtain ⟨hs, hc⟩ := setSafe_diag settled (causeTarget b)
    split
    · exact ⟨hc.trans hcauses, by omega⟩
    · exact ⟨hcauses, by omega⟩

/-- A cause that is added never moves the engine to a less degraded state (R238, R240). -/
theorem addCause_deepens (s : State) (b : Nat) : s.diag.safe ≤ (s.addCause b).diag.safe := by
  have h := addCause_diag s b
  split at h
  · exact Nat.le_of_eq h.symm
  · exact h.2 ▸ Nat.le_max_left _ _

/-- A set of causes with one added holds that one. -/
theorem bitOf_or_pow (c : Half) {b : Nat} (hb : b < 16) : bitOf (c ||| BitVec.ofNat 16 (2 ^ b)).toNat b = true := by
  have hpow : 2 ^ b % 2 ^ 16 = 2 ^ b := Nat.mod_eq_of_lt (Nat.pow_lt_pow_right (by decide) hb)
  rw [bitOf, ← Nat.testBit_eq_decide_div_mod_eq, BitVec.toNat_or, BitVec.toNat_ofNat, hpow, Nat.testBit_or,
    Nat.testBit_two_pow_self, Bool.or_true]

/-! ### FALLBACK_ENTER -/

/-- A packet that passes its checks passes its opcode's test of step 8. -/
theorem passes_bad {op : Nat} {d : OpDef} {p : Pkt} {s : State} (h : passes op d p s = true) :
    d.bad (ownOf op p s) (authOf op p s) = none := by
  simp only [passes, Bool.and_eq_true, Option.isNone_iff_eq_none] at h
  obtain ⟨⟨-, hl⟩, -⟩ := h
  unfold State.layoutBad at hl
  split at hl
  · cases hl
  · split at hl
    · cases hl
    · assumption

/-- What leaves the power states alone leaves the sleep negotiation. -/
theorem nego_of_frame {l : List Part} {s t : State} (h : sameBut l s t) (hp : .power ∉ l) : t.pwr.nego = s.pwr.nego :=
  (congrArg Pwr.nego (h .power hp) : _)

/-- The engine is never less degraded than before, whatever becomes of the packet. -/
theorem deepens_serveRel : ServeRel serveParts fun s t => s.diag.safe ≤ t.diag.safe :=
  ⟨fun _ => Nat.le_refl _, Nat.le_trans, fun h => Nat.le_of_eq (congrArg Diag.safe (h .diag (by decide))).symm⟩

/-- What FALLBACK_ENTER does: its event, then the cause that it names (R139). -/
def fallbackEntered (q : Pkt) (v : State) : State :=
  (v.evt 0x0103 2 q.ring (q.u8 16) (q.u16 18) q.seq.toNat v.diag.safe).addCause (q.u8 16)

/-- FALLBACK_ENTER is served under the class-0 record (R347). -/
theorem exec_fallbackEnter {p : Pkt} {s : State} (hp : passes 0x0105 fallbackEnterDef p s = true) :
    exec (.fallbackEnter p) s = .next ((authOf 0x0105 p s).coalesced 0x0105 (ownOf 0x0105 p s) fun v =>
      let w := fallbackEntered (ownOf 0x0105 p s) v
      (w, [w32 w.diag.safe])) :=
  exec_passes rfl hp (execute_coalesced rfl rfl)

/-- FALLBACK_ENTER never moves the engine to a less degraded state. -/
theorem fallbackEntered_deepens (q : Pkt) (v : State) : v.diag.safe ≤ (fallbackEntered q v).diag.safe :=
  Nat.le_trans (Nat.le_of_eq (congrArg Diag.safe (evt_frame v _ _ _ _ _ _ _ .diag (by decide))).symm)
    (addCause_deepens _ _)

/-- Outside a sleep negotiation the cause that FALLBACK_ENTER names is present, and the engine is at least at its
target. -/
theorem fallbackEntered_acts {q : Pkt} {v : State} (h : v.pwr.nego = none) (hq : q.u8 16 ≤ 2) :
    (fallbackEntered q v).hasCause (q.u8 16) = true ∧ causeTarget (q.u8 16) ≤ (fallbackEntered q v).diag.safe := by
  have hn := (nego_of_frame (evt_frame v 0x0103 2 q.ring (q.u8 16) (q.u16 18) q.seq.toNat v.diag.safe)
    (by decide)).trans h
  have hadd := addCause_diag (v.evt 0x0103 2 q.ring (q.u8 16) (q.u16 18) q.seq.toNat v.diag.safe) (q.u8 16)
  rw [if_neg (by simp [hn])] at hadd
  obtain ⟨hc, hs⟩ := hadd
  refine ⟨?_, Nat.le_trans (Nat.le_max_right _ _) (Nat.le_of_eq hs.symm)⟩
  unfold State.hasCause fallbackEntered
  rw [hc]
  exact bitOf_or_pow _ (by omega)

/-- Settles O27: a cause that is added never lightens, and serving a packet keeps that; a packet that passes its checks
is executed under the class-0 record, and its cause acts. -/
theorem fallbackEnterNeverLightens : Obligations.FallbackEnterNeverLightens := by
  refine ⟨fun p s t ht he => ?deepens, fun p s t hp he hn => ?acts⟩
  case deepens =>
    have hr : s.diag.safe ≤ (serveOp 0x0105 fallbackEnterDef p false s).diag.safe :=
      serveOp_rel deepens_serveRel (by decide) (by decide) (by decide) ht (.inr ⟨by decide, .inl rfl⟩)
        fun j u => ⟨fallbackEntered_deepens (ownOf 0x0105 p s) u, rfl, fun _ => rfl⟩
    cases he
    exact hr
  case acts =>
    rw [exec_fallbackEnter hp] at he
    cases he
    have hq : (ownOf 0x0105 p s).u8 16 ≤ 2 := by
      have hbad := passes_bad hp
      simp only [fallbackEnterDef, need_eq_none, Bool.and_eq_true, decide_eq_true_eq] at hbad
      obtain ⟨⟨hlevel, -⟩, -⟩ := hbad
      exact hlevel
    have hn' : ((authOf 0x0105 p s).coalesce 0x0105 (ownOf 0x0105 p s)).1.pwr.nego = none :=
      (nego_of_frame (coalesce_frame _ _ _) (by decide)).trans
        ((nego_of_frame (authenticate_frame s 0x0105 p) (by decide)).trans hn)
    obtain ⟨hcause, hsafe⟩ := fallbackEntered_acts hn' hq
    unfold State.coalesced State.hasCause
    rw [reply_frame _ _ _ _ _ _ _ _ _ _ .diag (by decide)]
    exact ⟨hcause, hsafe⟩

end Sys2Proof.Machine
end

section
/-! PROOFS. The rows of the safe states (10_pixel_diagnostics_safe_state.md, 05_glare_free_shadowing.md R130,
04_composition.md R114 to R116). -/

namespace Sys2Proof.Machine

section
variable {dt : Nat} {s : State}

/-- A host that has been silent for HOST_STALE is stale (R205, R210). -/
theorem exec_hostStale_acts {t : Nat} (ht : (s.elapse dt).frm.staleStart = some t)
    (h : (s.elapse dt).pwr.state = .active ∧ (s.elapse dt).live pHostStale ≠ 0
      ∧ (s.elapse dt).live pHostStale * 1000000 ≤ (s.elapse dt).since t) :
    exec (.hostStale dt) s = .next ((s.elapse dt).hostStale t) := by
  show execHostStale dt s = _
  simp only [execHostStale, ht, if_pos h]

/-- The fallback check ends after its sub-frames: it has passed where no tile has failed it, else cause 10 is added
(R114). -/
theorem exec_fallbackCheck_ends (h : (s.elapse dt).diag.safe = 2 ∧ (s.elapse dt).comp.fbCheck.running = true
      ∧ (s.elapse dt).comp.fbCheck.endSub < (s.elapse dt).frm.sub) :
    exec (.fallbackCheck dt) s = .next (let u := s.elapse dt
      let v : State := { u with comp := { u.comp with
        fbCheck := { u.comp.fbCheck with running := false, passed := u.fbFailed.isEmpty } } }
      if u.fbFailed.isEmpty then v.reevaluate
      else (v.evt 0x0306 3 0xFF (ofBitList u.fbFailed) 0 v.frm.frame.toNat 0).addCause 10) :=
  congrArg _ (if_pos h)

/-- The limp loader that reads forms its codes, the errors of its row having arisen (R115, R116). -/
theorem exec_limpCodesReady_forms {m t z : List Nat} (h : (s.elapse dt).comp.limp.stage = .reading) :
    exec (.limpCodesReady dt m t z) s
      = .next ((s.elapse dt).arise ((m ++ t ++ z).map fun a => (a, LineRead.lost))).limpFormed :=
  congrArg _ (if_pos h)

end

/-- Settles O51: each row's own arm, under its premise. -/
theorem safeStateEventsComplete : Obligations.SafeStateEventsComplete := by
  intro s dt
  refine ⟨after_if rfl ?round, fun ma => after_if rfl ?trip, fun t h => ?stale, fun h => ?passed, fun h => ?failed,
    fun m t z h => exec_limpCodesReady_forms (of_decide_eq_true h)⟩
  case round => simp only [Bool.and_eq_true, Bool.or_eq_true, decide_eq_true_eq, imp_self]
  case trip => simp only [Bool.and_eq_true, decide_eq_true_eq, and_assoc, imp_self]
  case stale =>
    simp only [Bool.and_eq_true, decide_eq_true_eq] at h
    obtain ⟨⟨⟨ht, ha⟩, hl⟩, hs⟩ := h
    exact exec_hostStale_acts ht ⟨ha, hl, hs⟩
  case passed =>
    simp only [Bool.and_eq_true, decide_eq_true_eq] at h
    obtain ⟨⟨⟨h2, hr⟩, hsub⟩, he⟩ := h
    rw [exec_fallbackCheck_ends ⟨h2, hr, hsub⟩]
    dsimp only
    rw [if_pos he, he]
  case failed =>
    simp only [Bool.and_eq_true, decide_eq_true_eq, Bool.not_eq_true'] at h
    obtain ⟨⟨⟨h2, hr⟩, hsub⟩, he⟩ := h
    rw [exec_fallbackCheck_ends ⟨h2, hr, hsub⟩]
    dsimp only
    rw [if_neg (by simp [he]), he]

end Sys2Proof.Machine
end

section
/-! PROOFS. The scrambler of the Plokam Link (07_plokam_link.md R161): its step is linear and satisfies
x^31 = x^3 + 1, so that the power of x which a skip evaluates is the step iterated. -/

namespace Sys2Proof.Machine

/-! ### The step of the scrambler (R161) -/

/-- The model's bit of a number is the library's. -/
theorem bitOf_eq_testBit (n i : Nat) : bitOf n i = n.testBit i := (Nat.testBit_eq_decide_div_mod_eq ..).symm

/-- A bit as a number is 0 or 1. -/
theorem b2n_lt (b : Bool) : b2n b < 2 := by cases b <;> decide

/-- A bit as a number, by division. -/
theorem b2n_bitOf (n i : Nat) : b2n (bitOf n i) = n / 2 ^ i % 2 := by
  simp only [b2n, bitOf, decide_eq_true_eq]
  split <;> omega

/-- The newest bit is the sum of the bits 28 and 31 steps older (R161). -/
theorem getLsbD_lfsrNext_zero (s : BitVec 31) : (lfsrNext s).getLsbD 0 = (s.getLsbD 27 ^^ s.getLsbD 30) := by
  simp only [lfsrNext, bitOf_eq_testBit, BitVec.testBit_toNat, BitVec.getLsbD_ofNat, Nat.testBit_zero]
  cases s.getLsbD 27 <;> cases s.getLsbD 30 <;> simp [b2n]

/-- Every other bit is the one below it of the state before. -/
theorem getLsbD_lfsrNext_succ (s : BitVec 31) {i : Nat} (h : i + 1 < 31) :
    (lfsrNext s).getLsbD (i + 1) = s.getLsbD i := by
  unfold lfsrNext
  have hb := b2n_lt (bitOf s.toNat 27 != bitOf s.toNat 30)
  generalize b2n (bitOf s.toNat 27 != bitOf s.toNat 30) = b at hb
  have hd : (2 * s.toNat + b) / 2 = s.toNat := by omega
  rw [BitVec.getLsbD_ofNat, Nat.testBit_succ, hd, BitVec.testBit_toNat, decide_eq_true h, Bool.true_and]

/-- The step is linear. -/
theorem lfsrNext_xor (s t : BitVec 31) : lfsrNext (s ^^^ t) = lfsrNext s ^^^ lfsrNext t := by
  refine BitVec.eq_of_getLsbD_eq fun i hi => ?_
  cases i with
  | zero =>
    simp only [BitVec.getLsbD_xor, getLsbD_lfsrNext_zero, Bool.xor_assoc]
    rw [Bool.xor_left_comm (t.getLsbD 27)]
  | succ i => simp only [BitVec.getLsbD_xor, getLsbD_lfsrNext_succ _ hi]

/-- The step keeps the state that is zero. -/
theorem lfsrNext_zero : lfsrNext 0 = 0 := by decide

/-- So many steps of the scrambler. -/
def lfsrSteps : Nat → BitVec 31 → BitVec 31
  | 0, s => s
  | n + 1, s => lfsrSteps n (lfsrNext s)

/-- No step. -/
theorem lfsrSteps_zero (s : BitVec 31) : lfsrSteps 0 s = s := rfl

/-- Steps in a row, the last one apart. -/
theorem lfsrSteps_succ (n : Nat) (s : BitVec 31) : lfsrSteps (n + 1) s = lfsrNext (lfsrSteps n s) := by
  induction n generalizing s with
  | zero => rfl
  | succ n ih => exact ih (lfsrNext s)

/-- Steps before and after a step. -/
theorem lfsrSteps_lfsrNext (n : Nat) (s : BitVec 31) : lfsrSteps n (lfsrNext s) = lfsrNext (lfsrSteps n s) :=
  lfsrSteps_succ n s

/-- Steps after steps. -/
theorem lfsrSteps_add (m n : Nat) (s : BitVec 31) : lfsrSteps (m + n) s = lfsrSteps m (lfsrSteps n s) := by
  induction n generalizing s with
  | zero => rfl
  | succ n ih => exact ih (lfsrNext s)

/-- Steps in a row are linear. -/
theorem lfsrSteps_xor (k : Nat) (s t : BitVec 31) :
    lfsrSteps k (s ^^^ t) = lfsrSteps k s ^^^ lfsrSteps k t := by
  induction k generalizing s t with
  | zero => rfl
  | succ k ih => rw [lfsrSteps_succ, lfsrSteps_succ, lfsrSteps_succ, ih, lfsrNext_xor]

/-- After `k` steps a bit has moved up by `k`. -/
theorem getLsbD_lfsrSteps (s : BitVec 31) {k i : Nat} (h : i + k < 31) :
    (lfsrSteps k s).getLsbD (i + k) = s.getLsbD i := by
  induction k with
  | zero => rfl
  | succ k ih =>
    rw [lfsrSteps_succ]
    exact (getLsbD_lfsrNext_succ _ h).trans (ih (by omega))

/-- What the step satisfies: 31 steps are 3 steps plus none. -/
theorem lfsrSteps_31 (s : BitVec 31) : lfsrSteps 31 s = lfsrSteps 3 s ^^^ s := by
  refine BitVec.eq_of_getLsbD_eq fun i hi => ?_
  have hnew : (lfsrSteps 31 s).getLsbD i = (lfsrNext (lfsrSteps (30 - i) s)).getLsbD 0 := by
    have h := getLsbD_lfsrSteps (lfsrNext (lfsrSteps (30 - i) s)) (k := i) (i := 0) (by omega)
    rw [Nat.zero_add, ← lfsrSteps_succ, ← lfsrSteps_add] at h
    rwa [show i + (30 - i).succ = 31 by omega, lfsrSteps_succ (30 - i)] at h
  have h30 : (lfsrSteps (30 - i) s).getLsbD 30 = s.getLsbD i := by
    have h := getLsbD_lfsrSteps s (k := 30 - i) (i := i) (by omega)
    rwa [show i + (30 - i) = 30 by omega] at h
  have h27 : (lfsrSteps (30 - i) s).getLsbD 27 = (lfsrSteps 3 s).getLsbD i := by
    rcases Nat.lt_or_ge i 28 with hlow | hhigh
    · have h := getLsbD_lfsrSteps (lfsrSteps 3 s) (k := 27 - i) (i := i) (by omega)
      rwa [← lfsrSteps_add, show 27 - i + 3 = 30 - i by omega, show i + (27 - i) = 27 by omega] at h
    · have h := getLsbD_lfsrSteps s (k := 30 - i) (i := i - 3) (by omega)
      have h' := getLsbD_lfsrSteps s (k := 3) (i := i - 3) (by omega)
      rw [show i - 3 + (30 - i) = 27 by omega] at h
      rw [show i - 3 + 3 = i by omega] at h'
      exact h.trans h'.symm
  rw [hnew, getLsbD_lfsrNext_zero, h27, h30, BitVec.getLsbD_xor]

/-! ### Polynomials in the step, modulo x^31 + x^3 + 1 -/

/-- The terms below the `m`-th power of the polynomial whose coefficients are the bits of `p`, at the step of the
scrambler. -/
def lfsrTerms (p s : BitVec 31) : Nat → BitVec 31
  | 0 => 0
  | m + 1 => lfsrTerms p s m ^^^ (if p.getLsbD m then lfsrSteps m s else 0)

/-- A polynomial of degree below 31 at the step. -/
def lfsrEval (p s : BitVec 31) : BitVec 31 := lfsrTerms p s 31

/-- A polynomial times x, as `lfsrPower` forms it. -/
def lfsrTwice (a : BitVec 31) : BitVec 31 := (a <<< 1) ^^^ (if a.msb then 9 else 0)

/-- Without a coefficient of x^30 nothing is reduced. -/
theorem lfsrTwice_of_msb {a : BitVec 31} (h : a.msb = false) : lfsrTwice a = a <<< 1 := by simp [lfsrTwice, h]

/-- One step of the product of polynomials from the highest coefficient of the second, as `lfsrPower` takes it. -/
def lfsrMulStep (a b r : BitVec 31) (i : Nat) : BitVec 31 := lfsrTwice r ^^^ (if b.getMsbD i then a else 0)

/-- The product of polynomials, as `lfsrPower` forms it. -/
def lfsrMul (a b : BitVec 31) : BitVec 31 := (List.range 31).foldl (lfsrMulStep a b) 0

/-- A power is made of the power of half the exponent. -/
theorem lfsrPower_succ (f n : Nat) : lfsrPower (f + 1) n
    = if n = 0 then 1
      else if n % 2 = 1 then lfsrTwice (lfsrMul (lfsrPower f (n / 2)) (lfsrPower f (n / 2)))
      else lfsrMul (lfsrPower f (n / 2)) (lfsrPower f (n / 2)) := rfl

/-- The sum that a skip runs through, with the power of the step at which it stands. -/
theorem foldl_lfsrTerms (p s : BitVec 31) (m : Nat) :
    (List.range m).foldl (fun (a : BitVec 31 × BitVec 31) i =>
      (if p.getLsbD i then a.1 ^^^ a.2 else a.1, lfsrNext a.2)) (0, s) = (lfsrTerms p s m, lfsrSteps m s) := by
  induction m with
  | zero => rfl
  | succ m ih =>
    rw [List.range_succ, List.foldl_append, ih, lfsrSteps_succ, lfsrTerms]
    by_cases hp : p.getLsbD m <;> simp [hp]

/-- A skip evaluates a power of x at the step. -/
theorem lfsrSkip_eq_eval (n : Nat) (s : BitVec 31) : lfsrSkip n s = lfsrEval (lfsrPower 64 n) s :=
  congrArg Prod.fst (foldl_lfsrTerms (lfsrPower 64 n) s 31)

/-- A coefficient that is the sum of two. -/
theorem ite_xor_coeff (c d : Bool) (v : BitVec 31) :
    (if (c ^^ d) then v else 0) = (if c then v else 0) ^^^ (if d then v else 0) := by
  cases c <;> cases d <;> simp

/-- Evaluation is linear in the polynomial. -/
theorem lfsrTerms_xor_left (p q s : BitVec 31) (m : Nat) :
    lfsrTerms (p ^^^ q) s m = lfsrTerms p s m ^^^ lfsrTerms q s m := by
  induction m with
  | zero => exact (BitVec.xor_self (x := (0 : BitVec 31))).symm
  | succ m ih =>
    rw [lfsrTerms, lfsrTerms, lfsrTerms, ih, BitVec.getLsbD_xor, ite_xor_coeff]
    ac_rfl

/-- Evaluation is linear in the state. -/
theorem lfsrTerms_xor_right (p s t : BitVec 31) (m : Nat) :
    lfsrTerms p (s ^^^ t) m = lfsrTerms p s m ^^^ lfsrTerms p t m := by
  induction m with
  | zero => exact (BitVec.xor_self (x := (0 : BitVec 31))).symm
  | succ m ih =>
    have hterm : (if p.getLsbD m then lfsrSteps m (s ^^^ t) else 0)
        = (if p.getLsbD m then lfsrSteps m s else 0) ^^^ (if p.getLsbD m then lfsrSteps m t else 0) := by
      split
      · exact lfsrSteps_xor m s t
      · exact (BitVec.xor_self (x := (0 : BitVec 31))).symm
    rw [lfsrTerms, lfsrTerms, lfsrTerms, ih, hterm]
    ac_rfl

/-- A polynomial at the step commutes with the step. -/
theorem lfsrTerms_lfsrNext (p s : BitVec 31) (m : Nat) : lfsrTerms p (lfsrNext s) m = lfsrNext (lfsrTerms p s m) := by
  induction m with
  | zero => exact lfsrNext_zero.symm
  | succ m ih =>
    rw [lfsrTerms, lfsrTerms, ih, lfsrNext_xor, apply_ite lfsrNext, lfsrNext_zero,
      lfsrSteps_lfsrNext]

/-- Coefficients moved up by one place are the polynomial one step on. -/
theorem lfsrTerms_shiftLeft (a s : BitVec 31) {m : Nat} (h : m + 1 ≤ 31) :
    lfsrTerms (a <<< 1) s (m + 1) = lfsrNext (lfsrTerms a s m) := by
  induction m with
  | zero => simpa [lfsrTerms] using lfsrNext_zero.symm
  | succ m ih =>
    have hbit : (a <<< 1).getLsbD (m + 1) = a.getLsbD m := by
      rw [BitVec.getLsbD_shiftLeft, decide_eq_true (show m + 1 < 31 by omega)]
      simp
    rw [lfsrTerms, ih (by omega), hbit, lfsrTerms, lfsrNext_xor, apply_ite lfsrNext, lfsrNext_zero,
      lfsrSteps_succ]

/-- A sum of polynomials at the step. -/
theorem lfsrEval_xor_left (p q s : BitVec 31) : lfsrEval (p ^^^ q) s = lfsrEval p s ^^^ lfsrEval q s :=
  lfsrTerms_xor_left p q s 31

/-- A polynomial at the step is linear in the state. -/
theorem lfsrEval_xor_right (p s t : BitVec 31) : lfsrEval p (s ^^^ t) = lfsrEval p s ^^^ lfsrEval p t :=
  lfsrTerms_xor_right p s t 31

/-- A polynomial at the step, one step on. -/
theorem lfsrEval_lfsrNext (p s : BitVec 31) : lfsrEval p (lfsrNext s) = lfsrNext (lfsrEval p s) :=
  lfsrTerms_lfsrNext p s 31

/-- The zero state stays under every polynomial. -/
theorem lfsrEval_state_zero (p : BitVec 31) : lfsrEval p 0 = 0 := by
  have h := lfsrEval_xor_right p 0 0
  rwa [BitVec.xor_self, BitVec.xor_self] at h

/-- The polynomial 0. -/
theorem lfsrEval_zero (s : BitVec 31) : lfsrEval 0 s = 0 := by simp [lfsrEval, lfsrTerms]

/-- The polynomial 1. -/
theorem lfsrEval_one (s : BitVec 31) : lfsrEval 1 s = s := by simp [lfsrEval, lfsrTerms, lfsrSteps_zero]

/-- The reduction that `lfsrTwice` makes is what the step satisfies. -/
theorem lfsrEval_nine (s : BitVec 31) : lfsrEval 9 s = lfsrSteps 31 s := by
  rw [lfsrSteps_31]
  simp [lfsrEval, lfsrTerms, lfsrSteps_zero, BitVec.xor_comm]

/-- A polynomial times x is the polynomial one step on. -/
theorem lfsrEval_lfsrTwice (a s : BitVec 31) : lfsrEval (lfsrTwice a) s = lfsrNext (lfsrEval a s) := by
  have hred : lfsrTerms (if a.msb then 9 else 0) s 31 = lfsrNext (if a.getLsbD 30 then lfsrSteps 30 s else 0) := by
    rw [BitVec.msb_eq_getLsbD_last]
    split
    · exact (lfsrEval_nine s).trans (lfsrSteps_succ ..)
    · exact (lfsrEval_zero s).trans lfsrNext_zero.symm
  rw [lfsrEval, lfsrTwice, lfsrTerms_xor_left, lfsrTerms_shiftLeft a s (Nat.le_refl 31), hred, ← lfsrNext_xor]
  rfl

/-- The leading coefficients of a polynomial, with one more of them. -/
theorem ushiftRight_pred (b : BitVec 31) {m : Nat} (h : m < 31) :
    b >>> (30 - m) = lfsrTwice (b >>> (31 - m)) ^^^ (if b.getMsbD m then 1 else 0) := by
  have hmsb : (b >>> (31 - m)).msb = false := by
    rw [BitVec.msb_ushiftRight, decide_eq_true (show 0 < 31 - m by omega)]
    rfl
  rw [lfsrTwice_of_msb hmsb, BitVec.getMsbD_eq_getLsbD, decide_eq_true h, Bool.true_and]
  refine BitVec.eq_of_getLsbD_eq fun i hi => ?_
  cases i with
  | zero => cases hb : b.getLsbD (30 - m) <;> simp [hb]
  | succ i =>
    have hone : BitVec.getLsbD (if b.getLsbD (30 - m) then 1 else 0 : BitVec 31) (i + 1) = false := by
      split <;> simp
    rw [BitVec.getLsbD_xor, hone, BitVec.getLsbD_shiftLeft, BitVec.getLsbD_ushiftRight, BitVec.getLsbD_ushiftRight,
      show 31 - m + (i + 1 - 1) = 30 - m + (i + 1) by omega]
    simp [hi]

/-- The product, as far as the `m` leading coefficients of the second polynomial. -/
theorem lfsrEval_foldl_mul (a b s : BitVec 31) {m : Nat} (h : m ≤ 31) :
    lfsrEval ((List.range m).foldl (lfsrMulStep a b) 0) s = lfsrEval a (lfsrEval (b >>> (31 - m)) s) := by
  induction m with
  | zero =>
    rw [Nat.sub_zero, BitVec.ushiftRight_eq_zero (Nat.le_refl 31)]
    exact (lfsrEval_zero s).trans ((congrArg _ (lfsrEval_zero s)).trans (lfsrEval_state_zero a)).symm
  | succ m ih =>
    have hcoeff : lfsrEval (if b.getMsbD m then a else 0) s
        = lfsrEval a (lfsrEval (if b.getMsbD m then 1 else 0) s) := by
      split
      · rw [lfsrEval_one]
      · rw [lfsrEval_zero, lfsrEval_state_zero]
    rw [List.range_succ, List.foldl_append, show 31 - (m + 1) = 30 - m by omega, ushiftRight_pred b (by omega)]
    simp only [List.foldl_cons, List.foldl_nil, lfsrMulStep]
    rw [lfsrEval_xor_left, lfsrEval_xor_left, lfsrEval_xor_right, lfsrEval_lfsrTwice, lfsrEval_lfsrTwice, ih (by omega),
      hcoeff, lfsrEval_lfsrNext]

/-- The product of polynomials is one after the other. -/
theorem lfsrEval_lfsrMul (a b s : BitVec 31) : lfsrEval (lfsrMul a b) s = lfsrEval a (lfsrEval b s) := by
  rw [lfsrMul, lfsrEval_foldl_mul a b s (Nat.le_refl 31)]
  rfl

/-- The `n`-th power of x at the step is the step `n` times over. -/
theorem lfsrEval_lfsrPower {f n : Nat} (h : n < 2 ^ f) (s : BitVec 31) :
    lfsrEval (lfsrPower f n) s = lfsrSteps n s := by
  induction f generalizing n s with
  | zero =>
    obtain rfl : n = 0 := by omega
    exact lfsrEval_one s
  | succ f ih =>
    have hhalf (t : BitVec 31) := ih (n := n / 2) (by omega) t
    rw [lfsrPower_succ]
    split
    case isTrue h0 => rw [h0]; exact lfsrEval_one s
    case isFalse =>
      split
      case isTrue hodd =>
        rw [lfsrEval_lfsrTwice, lfsrEval_lfsrMul, hhalf, hhalf, ← lfsrSteps_add,
          ← lfsrSteps_succ]
        congr 1
        omega
      case isFalse heven =>
        rw [lfsrEval_lfsrMul, hhalf, hhalf, ← lfsrSteps_add]
        congr 1
        omega

/-- A skip is the step so many times over. -/
theorem lfsrSkip_eq_steps {n : Nat} (h : n < 2 ^ 64) (s : BitVec 31) : lfsrSkip n s = lfsrSteps n s :=
  (lfsrSkip_eq_eval n s).trans (lfsrEval_lfsrPower h s)

end Sys2Proof.Machine
end

section
/-! PROOFS. The line coding of the Plokam Link (07_plokam_link.md R159 to R163): each stage of a receiver undoes the
transmitter's, and a block carries its header, its payload and its CRC8. -/

namespace Sys2Proof.Machine

/-! ### The stages of the line code (R159 to R161) -/

/-- The scrambler stands, after some bits, so many steps on. -/
theorem scramble_state (s : BitVec 31) (l : List Nat) : (scramble s l).2 = lfsrSteps (l.length) s := by
  induction l generalizing s with
  | nil => rfl
  | cons b r ih => exact ih (lfsrNext s)

/-- A scrambled stream has as many bits. -/
theorem scramble_length (s : BitVec 31) (l : List Nat) : (scramble s l).1.length = l.length := by
  induction l generalizing s with
  | nil => rfl
  | cons b r ih => exact congrArg (· + 1) (ih (lfsrNext s))

/-- What leaves the scrambler are bits. -/
theorem scramble_bits (s : BitVec 31) (l : List Nat) : ∀ b ∈ (scramble s l).1, b < 2 := by
  induction l generalizing s with
  | nil => exact fun _ h => absurd h List.not_mem_nil
  | cons b r ih => exact List.forall_mem_cons.mpr ⟨Nat.mod_lt _ (by decide), ih (lfsrNext s)⟩

/-- The scrambler from the same state undoes the scrambler. -/
theorem scramble_scramble (s : BitVec 31) {l : List Nat} (h : ∀ b ∈ l, b < 2) :
    (scramble s (scramble s l).1).1 = l := by
  induction l generalizing s with
  | nil => rfl
  | cons b r ih =>
    obtain ⟨hb, hr⟩ := List.forall_mem_cons.mp h
    exact List.cons_eq_cons.mpr ⟨by omega, ih (lfsrNext s) hr⟩

/-- The receiver's precoder undoes the transmitter's (R160). -/
theorem unprecode_precode {p : Nat} (hp : p < 4) {l : List Nat} (h : ∀ v ∈ l, v < 4) :
    unprecode p (precode p l) = l := by
  induction l generalizing p with
  | nil => rfl
  | cons v r ih =>
    obtain ⟨hv, hr⟩ := List.forall_mem_cons.mp h
    exact List.cons_eq_cons.mpr ⟨by omega, ih (Nat.mod_lt _ (by decide)) hr⟩

/-- A symbol's pair is the pair that it was made of (R159). -/
theorem grayPair_grayValue {lo hi : Nat} (hlo : lo < 2) (hhi : hi < 2) : grayPair (grayValue lo hi) = (lo, hi) := by
  obtain rfl | rfl : lo = 0 ∨ lo = 1 := by omega
  · obtain rfl | rfl : hi = 0 ∨ hi = 1 := by omega
    · rfl
    · rfl
  · obtain rfl | rfl : hi = 0 ∨ hi = 1 := by omega
    · rfl
    · rfl

/-- A symbol has four values. -/
theorem grayValue_lt {lo : Nat} (hlo : lo < 2) (hi : Nat) : grayValue lo hi < 4 := by
  unfold grayValue
  split <;> omega

/-- The bits of the symbols of bits, two for each symbol. -/
theorem bitsOfSymbols_symbolsOfBits {n : Nat} {l : List Nat} (hn : l.length = 2 * n) (h : ∀ b ∈ l, b < 2) :
    bitsOfSymbols (symbolsOfBits l) = l := by
  induction n generalizing l with
  | zero => rw [List.length_eq_zero_iff.mp hn]; rfl
  | succ n ih =>
    match l, hn, h with
    | lo :: hi :: r, hn, h =>
      obtain ⟨hlo, hhi, hr⟩ := List.forall_mem_cons.mp h |>.imp_right List.forall_mem_cons.mp
      have hpair := grayPair_grayValue hlo hhi
      show (grayPair (grayValue lo hi)).1 :: (grayPair (grayValue lo hi)).2 :: bitsOfSymbols (symbolsOfBits r) = _
      rw [hpair, ih (by simpa [Nat.mul_succ] using hn) hr]

/-- The symbols of bits have four values. -/
theorem symbolsOfBits_lt {n : Nat} {l : List Nat} (hn : l.length = 2 * n) (h : ∀ b ∈ l, b < 2) :
    ∀ v ∈ symbolsOfBits l, v < 4 := by
  induction n generalizing l with
  | zero => rw [List.length_eq_zero_iff.mp hn]; exact fun _ h => absurd h List.not_mem_nil
  | succ n ih =>
    match l, hn, h with
    | lo :: hi :: r, hn, h =>
      obtain ⟨hlo, hhi, hr⟩ := List.forall_mem_cons.mp h |>.imp_right List.forall_mem_cons.mp
      exact List.forall_mem_cons.mpr ⟨grayValue_lt hlo hi, ih (by simpa [Nat.mul_succ] using hn) hr⟩

/-- The bits of a byte, least significant first. -/
def byteBits (b : Byte) : List Nat := (List.range 8).map fun i => b2n (bitOf b.toNat i)

/-- The bits of bytes, byte by byte. -/
theorem bitsOfBytes_cons (b : Byte) (l : List Byte) : bitsOfBytes (b :: l) = byteBits b ++ bitsOfBytes l := rfl

/-- A byte has 8 bits. -/
theorem byteBits_length (b : Byte) : (byteBits b).length = 8 := by simp [byteBits]

/-- A byte is what its bits spell. -/
theorem ofNat_byteBits (b : Byte) : BitVec.ofNat 8 ((byteBits b).foldr (fun b a => b + 2 * a) 0) = b := by
  refine BitVec.eq_of_toNat_eq ?_
  simp only [byteBits, b2n_bitOf, List.range, List.range.loop, List.map_cons, List.map_nil, List.foldr_cons,
    List.foldr_nil, BitVec.toNat_ofNat]
  omega

/-- Eight bits for each byte. -/
theorem bitsOfBytes_length (l : List Byte) : (bitsOfBytes l).length = 8 * l.length := by
  induction l with
  | nil => rfl
  | cons b r ih => rw [bitsOfBytes_cons, List.length_append, byteBits_length, ih, List.length_cons]; omega

/-- What bytes are made of are bits. -/
theorem bitsOfBytes_bits (l : List Byte) : ∀ b ∈ bitsOfBytes l, b < 2 := by
  intro b hb
  simp only [bitsOfBytes, List.mem_flatMap, List.mem_map, b2n_bitOf] at hb
  obtain ⟨_, _, _, _, rfl⟩ := hb
  exact Nat.mod_lt _ (by decide)

/-- The bytes of the bits of bytes. -/
theorem bytesOfBits_bitsOfBytes (l : List Byte) : bytesOfBits l.length (bitsOfBytes l) = l := by
  induction l with
  | nil => rfl
  | cons b r ih =>
    rw [bitsOfBytes_cons, List.length_cons, bytesOfBits, List.take_left' (byteBits_length b),
      List.drop_left' (byteBits_length b), ofNat_byteBits, ih]

/-! ### Blocks (R162, R163) -/

/-- Turned round, a number has as many bits as are turned. -/
theorem reflect_lt (w n : Nat) : reflect w n < 2 ^ w := by
  induction w generalizing n with
  | zero => exact Nat.one_pos
  | succ w ih =>
    have h := ih (n / 2)
    have hm : n % 2 * 2 ^ w ≤ 1 * 2 ^ w := Nat.mul_le_mul_right _ (by omega)
    rw [reflect, Nat.pow_succ]
    omega

/-- CRC8 has 8 bits. -/
theorem crc8_lt (l : List Byte) : crc8 l < 256 := by
  unfold crc8 crcOf
  exact Nat.xor_lt_two_pow (n := 8) (reflect_lt 8 _) (by decide)

/-- A header's number: its fields, and the parity of their ones on top. -/
theorem blockHeader_toNat {bseq typ : Nat} (sop : Bool) (ht : typ < 8) (hb : bseq < 8) :
    (blockHeader bseq typ sop).toNat
      = typ + 8 * b2n sop + 16 * bseq + 128 * (ones (typ + 8 * b2n sop + 16 * bseq) % 2) := by
  have hs := b2n_lt sop
  rw [blockHeader, BitVec.toNat_ofNat, Nat.mod_eq_of_lt hb]
  omega

/-- Seven bits with their parity on top have an even number of ones. -/
theorem ones_parity {h : Nat} (hh : h < 128) : ones (h + 128 * (ones h % 2)) % 2 = 0 := by
  have key : ∀ h : Fin 128, ones (h.val + 128 * (ones h.val % 2)) % 2 = 0 := by decide +kernel
  exact key ⟨h, hh⟩

/-- The bytes of a block that its CRC8 covers (R162). -/
def blockBody (bseq typ : Nat) (sop : Bool) (payload : List Byte) : List Byte :=
  blockHeader bseq typ sop :: (payload ++ List.replicate (28 - payload.length) 0)

/-- A block is what its CRC8 covers, and the CRC8. -/
theorem blockBytes_eq (bseq typ : Nat) (sop : Bool) (payload : List Byte) : blockBytes bseq typ sop payload
    = blockBody bseq typ sop payload ++ [BitVec.ofNat 8 (crc8 (blockBody bseq typ sop payload))] := rfl

section
variable {bseq typ : Nat} {sop : Bool} {payload : List Byte}

/-- CRC8 covers 29 bytes. -/
theorem blockBody_length (h : payload.length ≤ 28) : (blockBody bseq typ sop payload).length = 29 := by
  simp [blockBody]
  omega

/-- A block has 30 bytes. -/
theorem blockBytes_length (h : payload.length ≤ 28) : (blockBytes bseq typ sop payload).length = 30 := by
  rw [blockBytes_eq, List.length_append, blockBody_length h, List.length_singleton]

/-- A block starts with its header. -/
theorem byteAt_blockBytes_zero : byteAt (blockBytes bseq typ sop payload) 0 = blockHeader bseq typ sop := rfl

/-- A block ends in a right CRC8. -/
theorem blockGood_blockBytes (h : payload.length ≤ 28) : blockGood (blockBytes bseq typ sop payload) = true := by
  have hl := blockBody_length (bseq := bseq) (typ := typ) (sop := sop) h
  rw [blockGood, blockBytes_eq, decide_eq_true_eq, byteAt, ← hl, List.take_left,
    List.getD_eq_getElem?_getD, List.getElem?_concat_length, Option.getD_some]
  exact Nat.mod_eq_of_lt (crc8_lt _)

/-- A block carries its payload after the header. -/
theorem blockBytes_payload : ((blockBytes bseq typ sop payload).drop 1).take payload.length = payload := by
  rw [blockBytes_eq, blockBody, List.cons_append, List.drop_one, List.tail_cons, List.append_assoc, List.take_left]

/-- A block's header reads back, with even parity (R163). -/
theorem blockBytes_header (ht : typ < 8) (hb : bseq < 8) :
    blockType (blockBytes bseq typ sop payload) = typ ∧ blockSop (blockBytes bseq typ sop payload) = sop
    ∧ blockBseq (blockBytes bseq typ sop payload) = bseq
    ∧ ones (byteAt (blockBytes bseq typ sop payload) 0).toNat % 2 = 0 := by
  have hs := b2n_lt sop
  rw [blockType, blockSop, blockBseq, byteAt_blockBytes_zero, blockHeader_toNat sop ht hb]
  refine ⟨?_, ?_, ?_, ones_parity (by omega)⟩
  · simp only [bits]; omega
  · rw [bitOf, show _ / 2 ^ 3 % 2 = b2n sop by omega]
    cases sop <;> rfl
  · simp only [bits]; omega

end

/-! ### A block over the line -/

/-- A receiver in the state of the scrambler, with the use of the precoder, with which a block's symbols were made
decodes its bytes, and moves on by its bits. -/
theorem unscramble_blockLevels (x : LaneSt) {typ : Nat} {b : List Byte} (ht : typ ≠ 5) (hb : b.length = 30) :
    (unscramble x (blockLevels typ (lfsrHere x) x.preFwd b)).1 = b
    ∧ (unscramble x (blockLevels typ (lfsrHere x) x.preFwd b)).2.lfsr = lfsrSteps blockBits (lfsrHere x) := by
  have hlen : (scramble (lfsrHere x) (bitsOfBytes b)).1.length = 2 * 120 := by
    rw [scramble_length, bitsOfBytes_length, hb]
  have hbits := scramble_bits (lfsrHere x) (bitsOfBytes b)
  have hsyms : (if x.preFwd then unprecode 0 (blockLevels typ (lfsrHere x) x.preFwd b)
      else blockLevels typ (lfsrHere x) x.preFwd b) = symbolsOfBits (scramble (lfsrHere x) (bitsOfBytes b)).1 := by
    rw [blockLevels, if_neg ht]
    cases x.preFwd with
    | false => rfl
    | true => exact unprecode_precode (by decide) (symbolsOfBits_lt hlen hbits)
  unfold unscramble
  dsimp only
  rw [hsyms, bitsOfSymbols_symbolsOfBits hlen hbits, scramble_scramble _ (bitsOfBytes_bits b), scramble_state, hlen,
    ← hb]
  exact ⟨bytesOfBits_bitsOfBytes b, rfl⟩

/-- The symbols of a stretch of one block. -/
theorem levels_one (typ : Nat) (sop : Bool) (payload : List Byte) (bseq : Nat) (lfsr : BitVec 31) (pre : Bool) :
    (Burst.blocks 1 typ sop payload bseq lfsr pre).levels
      = blockLevels typ lfsr pre (blockBytes bseq typ sop payload) := by
  have hskip : lfsrSkip (blockBits * 0) lfsr = lfsr := lfsrSkip_eq_steps (by decide) lfsr
  show blockLevels typ (lfsrSkip (blockBits * 0) lfsr) pre (blockBytes bseq typ sop payload) ++ [] = _
  rw [hskip, List.append_nil]

/-- A block moves the transmitter's scrambler on by its bits. -/
theorem sendBlock_retLfsr (x : LaneSt) (typ : Nat) (sop : Bool) (payload : List Byte) :
    (sendBlock x typ sop payload).retLfsr = lfsrSteps blockBits x.retLfsr := by
  have hskip : (sendBlock x typ sop payload).retLfsr = lfsrSkip (blockBits * 1) x.retLfsr := by
    rw [sendBlock, sendRun, if_neg Nat.one_ne_zero, putBurst]
  rw [hskip, lfsrSkip_eq_steps (by decide), Nat.mul_one]

/-- Settles O22: the receiver undoes the stages one after another, and the transmitter's skip is the receiver's
steps. -/
theorem lineCodingRoundTrip : Obligations.LineCodingRoundTrip := by
  intro x typ sop payload ht h5 hp hq y u b r
  have hlen : b.length = 30 := blockBytes_length hp
  have hlevels : u.levels = blockLevels typ x.retLfsr x.preRet b := levels_one ..
  obtain ⟨hbytes, hlfsr⟩ : r.1 = b ∧ r.2.lfsr = lfsrSteps blockBits x.retLfsr := by
    unfold r
    rw [hlevels]
    exact unscramble_blockLevels { x with lfsr := x.retLfsr, fresh := false, preFwd := x.preRet } h5 hlen
  obtain ⟨htype, hsop, hbseq, hparity⟩ := blockBytes_header (sop := sop) (payload := payload) ht hq
  exact ⟨rfl, rfl, hbytes, hlfsr.trans (sendBlock_retLfsr x typ sop payload).symm,
    hlen, htype, hsop, hbseq, hparity, blockGood_blockBytes hp, blockBytes_payload, rfl⟩

end Sys2Proof.Machine
end

section
/-! PROOFS. The rows of the lanes of the Plokam Link (07_plokam_link.md R167 to R181): bring-up, loss, adaptation, eye
scans and sleep. -/

namespace Sys2Proof.Machine

section
variable {c : Instr} {s u : State} {when : State → Bool} {f : State → State} {g : State}

/-- A row of a lane that acts where its premise holds of the state that the command comes to. -/
theorem answers_if {P : Prop} [Decidable P] (hc : exec c s = .next (if P then f u else g))
    (hw : when u = true → P) : Answers c s u when f := fun h => by rw [hc, if_pos (hw h)]

/-- A row with two premises, where both hold. -/
theorem answers_if_if {P Q : Prop} [Decidable P] [Decidable Q] {g' : State}
    (hc : exec c s = .next (if P then if Q then f u else g' else g)) (hw : when u = true → P ∧ Q) :
    Answers c s u when f := fun h => by rw [hc, if_pos (hw h).1, if_pos (hw h).2]

/-- A row with two premises, where the first holds alone. -/
theorem answers_if_unless {P Q : Prop} [Decidable P] [Decidable Q] {g' : State}
    (hc : exec c s = .next (if P then if Q then g' else f u else g)) (hw : when u = true → P ∧ ¬Q) :
    Answers c s u when f := fun h => by rw [hc, if_pos (hw h).1, if_neg (hw h).2]

end

/-- The receiver of a forward direction that resumes from L2 has adapted (R169, R180). -/
theorem exec_rxReady_l2 {dt : Nat} {l : Lane} {found : TrainResult} {s : State}
    (ha : (s.elapse dt).lines.adaptEnds ((s.elapse dt).lines.lane l) found ∧ !((s.elapse dt).lines.lane l).rxReady)
    (hs : ((s.elapse dt).lines.lane l).stage = .active) (hf : ((s.elapse dt).lines.lane l).fwd = .l2) :
    exec (.rxReady dt l found) s = .next ((s.elapse dt).lines.setLane l
      (tellReady l (adapted ((s.elapse dt).lines.lane l) found))) :=
  congrArg _ ((if_pos ha).trans ((if_neg (by simp [hs])).trans (if_pos ⟨hs, hf⟩)))

/-- A return that sleeps may resume: for a record or because RET_POLICY is 0, not in STANDBY (R181). -/
def State.returnWakes (u : State) (l : Lane) : Prop :=
  (u.lane l).stage = .active ∧ (u.recordWaits ∨ u.fld pRetSleep 1 0 = 0) ∧ !(u.lane l).retTrain
    ∧ u.pwr.state ≠ .standby

section
variable {dt : Nat} {l : Lane} {s : State}

/-- A return resumes from L1 with PRBS13 and a LAST, and joins its partner's (R180, R181). -/
theorem exec_returnResume_l1 (h : (s.elapse dt).lines.returnWakes l) (hr : ((s.elapse dt).lines.lane l).ret = .l1) :
    exec (.returnResume dt l) s = .next (((s.elapse dt).lines.setLane l
      { sendLast l (sendPrbs ((s.elapse dt).lines.lane l) 800) with
        ret := .l0, retIdleAt := (s.elapse dt).lines.clk }).joinReturn l) := by
  unfold State.returnWakes at h
  show execReturnResume dt l s = _
  simp only [execReturnResume, if_pos h, hr]

/-- A return resumes from L2 by training anew (R181). -/
theorem exec_returnResume_l2 (h : (s.elapse dt).lines.returnWakes l) (hr : ((s.elapse dt).lines.lane l).ret = .l2) :
    exec (.returnResume dt l) s = .next ((s.elapse dt).lines.setLane l
      { (s.elapse dt).lines.lane l with
        retTrain := true, retReady := false, retrainAt := (s.elapse dt).lines.clk }) := by
  unfold State.returnWakes at h
  show execReturnResume dt l s = _
  simp only [execReturnResume, if_pos h, hr]

end

/-- Settles O52: each row's own arm, under its premise. -/
theorem laneTrainingEventsComplete : Obligations.LaneTrainingEventsComplete := by
  intro s dt l
  refine ⟨answers_if rfl ?poll, answers_if rfl ?poll, fun _ => rfl, fun found => answers_if_if rfl ?trained,
    fun found h => ?resumed, answers_if rfl of_decide_eq_true, answers_if rfl of_decide_eq_true,
    answers_if_if rfl ?last, answers_if_unless rfl ?again, answers_if rfl ?signal, answers_if rfl id,
    answers_if rfl ?tap⟩
  case resumed =>
    simp only [Bool.and_eq_true, decide_eq_true_eq] at h
    obtain ⟨⟨ha, hs⟩, hf⟩ := h
    exact exec_rxReady_l2 ha hs hf
  case again => simp only [Bool.and_eq_true, decide_eq_true_eq, Nat.not_le, imp_self]
  case poll | trained | last | signal | tap => simp only [Bool.and_eq_true, decide_eq_true_eq, imp_self]

/-- Settles O53: each row's own arm, under its premise. -/
theorem laneServiceEventsComplete : Obligations.LaneServiceEventsComplete := by
  intro s dt l
  refine ⟨fun w => answers_if_if rfl ?rich, fun w => answers_if_unless rfl ?poor, fun eye => answers_if rfl ?scan,
    answers_if rfl ?resume, fun pol hpol h => ?idle, fun h => ?wakeL1, fun h => ?wakeL2, answers_if rfl ?late⟩
  case poor =>
    simp only [Bool.and_eq_true, Bool.not_eq_true', ← Bool.not_eq_true, decide_eq_true_eq, imp_self]
  case rich | resume => simp only [Bool.and_eq_true, decide_eq_true_eq, and_assoc, imp_self]
  case idle =>
    simp only [Bool.and_eq_true, decide_eq_true_eq] at h
    obtain ⟨⟨⟨⟨ha, hr⟩, ht⟩, hw⟩, rfl⟩ := h
    exact congrArg _ (if_pos ⟨ha, hr, ht, hw, hpol⟩)
  case wakeL1 =>
    simp only [Bool.and_eq_true, Bool.or_eq_true, decide_eq_true_eq] at h
    obtain ⟨⟨⟨⟨ha, hw⟩, ht⟩, hp⟩, hr⟩ := h
    exact exec_returnResume_l1 ⟨ha, hw, ht, hp⟩ hr
  case wakeL2 =>
    simp only [Bool.and_eq_true, Bool.or_eq_true, decide_eq_true_eq] at h
    obtain ⟨⟨⟨⟨ha, hw⟩, ht⟩, hp⟩, hr⟩ := h
    exact exec_returnResume_l2 ⟨ha, hw, ht, hp⟩ hr
  case scan | late => simp only [Bool.and_eq_true, decide_eq_true_eq, imp_self]

end Sys2Proof.Machine
end

section
/-! PROOFS. What the commands that write registers of one unit can change (02_command_model.md R57, R345,
04_composition.md R193, 09_strings_crest.md, 16_journal_recovery_firmware.md R359, R361, 17_group_operation.md R364,
R365): a relation that serving a packet with its entry keeps is kept by the command, if its effect keeps it. -/

namespace Sys2Proof.Machine

/-! ### Parts written whole -/

/-- The parameters alone are written. -/
theorem setPrm_frame (s : State) (x : Prm) : sameBut [.params] s { s with prm := x } := by
  intro y hy
  cases y <;> first | exact absurd (by decide) hy | rfl | exact ⟨rfl, rfl⟩ | exact ⟨rfl, rfl, rfl⟩

/-- The registers of the strings and of Crest alone are written. -/
theorem setStr_frame (s : State) (x : Str) : sameBut [.strings] s { s with str := x } := by
  intro y hy
  cases y <;> first | exact absurd (by decide) hy | rfl | exact ⟨rfl, rfl⟩ | exact ⟨rfl, rfl, rfl⟩

/-- The registers of composition alone are written. -/
theorem setComp_frame (s : State) (x : Comp) : sameBut [.compose] s { s with comp := x } := by
  intro y hy
  cases y <;> first | exact absurd (by decide) hy | rfl | exact ⟨rfl, rfl⟩ | exact ⟨rfl, rfl, rfl⟩

/-- The frame registers alone are written. -/
theorem setFrm_frame (s : State) (x : Frm) : sameBut [.frames] s { s with frm := x } := by
  intro y hy
  cases y <;> first | exact absurd (by decide) hy | rfl | exact ⟨rfl, rfl⟩ | exact ⟨rfl, rfl, rfl⟩

/-- The sessions and the rest of the firmware registers alone are written. -/
theorem setFw_frame (s : State) (x : Fw) : sameBut [.firmware] s { s with fw := x } := by
  intro y hy
  cases y <;> first | exact absurd (by decide) hy | rfl | exact ⟨rfl, rfl⟩ | exact ⟨rfl, rfl, rfl⟩

/-- What MRAM keeps beside the journal's lines alone is written. -/
theorem setNvm_frame (s : State) (x : Nvm) (hj : x.journal = s.nvm.journal) :
    sameBut [.stored] s { s with nvm := x } := by
  intro y hy
  cases y <;> first | exact absurd (by decide) hy | rfl | exact ⟨rfl, hj⟩ | exact ⟨rfl, rfl⟩ | exact ⟨rfl, rfl, rfl⟩

/-! ### Records of the configuration region (R284, R364) -/

/-- A line of the configuration region. -/
def inConf (a : Nat) : Prop := 0x10710000 ≤ a ∧ a < 0x10720000

/-- The records of the configuration region stand in it (log 40). -/
theorem inConf_confLine {k : Nat} (hk : k < 1024) : inConf (confLine k) := by
  unfold inConf confLine
  omega

/-- The configuration region is the sector of each of its lines. -/
theorem inConf_iff_sector {a b : Nat} (ha : inConf a) :
    inConf b ↔ 0x10000000 + 65536 * sectorOf a ≤ b ∧ b < 0x10000000 + 65536 * sectorOf a + 65536 := by
  unfold inConf at *
  unfold sectorOf
  omega

/-- A line of the configuration region has no source (R274). -/
theorem sourceOf_conf {a : Nat} (h : inConf a) (s : State) : s.sourceOf a = 0 := by
  obtain ⟨hlo, hhi⟩ := h
  have hr : regionOf a = 22 := by
    unfold regionOf
    repeat rw [if_neg (by omega)]
    rw [if_pos (by omega)]
  simp only [State.sourceOf, hr, if_neg (Nat.not_lt.mpr hlo)]

/-- Nothing is put back into a line of the configuration region that is read. -/
theorem readLine_conf {a : Nat} (h : inConf a) (s : State) : sameBut readParts s (s.readLine 7 a).1 := by
  have gone : sameBut readParts s (s.errGone a) := sameBut_mono (errGone_frame s a) (by decide)
  unfold State.readLine
  split
  · exact lineLost_read s a 7
  · split
    · exact sameBut_refl _ s
    · exact sameBut_trans gone (sameBut_mono (lineCorrected_frame _ _ _ _) (by decide))
    · have hsrc : (s.errGone a).sourceUsed 7 a = false := by simp [State.sourceUsed, sourceOf_conf h]
      simp only [State.refetch, hsrc, Bool.false_and, Bool.false_eq_true, if_false]
      exact sameBut_trans gone (lineLost_read _ a 7)
    · exact sameBut_trans gone (lineLost_read _ a 7)

/-- The sector of the configuration region is copied to a spare one. -/
theorem remapSector_conf {a : Nat} (h : inConf a) (s : State) (k : Nat) :
    sameBut keepParts s (s.remapSector a k) := by
  unfold State.remapSector
  extract_lets sec read spares _ mapped
  have hread : sameBut keepParts s read :=
    List.foldlRecOn (motive := fun x : State × List Nat => sameBut keepParts s x.1) _ _ (sameBut_refl _ s)
      fun x hx b hb => by
        rw [State.troubledIn, List.mem_filter, Bool.and_eq_true, decide_eq_true_eq, decide_eq_true_eq] at hb
        obtain ⟨-, hlo, hhi⟩ := hb
        have hb : inConf b := (inConf_iff_sector h).mpr ⟨by unfold lineOf at hlo; omega, hhi⟩
        have hline := sameBut_trans hx (sameBut_mono (readLine_conf hb x.1) (by decide))
        dsimp only
        split <;> exact hline
  have hmap : sameBut keepParts read mapped := sameBut_mono (setNvm_frame read _ rfl) (by decide)
  exact sameBut_trans hread (sameBut_trans hmap (sameBut_mono (evt_frame _ _ _ _ _ _ _ _) (by decide)))

/-- A line of the configuration region is written and read back. -/
theorem verifyLine_conf {a : Nat} (h : inConf a) (s : State) : sameBut keepParts s (s.verifyLine a).1 := by
  have gone : sameBut keepParts s (s.errGone a) := sameBut_mono (errGone_frame s a) (by decide)
  unfold State.verifyLine
  split
  · exact sameBut_refl _ s
  · split
    · exact sameBut_trans gone (remapSector_conf h _ _)
    · exact sameBut_trans gone (writeFails_frame _ a)

/-- Lines of the configuration region are written and read back. -/
theorem verifyLines_conf {as : List Nat} (h : ∀ a ∈ as, inConf a) (s : State) :
    sameBut keepParts s (s.verifyLines as).1 := by
  induction as generalizing s with
  | nil => exact sameBut_refl _ s
  | cons a r ih =>
    obtain ⟨ha, hr⟩ := List.forall_mem_cons.mp h
    unfold State.verifyLines
    dsimp only
    split
    · exact sameBut_trans (verifyLine_conf ha s) (ih hr _)
    · exact verifyLine_conf ha s

/-- Records of the configuration region are written. -/
theorem storeConf_frame {l : List Nat} (h : ∀ k ∈ l, k < 1024) (s : State) :
    sameBut durParts s (s.storeConf l).1 := by
  have hlines : ∀ a ∈ l.map confLine, inConf a := by
    intro a ha
    obtain ⟨k, hk, rfl⟩ := List.mem_map.mp ha
    exact inConf_confLine (h k hk)
  have hv := sameBut_trans (abortMrams_frame (l.map confLine) s)
    (sameBut_mono (verifyLines_conf hlines _) (by decide))
  unfold State.storeConf
  dsimp only
  split
  · exact sameBut_trans hv (sameBut_mono (wholeWritten_frame _ _) (by decide))
  · exact hv

/-- Lines written whole leave no errors where none stand. -/
theorem wholeWritten_calm (s : State) (f : Nat → Bool) : calmBut [.memory] s (s.wholeWritten f) := fun c => by
  refine ⟨?_, wholeWritten_frame s f⟩
  simp only [State.calm, Bool.and_eq_true, List.isEmpty_iff] at c ⊢
  exact ⟨by simp [State.wholeWritten, c.1], c.2⟩

/-- In a calm state every line takes its write. -/
theorem verifyLines_calm {s : State} (c : s.calm = true) (as : List Nat) : s.verifyLines as = (s, true) := by
  induction as with
  | nil => rfl
  | cons a r ih => simp [State.verifyLines, State.verifyLine, calm_good c, ih]

/-- In a calm state records are written, and nothing else comes of it. -/
theorem storeConf_calm (s : State) (l : List Nat) : calmBut [.memory] s (s.storeConf l).1 := fun c => by
  simp only [State.storeConf, abortMrams_calm _ s c, verifyLines_calm c, if_true]
  exact wholeWritten_calm s _ c

/-! ### Serving a command with an entry of its own -/

/-- A relation that serving a packet keeps, with the packet's own entry, in MRAM too where it may be durable. -/
structure EntryRel (durable : Bool) (R : State → State → Prop) : Prop where
  serve : ServeRel serveParts R
  line  : durable = true → ∀ u j, R u (u.jDurable j)

/-- A served command keeps the relation that its effect keeps on the packets of its layout. -/
theorem exec_entry {durable : Bool} {R : State → State → Prop} {c : Instr} {op : Nat} {d : OpDef} {p : Pkt}
    {s : State} (hR : EntryRel durable R) (hc : exec c s = .next (serveOp op d p false s)) (ht : p.timed = false)
    (hj : durable = false → d.jnl (ownOf op p s) ≠ 2 ∧ p.durable = false)
    (hr : d.len (ownOf op p s) = true → ∀ j u, Ends R u (d.run j (ownOf op p s) u)) :
    ∃ t, exec c s = .next t ∧ R s t := by
  refine ⟨_, hc, serveOp_checked hR.serve (by decide) (by decide) (by decide) ht
    (.inr ⟨by decide, .inr ?_⟩) fun _ hlen _ _ => hr hlen⟩
  cases durable with
  | false => exact .inl (hj rfl)
  | true => exact .inr (hR.line rfl)

/-- A frame that takes in what a durable entry changes. -/
theorem frame_entryRel {l : List Part} (hs : ∀ x ∈ serveParts, x ∈ l) (hd : ∀ x ∈ durParts, x ∈ l) :
    EntryRel true (sameBut l) :=
  ⟨sameBut_serveRel hs, fun _ u j => sameBut_mono (jDurable_frame u j) hd⟩

/-- A frame, for a command whose entry is not durable. -/
theorem brief_entryRel {l : List Part} (hs : ∀ x ∈ serveParts, x ∈ l) : EntryRel false (sameBut l) :=
  ⟨sameBut_serveRel hs, fun h => absurd h (by decide)⟩

/-- A frame of calm states. -/
theorem calm_entryRel {l : List Part} (hs : ∀ x ∈ serveParts, x ∈ l) (hm : .memory ∈ l) :
    EntryRel true (calmBut l) :=
  ⟨calmBut_serveRel hs (by decide) (by decide), fun _ u j => calmBut_mono (jDurable_calm u j) fun x hx => by
    have hjrn : .journal ∈ l := hs _ (by decide)
    simp only [List.mem_cons, List.not_mem_nil, or_false] at hx
    rcases hx with rfl | rfl <;> assumption⟩

/-! ### Registers of one unit -/

/-- The parts that a command of this family may change, where errors stand in lines or a slice runs. -/
def unitParts : List Part := .firmware :: .frames :: .strings :: .compose :: .groups :: durParts

/-- The parts that serving a command of this family changes, where its entry is not durable or the state is calm. -/
def briefParts : List Part := [.rings, .params, .firmware, .journal, .memory]

/-- A command has its own frame where its entry is not durable or the state is calm, and in any state one that takes
in what a durable entry may meet. -/
def OwnFrame (l : List Part) (durable : Bool) (c : Instr) (s : State) : Prop :=
  Touches unitParts c s ∧ (durable = false ∨ s.calm = true → Touches l c s)

section
variable {l m : List Part} {c : Instr} {op : Nat} {d : OpDef} {p : Pkt} {s : State}
  (hm : ∀ x ∈ m, x ∈ unitParts ∧ x ≠ .memory ∧ x ≠ .selfTest ∧ x ∈ l) (hl : ∀ x ∈ briefParts, x ∈ l)
  (hc : exec c s = .next (serveOp op d p false s)) (ht : p.timed = false) (hj : d.jnl (ownOf op p s) ≠ 2)
include hm hl hc ht hj

/-- A command whose effect changes registers of the parts `m`, and journal entries as its packet asks, has its own
frame. -/
theorem ownFrame_of (hr : ∀ R, EntryRel p.durable R → (∀ {u v}, sameBut m u v → R u v) →
      ∀ j u, Ends R u (d.run j (ownOf op p s) u)) : OwnFrame l p.durable c s := by
  have hserve : ∀ x ∈ serveParts, x ∈ l := fun x hx => hl x (by revert x; decide)
  have line {R} (hR : EntryRel true R) : EntryRel p.durable R := ⟨hR.serve, fun _ => hR.line rfl⟩
  have hunit : EntryRel true (sameBut unitParts) := frame_entryRel (by decide) (by decide)
  refine ⟨exec_entry hunit hc ht nofun fun _ =>
    hr _ (line hunit) fun h => sameBut_mono h fun x hx => (hm x hx).1, fun h => ?_⟩
  have hml : ∀ x ∈ m, x ∈ l := fun x hx => (hm x hx).2.2.2
  cases h with
  | inl hd =>
    have hR : EntryRel false (sameBut l) := brief_entryRel hserve
    exact exec_entry hR hc ht (fun _ => ⟨hj, hd⟩) fun _ => hr _ (hd ▸ hR) fun h => sameBut_mono h hml
  | inr hcalm =>
    have hR : EntryRel true (calmBut l) := calm_entryRel hserve (hl _ (by decide))
    obtain ⟨t, he, hrel⟩ := exec_entry hR hc ht nofun fun _ =>
      hr _ (line hR) fun h => calmBut_of h hml (fun hx => (hm _ hx).2.1 rfl) fun hx => (hm _ hx).2.2.1 rfl
    exact ⟨t, he, (hrel hcalm).2⟩

/-- A command that writes registers of the parts `m` and completes has its own frame. -/
theorem ownFrame_writes (hr : ∀ j u, ∃ v r, d.run j (ownOf op p s) u = okOut v r ∧ sameBut m u v) :
    OwnFrame l p.durable c s :=
  ownFrame_of hm hl hc ht hj fun R _ hbase j u => by
    obtain ⟨v, r, hrun, hv⟩ := hr j u
    rw [hrun]
    exact ends_okOut r (hbase hv)

end

/-! ### The effects of system, journal and self-test commands -/

/-- RING_CONFIG is journaled on request where it configures rings (R413). -/
theorem ringConfig_jnl (q : Pkt) : ringConfigDef.jnl q ≠ 2 := by
  simp only [ringConfigDef]
  split <;> decide

/-- RING_CONFIG writes the ring registers, or answers them. -/
theorem ringConfig_writes (j : Word) (q : Pkt) (u : State) :
    ∃ v r, ringConfigDef.run j q u = okOut v r ∧ sameBut [.rings] u v := by
  simp only [ringConfigDef]
  split
  · exact ⟨_, _, rfl, sameBut_refl _ u⟩
  · exact ⟨_, _, rfl, setCmd_frame u _⟩

/-- JRNL_MARK makes its own entry, durable as its packet asks (R344). -/
theorem jrnlMark_ends {R : State → State → Prop} {q : Pkt} (hR : EntryRel q.durable R) (j : Word) (u : State) :
    Ends R u (jrnlMarkDef.run j q u) := by
  have hadd : R u (u.jAdd (markEntry q) q.durable).1 := hR.serve.base (sameBut_mono (jAdd_frame u _ _) (by decide))
  refine ⟨?_, rfl, fun _ => rfl⟩
  simp only [jrnlMarkDef]
  split
  · exact hR.serve.trans hadd (hR.line (by assumption) _ _)
  · exact hadd

/-! ### The effects of frame and overlay commands (R193) -/

/-- SCENE_MIX writes shadow values of four parameters marked S. -/
theorem sceneMix_shadowed (q : Pkt) (u : State) :
    ∀ e ∈ [(pMixCfg, q.u8 16 + 16 * q.u8 17 + 256 * q.u16 20 + 2 ^ 17 * q.u16 22), (pMixTime, q.u16 24),
        (pBaseLevel, q.u16 26)]
        ++ (if bitOf (q.u16 18) 1 then [(pCompCtrl, setBit (u.shadow pCompCtrl) 0)] else []),
      prmShadowed e.1 = true := by
  have hids : prmShadowed pMixCfg = true ∧ prmShadowed pMixTime = true ∧ prmShadowed pBaseLevel = true
      ∧ prmShadowed pCompCtrl = true := by decide
  obtain ⟨hcfg, htime, hlevel, hctrl⟩ := hids
  split <;> simp [hcfg, htime, hlevel, hctrl]

/-- WINDOW_SET writes shadow values of three parameters marked S. -/
theorem windowSet_shadowed (q : Pkt) :
    ∀ e ∈ [(pWinX, q.u32 16), (pWinY, q.u32 20), (pWinCtrl, q.u32 24 % 4)], prmShadowed e.1 = true := by
  have hids : prmShadowed pWinX = true ∧ prmShadowed pWinY = true ∧ prmShadowed pWinCtrl = true := by decide
  obtain ⟨hx, hy, hctrl⟩ := hids
  simp [hx, hy, hctrl]

/-- The parts that an overlay command writes: the staged contexts, COMMIT, the count of provisional sets. -/
def overlayParts : List Part := [.params, .frames, .compose]

/-- A staged overlay changes, and the provisional set with it while COMMIT is set (R193). -/
theorem stageOvl_frame (s : State) (t : Tab Overlay) : sameBut overlayParts s (s.stageOvl t) := by
  have hc : sameBut overlayParts s { s with comp := { s.comp with ovlStaged := t } } :=
    sameBut_mono (setComp_frame s _) (by decide)
  unfold State.stageOvl
  dsimp only
  split
  · exact sameBut_trans hc (sameBut_mono (setFrm_frame _ _) (by decide))
  · exact hc

/-- EN is cleared at once in the live copy and in the seam set (R107). -/
theorem clearNow_frame (s : State) (mask : Nat) : sameBut overlayParts s (s.clearNow mask) := by
  have hc : sameBut overlayParts s { s with comp := { s.comp with ovlLive := clearEn s.comp.ovlLive mask } } :=
    sameBut_mono (setComp_frame s _) (by decide)
  exact sameBut_trans hc (sameBut_mono (setFrm_frame _ _) (by decide))

/-- COMMIT may be set after an overlay command. -/
theorem setCommit_overlay (s : State) (b : Bool) : sameBut overlayParts s (if b then s.setCommit else s) := by
  split
  · exact sameBut_mono (setCommit_frame s) (by decide)
  · exact sameBut_refl _ s

/-- OVL_SET stages its overlay context. -/
theorem ovlSet_writes (j : Word) (q : Pkt) (u : State) :
    ∃ v r, ovlSetDef.run j q u = okOut v r ∧ sameBut overlayParts u v :=
  ⟨_, _, rfl, sameBut_trans (stageOvl_frame u _) (setCommit_overlay _ _)⟩

/-- OVL_CLEAR clears EN in the staged contexts, and with NOW in those in use. -/
theorem ovlClear_writes (j : Word) (q : Pkt) (u : State) :
    ∃ v r, ovlClearDef.run j q u = okOut v r ∧ sameBut overlayParts u v := by
  refine ⟨_, _, rfl, sameBut_trans ?_ (setCommit_overlay _ _)⟩
  split
  · exact sameBut_trans (stageOvl_frame u _) (clearNow_frame _ _)
  · exact stageOvl_frame u _

/-! ### The effects of string and Crest commands -/

/-- CREST_CONTROL acts on the engines, or leaves its action to the seam. -/
theorem crestControl_writes (j : Word) (q : Pkt) (u : State) :
    ∃ v r, crestControlDef.run j q u = okOut v r ∧ sameBut [.rings, .params, .strings] u v := by
  simp only [crestControlDef]
  split
  · exact ⟨_, _, rfl, sameBut_mono (setStr_frame u _) (by decide)⟩
  · exact ⟨_, _, rfl, crestControl_frame u _⟩

/-! ### The effects of session commands (R359 to R361) -/

/-- The parts that a session command writes: the sessions, and the values drawn for one. -/
def sessionParts : List Part := [.firmware, .free]

/-- A value is drawn. -/
theorem freeW_session (s : State) : sameBut sessionParts s s.freeW.1 := sameBut_mono (freeW_frame s) (by decide)

/-- A session is opened, replaced or closed. -/
theorem setSession_frame (s : State) (port : Port) (x : Option Session) :
    sameBut sessionParts s (s.setSession port x) := sameBut_mono (setFw_frame s _) (by decide)

/-- A byte that a row of the table fixes as 0 reads 0, also where the packet does not have it. -/
theorem ownOf_fix_zero {op off : Nat} {p : Pkt} {s : State} (ht : p.timed = false) :
    (ownOf op (p.fix off 0) s).u8 off = 0 := by
  by_cases h : off - 16 < (ownOf op (p.fix off 0) s).params.length
  · exact ownOf_fix ht h
  · unfold Pkt.u8 byteAt
    rw [List.getD_eq_getElem?_getD, List.getElem?_eq_none (Nat.not_lt.mp h)]
    rfl

/-- AUTH_OPEN with MODE 0 is journaled on request (R413). -/
theorem authOpen_jnl {q : Pkt} (hq : q.u8 17 = 0) : authOpenDef.jnl q ≠ 2 := by
  simp only [authOpenDef, hq]
  decide

/-- AUTH_OPEN with MODE 0 draws NE and opens the session. -/
theorem authOpen_writes (j : Word) {q : Pkt} (hq : q.u8 17 = 0) (u : State) :
    ∃ v r, authOpenDef.run j q u = okOut v r ∧ sameBut sessionParts u v := by
  simp only [authOpenDef, hq, if_true]
  split
  · exact ⟨_, _, rfl, sameBut_trans (freeW_session u)
      (sameBut_trans (freeW_session _) (setSession_frame _ _ _))⟩
  · exact ⟨_, _, rfl, sameBut_refl _ u⟩

/-- AUTH_CLOSE ends the session, and draws the CTR that it answers where none has been accepted. -/
theorem authClose_writes (j : Word) (q : Pkt) (u : State) :
    ∃ v r, authCloseDef.run j q u = okOut v r ∧ sameBut sessionParts u v := by
  refine ⟨_, _, rfl, sameBut_trans ?_ (setSession_frame _ _ _)⟩
  split
  · split
    · exact sameBut_refl _ u
    · exact freeW_session u
  · exact freeW_session u

/-! ### The effects that store records (R284, R364, R365, R359) -/

/-- A relation that a command which stores records keeps: its durable entry, the store, and what it writes. -/
structure StoreRel (m : List Part) (R : State → State → Prop) : Prop extends EntryRel true R where
  store : ∀ l : List Nat, (∀ k ∈ l, k < 1024) → ∀ u, R u (u.storeConf l).1
  own   : ∀ {s t}, sameBut m s t → R s t

/-- The frame of any state is one. -/
theorem unit_storeRel {m : List Part} (hm : ∀ x ∈ m, x ∈ unitParts) : StoreRel m (sameBut unitParts) where
  toEntryRel := frame_entryRel (by decide) (by decide)
  store _ h u := sameBut_mono (storeConf_frame h u) (by decide)
  own h := sameBut_mono h hm

/-- A frame of calm states is one. -/
theorem calm_storeRel {l m : List Part} (hl : ∀ x ∈ briefParts, x ∈ l)
    (hm : ∀ x ∈ m, x ≠ .memory ∧ x ≠ .selfTest ∧ x ∈ l) : StoreRel m (calmBut l) where
  toEntryRel := calm_entryRel (fun x hx => hl x (by revert x; decide)) (hl _ (by decide))
  store k _ u := calmBut_mono (storeConf_calm u k) fun x hx => hl x (by revert x; decide)
  own h := calmBut_of h (fun x hx => (hm x hx).2.2) (fun hx => (hm _ hx).1 rfl) fun hx => (hm _ hx).2.1 rfl

/-- A command that stores records has the frame of any state, and in a calm state its own. -/
theorem storeFrame_of {l m : List Part} {c : Instr} {op : Nat} {d : OpDef} {p : Pkt} {s : State}
    (hl : ∀ x ∈ briefParts, x ∈ l) (hm : ∀ x ∈ m, x ∈ unitParts ∧ x ≠ .memory ∧ x ≠ .selfTest ∧ x ∈ l)
    (hc : exec c s = .next (serveOp op d p false s)) (ht : p.timed = false)
    (hr : ∀ R, StoreRel m R → d.len (ownOf op p s) = true → ∀ j u, Ends R u (d.run j (ownOf op p s) u)) :
    Touches unitParts c s ∧ (s.calm = true → Touches l c s) := by
  have hunit : StoreRel m (sameBut unitParts) := unit_storeRel fun x hx => (hm x hx).1
  have hcalm : StoreRel m (calmBut l) := calm_storeRel hl fun x hx => (hm x hx).2
  refine ⟨exec_entry hunit.toEntryRel hc ht nofun (hr _ hunit), fun hs => ?_⟩
  obtain ⟨t, he, hrel⟩ := exec_entry hcalm.toEntryRel hc ht nofun (hr _ hcalm)
  exact ⟨t, he, (hrel hs).2⟩

/-- An effect that writes registers once its store is good, and else ends with NVM_FAULT (R364). -/
theorem stored_ends {R : State → State → Prop} {u v : State} {x : State × Bool} (r : List Word)
    (hR : ServeRel serveParts R) (hx : R u x.1) (hv : R x.1 v) :
    Ends R u (if !x.2 then { s := x.1, status := stNvmFault, step := 0 } else okOut v r) := by
  split
  · exact ends_fails _ [] hx
  · exact ends_okOut _ (hR.trans hx hv)

/-- The parts that NODE_SET and GROUP_SET write. -/
def groupParts : List Part := [.groups, .stored]

/-- The group registers and their stored copies are written. -/
theorem setGroups_frame (s : State) (g : Grp) (x : Nvm) (hj : x.journal = s.nvm.journal) :
    sameBut groupParts s { s with grp := g, nvm := x } := by
  have hg : sameBut groupParts s { s with grp := g } := sameBut_mono (setGrp_frame s g) (by decide)
  exact sameBut_trans hg (sameBut_mono (setNvm_frame _ x hj) (by decide))

section
variable {m : List Part} {R : State → State → Prop}

/-- A store that its packet asks for. -/
theorem storeIf_keeps (hR : StoreRel m R) (b : Bool) {k : Nat} (hk : k < 1024) (u : State) :
    R u (if b then u.storeConf [k] else (u, true)).1 := by
  split
  · exact hR.store [k] (by simpa using hk) u
  · exact hR.serve.refl u

/-- NODE_SET writes the node address, and stores it where it is asked to (R364). -/
theorem nodeSet_ends (hR : StoreRel groupParts R) (j : Word) (q : Pkt) (u : State) :
    Ends R u (nodeSetDef.run j q u) :=
  stored_ends _ hR.serve (storeIf_keeps hR (bitOf (q.u16 26) 0) (k := 0) (by decide) u)
    (hR.own (setGroups_frame _ _ _ rfl))

/-- GROUP_SET writes the memberships, and stores them where it is asked to (R365). -/
theorem groupSet_ends (hR : StoreRel groupParts R) (j : Word) (q : Pkt) (u : State) :
    Ends R u (groupSetDef.run j q u) :=
  stored_ends _ hR.serve (storeIf_keeps hR (bitOf (q.u32 32) 0) (k := 1) (by decide) u)
    (hR.own (setGroups_frame _ _ _ rfl))

/-- AUTH_OPEN with MODE 1 stores the key (R359). -/
theorem authLoadKey_ends (hR : StoreRel [.stored] R) (j : Word) {q : Pkt} (hq : q.u8 17 ≠ 0) (u : State) :
    Ends R u (authOpenDef.run j q u) := by
  have hk : 5 + q.u8 16 < 1024 := by
    have := (byteAt q.params (16 - 16)).isLt
    unfold Pkt.u8
    omega
  simp only [authOpenDef, if_neg hq]
  exact stored_ends _ hR.serve (hR.store [5 + q.u8 16] (by simpa using hk) u) (hR.own (setNvm_frame _ _ rfl))

end

/-- A check-value unit takes settings: a calm state stays calm. -/
theorem setCvu_calm (s : State) (k : Nat) (x : Cvu) : calmBut [.memory] s (s.setCvu k x) :=
  fun c => ⟨calm_of rfl rfl c, setMem_frame (sameBut_refl _ s) (by decide) _ rfl rfl⟩

/-! ### The statement -/

section
variable (p : Pkt) {s : State} (ht : p.timed = false)
include ht

/-- CREST_CONTROL in each of its rows. -/
theorem crestControl_own {c : Instr} {v : Byte}
    (hc : exec c s = .next (serveOp 0x0505 crestControlDef (p.fix 17 v) false s)) :
    OwnFrame (briefParts ++ [.strings]) p.durable c s :=
  ownFrame_writes (p := p.fix 17 v) (m := [.rings, .params, .strings]) (by decide) (by decide) hc ht
    (show 1 ≠ 2 by decide) fun j => crestControl_writes j _

/-- The system, journal and self-test commands of the family. -/
theorem systemCommands_own :
    ∀ c ∈ ([.eventAck p, .ringConfig p, .bistConfig p, .jrnlMark p] : List Instr),
      OwnFrame briefParts p.durable c s := by
  simp only [List.forall_mem_cons, List.not_mem_nil, false_implies, implies_true, and_true]
  refine ⟨?ack, ?ring, ?bist, ?mark⟩
  case ack =>
    exact ownFrame_writes (m := [.rings]) (by decide) (by decide) rfl ht (show 1 ≠ 2 by decide)
      fun _ u => ⟨_, _, rfl, setCmd_frame u _⟩
  case ring =>
    exact ownFrame_writes (m := [.rings]) (by decide) (by decide) rfl ht (ringConfig_jnl _)
      fun j => ringConfig_writes j _
  case bist =>
    exact ownFrame_writes (m := [.params]) (by decide) (by decide) rfl ht (show 1 ≠ 2 by decide)
      fun _ u => ⟨_, _, rfl, sameBut_trans (setPrm_frame u _) (setPrm_frame _ _)⟩
  case mark =>
    exact ownFrame_of (m := []) (by decide) (by decide) rfl ht (show 0 ≠ 2 by decide)
      fun _ hR _ j => jrnlMark_ends (q := ownOf 0x0C02 p s) hR j

/-- The commands of the frame registers. -/
theorem frameCommands_own :
    ∀ c ∈ ([.windowSet p, .sceneMix p] : List Instr), OwnFrame (briefParts ++ [.frames]) p.durable c s := by
  simp only [List.forall_mem_cons, List.not_mem_nil, false_implies, implies_true, and_true]
  exact ⟨ownFrame_writes (m := [.params, .frames]) (by decide) (by decide) rfl ht (show 1 ≠ 2 by decide)
      fun _ u => ⟨_, _, rfl, writeEntries_frame _ _ (windowSet_shadowed _) u⟩,
    ownFrame_writes (m := [.params, .frames]) (by decide) (by decide) rfl ht (show 1 ≠ 2 by decide)
      fun _ u => ⟨_, _, rfl, writeEntries_frame _ _ (sceneMix_shadowed _ u) u⟩⟩

/-- The commands of the strings and of Crest. -/
theorem stringCommands_own :
    ∀ c ∈ ([.strLevel p, .crestLoad p, .crestStop p, .crestStart p, .crestResume p, .crestStopAndSet p] : List Instr),
      OwnFrame (briefParts ++ [.strings]) p.durable c s := by
  have writes {c : Instr} {op : Nat} {d : OpDef} (hc : exec c s = .next (serveOp op d p false s))
      (hj : d.jnl (ownOf op p s) ≠ 2) := ownFrame_writes (l := briefParts ++ [.strings]) (m := [.strings])
    (by decide) (by decide) hc ht hj
  simp only [List.forall_mem_cons, List.not_mem_nil, false_implies, implies_true, and_true]
  exact ⟨writes rfl (show 1 ≠ 2 by decide) fun _ u => ⟨_, _, rfl, setStr_frame u _⟩,
    writes rfl (show 1 ≠ 2 by decide) fun _ u => ⟨_, _, rfl, setStr_frame u _⟩,
    crestControl_own p ht rfl, crestControl_own p ht rfl, crestControl_own p ht rfl, crestControl_own p ht rfl⟩

/-- The overlay commands. -/
theorem overlayCommands_own :
    ∀ c ∈ ([.ovlSet p, .ovlClear p] : List Instr), OwnFrame (briefParts ++ [.frames, .compose]) p.durable c s := by
  simp only [List.forall_mem_cons, List.not_mem_nil, false_implies, implies_true, and_true]
  exact ⟨ownFrame_writes (m := overlayParts) (by decide) (by decide) rfl ht (show 1 ≠ 2 by decide)
      fun j => ovlSet_writes j _,
    ownFrame_writes (m := overlayParts) (by decide) (by decide) rfl ht (show 1 ≠ 2 by decide)
      fun j => ovlClear_writes j _⟩

/-- The session commands. -/
theorem sessionCommands_own :
    ∀ c ∈ ([.authOpen p, .authClose p] : List Instr), OwnFrame (briefParts ++ [.free]) p.durable c s := by
  simp only [List.forall_mem_cons, List.not_mem_nil, false_implies, implies_true, and_true]
  have hmode : (ownOf 0x0C06 (p.fix 17 0) s).u8 17 = 0 := ownOf_fix_zero ht
  exact ⟨ownFrame_writes (p := p.fix 17 0) (d := authOpenDef) (m := sessionParts) (by decide) (by decide) rfl ht
      (authOpen_jnl hmode) fun j => authOpen_writes j hmode,
    ownFrame_writes (m := sessionParts) (by decide) (by decide) rfl ht (show 1 ≠ 2 by decide)
      fun j => authClose_writes j _⟩

/-- The commands of the node address and of the memberships; a NODE_SET for another serial changes nothing. -/
theorem groupCommands_store :
    ∀ c ∈ ([.nodeSet p, .groupSet p] : List Instr),
      Touches unitParts c s ∧ (s.calm = true → Touches (briefParts ++ groupParts) c s) := by
  simp only [List.forall_mem_cons, List.not_mem_nil, false_implies, implies_true, and_true]
  refine ⟨?node, storeFrame_of (m := groupParts) (by decide) (by decide) rfl ht
    fun _ hR _ j => groupSet_ends hR j _⟩
  by_cases hserial : serialMeant (nodeSerial p (if p.timed then 24 else 16)) = true
  · exact storeFrame_of (m := groupParts) (by decide) (by decide) (congrArg _ (if_pos hserial)) ht
      fun _ hR _ j => nodeSet_ends hR j _
  · have hexec : exec (.nodeSet p) s = .next s := congrArg _ (if_neg hserial)
    exact ⟨⟨s, hexec, sameBut_refl _ s⟩, fun _ => ⟨s, hexec, sameBut_refl _ s⟩⟩

/-- AUTH_OPEN with MODE 1; a packet of its layout has MODE. -/
theorem authLoadKey_store :
    Touches unitParts (.authLoadKey p) s ∧ (s.calm = true → Touches (briefParts ++ [.stored]) (.authLoadKey p) s) := by
  refine storeFrame_of (p := p.fix 17 1) (d := authOpenDef) (m := [.stored]) (by decide) (by decide) rfl ht
    fun _ hR hlen j => authLoadKey_ends hR j ?_
  have h9 : (ownOf 0x0C06 (p.fix 17 1) s).plen = 9 := of_decide_eq_true hlen
  have hmode : (ownOf 0x0C06 (p.fix 17 1) s).u8 17 = 1 := ownOf_fix ht (by unfold Pkt.plen at h9; omega)
  omega

/-- CVU_CONFIG cuts a slice on its unit short and writes the unit's settings (R286, R293). -/
theorem cvuConfig_frame :
    Touches unitParts (.cvuConfig p) s ∧ (s.calm = true → Touches briefParts (.cvuConfig p) s) := by
  have hany : EntryRel true (sameBut unitParts) := frame_entryRel (by decide) (by decide)
  have hcalm : EntryRel true (calmBut briefParts) := calm_entryRel (by decide) (by decide)
  refine ⟨exec_entry hany rfl ht nofun fun _ j u => ends_okOut _ ?_, fun hs => ?_⟩
  · exact sameBut_trans (sameBut_mono (abortCvu_dur u _) (by decide))
      (setMem_frame (sameBut_refl _ _) (by decide) _ rfl rfl)
  · obtain ⟨t, he, hrel⟩ := exec_entry (c := .cvuConfig p) hcalm rfl ht nofun fun _ j u =>
      ends_okOut _ (calmBut_trans (calmBut_of_eq fun c => calm_abortSlice c _)
        (calmBut_mono (setCvu_calm _ _ _) (by decide)))
    exact ⟨t, he, (hrel hs).2⟩

end

/-- Settles O11: each command's effect keeps its own frame, and serving a packet with its entry keeps it; the frame of
any state takes in what a durable line and a record of the configuration region may meet. -/
theorem registerCommandsFrame : Obligations.RegisterCommandsFrame := by
  intro p s ht
  have system := systemCommands_own p ht (s := s)
  have frame := frameCommands_own p ht (s := s)
  have string := stringCommands_own p ht (s := s)
  have overlay := overlayCommands_own p ht (s := s)
  have session := sessionCommands_own p ht (s := s)
  have group := groupCommands_store p ht (s := s)
  have key := authLoadKey_store p ht (s := s)
  have cvu := cvuConfig_frame p ht (s := s)
  refine ⟨?any, fun h => ⟨fun c hc => (system c hc).2 h, fun c hc => (frame c hc).2 h,
    fun c hc => (string c hc).2 h, fun c hc => (overlay c hc).2 h, fun c hc => (session c hc).2 h⟩,
    fun h => ⟨fun c hc => (group c hc).2 h, key.2 h, cvu.2 h⟩⟩
  case any =>
    simp only [List.forall_mem_cons, List.not_mem_nil, false_implies, implies_true, and_true]
      at system frame string overlay session group ⊢
    obtain ⟨ack, ring, bist, mark⟩ := system
    obtain ⟨window, mix⟩ := frame
    obtain ⟨level, load, stop, start, resume, stopAndSet⟩ := string
    obtain ⟨ovlSet, ovlClear⟩ := overlay
    obtain ⟨authOpen, authClose⟩ := session
    obtain ⟨node, groups⟩ := group
    exact ⟨ack.1, ring.1, bist.1, mark.1, window.1, mix.1, level.1, load.1, stop.1, start.1, resume.1, stopAndSet.1,
      ovlSet.1, ovlClear.1, node.1, groups.1, authOpen.1, key.1, authClose.1, cvu.1⟩

end Sys2Proof.Machine
end

section
/-! PROOFS. PWR_STATE and PWR_STATUS complete (15_power_states.md opcodes, R331, R332). -/

namespace Sys2Proof.Machine

/-- A command completes, where a condition holds of its packet and of the state after step 6, as the execution of its
opcode does there. -/
theorem runsWhen_execute {c : Instr} {op : Nat} {d : OpDef} {p : Pkt} {s : State} {when : Pkt → State → Bool}
    {f : Pkt → State → State} (hc : servedAs c = some (op, d, p))
    (he : ∀ q u, when q u = true → u.execute op d q q.params false = f q u) : RunsWhen c op d p s when f :=
  fun hp hf hw => by rw [servedAs_exec hc s hf, serveOp_passes hp, he _ _ hw]

/-- Making a command's entry leaves the power state. -/
theorem entered_pwrNow (u : State) (op : Nat) (q : Pkt) (b : Bool) : (u.entered op q b).1.pwrNow = u.pwrNow := by
  have hpower : samePart u (u.entered op q b).1 .power := jAdd_frame u _ b .power (by decide)
  exact (congrArg (fun x => powerCode x.state) hpower :)

/-! ### What PWR_STATE does -/

/-- PWR_STATE is always durable for STANDBY and DORMANT. -/
theorem pwrState_jnl (q : Pkt) : pwrStateDef.jnl q = if 2 ≤ pwrTarget q then 2 else 1 := rfl

/-- PWR_STATE is journaled on request or always. -/
theorem pwrState_journals (q : Pkt) : pwrStateDef.jnl q = 1 ∨ pwrStateDef.jnl q = 2 := by
  rw [pwrState_jnl]
  split
  · exact .inr rfl
  · exact .inl rfl

/-- The entry of a PWR_STATE is durable for STANDBY and DORMANT, and if asked. -/
theorem pwrState_durable (q : Pkt) :
    (decide (2 ≤ pwrTarget q) || q.durable) = (decide (pwrStateDef.jnl q = 2) || q.durable) := by
  rw [pwrState_jnl]
  split <;> simp [*]

section
variable {j : Word} {q : Pkt} {v : State}

/-- The present state as the target: nothing is done. -/
theorem pwrState_run_present (h : pwrTarget q = v.pwrNow) :
    pwrStateDef.run j q v = okOut v [w32 (256 * v.pwrNow)] := if_pos h

/-- ACTIVE from another state: the reply waits for the seam. -/
theorem pwrState_run_active (h : pwrTarget q ≠ v.pwrNow) (h0 : pwrTarget q = 0) :
    pwrStateDef.run j q v = pwrActive j q v := (if_neg h).trans (if_pos h0)

/-- Another state: the negotiation begins. -/
theorem pwrState_run_lower (h : pwrTarget q ≠ v.pwrNow) (h0 : pwrTarget q ≠ 0) :
    pwrStateDef.run j q v = pwrLower j q v := (if_neg h).trans (if_neg h0)

end

/-- Every block of the negotiation at hand has quiesced. -/
def State.allQuiet (s : State) : Bool := s.pwr.nego.any fun m => decide (m.block = 9)

/-- A PWR_STATE lowers at once where every block of its negotiation has quiesced. -/
theorem lowers_allQuiet (q : Pkt) (u : State) : (lowers q u).2 = (lowers q u).1.allQuiet := by
  unfold lowers State.allQuiet
  dsimp only
  split <;> simp [*]

/-- A change to a lower state answers with the quiesced blocks if every block has quiesced at once, and its reply is
held otherwise (R331, R332). -/
theorem pwrLower_eq (j : Word) (q : Pkt) (v : State) :
    let w := v.negoGo (v.negoOf j q) (sleepBlocks (v.negoOf j q).target)
    pwrLower j q v = if w.allQuiet then okOut w (w.pwr.nego.map fun m => negoWord m 0).toList
      else { s := w, step := 0, replies := false } := by
  unfold pwrLower State.allQuiet
  dsimp only
  split <;> simp [*]

/-- Settles O41: each form of PWR_STATE by its target and by what quiesces at once; PWR_STATUS ends at once. -/
theorem powerCommandsComplete : Obligations.PowerCommandsComplete := by
  intro s p
  refine ⟨runsWhen_execute rfl fun q u h => ?present, runsWhen_execute rfl fun q u h => ?active,
    runsWhen_execute rfl fun q u h => ?held, runsWhen_execute rfl fun q u h => ?quiesced,
    runs_answered (fun q u => (if bitOf (q.u32 16) 0 then { u with pwr := { u.pwr with fault := 0 } } else u,
      pwrStatusWords u)) rfl (fun _ => rfl) fun _ _ _ => rfl⟩
  all_goals simp only [Bool.and_eq_true, Bool.not_eq_true', decide_eq_true_eq] at h
  case present =>
    exact execute_journaled (pwrState_durable q) (pwrState_journals q)
      (by rw [pwrState_run_present (h.trans (entered_pwrNow u _ q _).symm)]; rfl)
  case active =>
    obtain ⟨hn, h0⟩ := h
    exact execute_opened (by rw [← pwrState_durable, h0]; rfl) (pwrState_journals q)
      (pwrState_run_active (by rwa [entered_pwrNow]) h0)
  case held =>
    obtain ⟨⟨hn, h0⟩, hl⟩ := h
    rw [lowers_allQuiet] at hl
    exact execute_opened (pwrState_durable q) (pwrState_journals q)
      ((pwrState_run_lower (by rwa [entered_pwrNow]) h0).trans
        ((pwrLower_eq _ q _).trans (if_neg (ne_true_of_eq_false hl))))
  case quiesced =>
    obtain ⟨⟨hn, h0⟩, hl⟩ := h
    rw [lowers_allQuiet] at hl
    exact execute_journaled (pwrState_durable q) (pwrState_journals q)
      ((pwrState_run_lower (by rwa [entered_pwrNow]) h0).trans ((pwrLower_eq _ q _).trans (if_pos hl)))

end Sys2Proof.Machine
end

section
/-! PROOFS. The rows of the power states and of time (15_power_states.md R327 to R343, R239). -/

namespace Sys2Proof.Machine

/-- A negotiation whose blocks have all quiesced enters its state. -/
theorem exec_sleepEntry_enters {dt : Nat} {s : State} {n : Nego} (hn : (s.elapse dt).pwr.nego = some n)
    (hb : n.block = 9) : exec (.sleepEntry dt) s = .next ((s.elapse dt).enterSleep n) := by
  show execSleepEntry dt s = _
  simp only [execSleepEntry, hn, if_pos hb]

/-- Settles O59: each row's own arm, under its premise. -/
theorem powerEventsComplete : Obligations.PowerEventsComplete := by
  intro s dt
  refine ⟨after_unless rfl ?lost, fun n => after_if rfl id, after_always rfl, fun env => after_if rfl id,
    fun env => after_if rfl id, fun l env => after_unless rfl ?deaf, after_always rfl, fun b => after_always rfl,
    fun n h => ?entry, after_if rfl of_decide_eq_true, fun n => after_always rfl, fun n => after_unless rfl ?tick,
    after_always rfl⟩
  case lost =>
    simp only [Bool.and_eq_true, Option.isNone_iff_eq_none, decide_eq_true_eq]
    rintro ⟨⟨ho, hl⟩, hd⟩
    simp [ho, hl, hd]
  case deaf => simp
  case entry =>
    simp only [Bool.and_eq_true, decide_eq_true_eq] at h
    exact exec_sleepEntry_enters h.1 h.2
  case tick =>
    simp only [Bool.and_eq_true, Option.isNone_iff_eq_none, decide_eq_true_eq]
    rintro ⟨⟨⟨⟨hd, ho⟩, hh⟩, hr⟩, hosc⟩
    simp [hd, ho, hh, hr, hosc]

end Sys2Proof.Machine
end

section
/-! PROOFS. A new entry of the journal (16_journal_recovery_firmware.md R344, R348 to R350). -/

namespace Sys2Proof.Machine

/-- A waiting line stands in the list that it is inserted in. -/
theorem mem_jInsert (l : JLine) (r : List JLine) : l ∈ jInsert l r := by
  induction r with
  | nil => exact List.mem_singleton_self l
  | cons a r ih =>
    unfold jInsert
    split
    · exact List.mem_cons_self
    · exact List.mem_cons_of_mem a ih

/-- An entry whose state change waits for MRAM has a waiting line (R348). -/
theorem jWait_waits (s : State) (j : Word) (d : Bool) : ∃ l ∈ (s.jWait j d).jrn.lines, l.jseq = j := by
  unfold State.jWait
  split
  next l hl =>
    have hj : l.jseq = j := by simpa using List.find?_some hl
    exact ⟨_, List.mem_map_of_mem (List.mem_of_find?_eq_some hl), by simp only [hj, if_true]⟩
  next => exact ⟨_, mem_jInsert _ _, rfl⟩

/-- A state change that waits for MRAM leaves the newest JSEQ, the cache and what MRAM holds. -/
theorem jWait_keeps (s : State) (j : Word) (d : Bool) : (s.jWait j d).jrn.newest = s.jrn.newest
    ∧ (s.jWait j d).jrn.cache = s.jrn.cache ∧ (s.jWait j d).nvm = s.nvm := by
  unfold State.jWait
  split <;> exact ⟨rfl, rfl, rfl⟩

/-- The JSEQ after the newest, 0xFFFFFFFF skipped (R344, R350). -/
theorem jNext_of_newest {s : State} {n : Word} (h : s.jrn.newest = some n) :
    s.jNext = if n + 1 = 0xFFFFFFFF then 0 else n + 1 := by
  unfold State.jNext
  rw [h]

/-- The first entry takes JSEQ 0. -/
theorem jNext_of_none {s : State} (h : s.jrn.newest = none) : s.jNext = 0 := by
  unfold State.jNext
  rw [h]

/-- 0xFFFFFFFF comes after 0xFFFFFFFE alone. -/
theorem succ_eq_last_iff (n : Word) : n + 1 = 0xFFFFFFFF ↔ n = 0xFFFFFFFE := by bv_omega

/-- No entry takes JSEQ 0xFFFFFFFF (R350). -/
theorem jNext_ne_last (s : State) : s.jNext ≠ 0xFFFFFFFF := by
  cases h : s.jrn.newest with
  | none => rw [jNext_of_none h]; decide
  | some n =>
    rw [jNext_of_newest h]
    split
    · decide
    · assumption

/-- Settles O20: JSEQ by the newest entry, the line by its insertion, and the wait for MRAM keeps the rest. -/
theorem journalSequence : Obligations.JournalSequence := by
  intro s e durable x
  obtain ⟨hnewest, hcache, hnvm⟩ := jWait_keeps { s with jrn := { s.jrn with
    newest := some s.jNext
    cache := ({ e with
      jseq := s.jNext
      time := BitVec.ofNat 48 s.us
      tAccept := BitVec.ofNat 48 s.us
      frame := s.frm.frame } :: s.jrn.cache).take 2048 } } s.jNext durable
  refine ⟨jNext_of_none, fun n hn hne => ?next, fun hn => ?skip, fun _ => jNext_ne_last s, hnewest, hcache,
    jWait_waits _ _ _, hnvm, jAdd_frame s e durable⟩
  case next => exact (jNext_of_newest hn).trans (if_neg (mt (succ_eq_last_iff n).mp hne))
  case skip => exact (jNext_of_newest hn).trans (if_pos rfl)

end Sys2Proof.Machine
end

section
/-! PROOFS. The rows of restarts, recovery and firmware self-checks (16_journal_recovery_firmware.md R352 to R358). -/

namespace Sys2Proof.Machine

/-- A failed fetch from the sequencer's region loses the line before the restart (R276). -/
theorem fetchFault_sequencer {a : Nat} (h : regionOf (lineOf a) = 8) (s : State) : s.fetchFault a
    = (s.lineLost (lineOf a) (if s.codeLine (lineOf a) then 3 else 4)).restartDue 3 :=
  congrArg (State.restartDue · 3) (if_pos h)

/-- A failed fetch from elsewhere restarts alone. -/
theorem fetchFault_elsewhere {a : Nat} (h : regionOf (lineOf a) ≠ 8) (s : State) : s.fetchFault a = s.restartDue 3 :=
  congrArg (State.restartDue · 3) (if_neg h)

/-- Settles O60: each row's own arm, under its premise. -/
theorem recoveryEventsComplete : Obligations.RecoveryEventsComplete := by
  intro s dt
  refine ⟨after_if rfl id, after_if rfl id, fun a ha => ?own, fun a ha => ?elsewhere, after_if rfl id,
    after_if rfl ?recovers, after_if rfl id, after_if rfl id, after_if rfl id⟩
  case own => rw [← funext (fetchFault_sequencer ha)]; exact after_if rfl id
  case elsewhere => rw [← funext (fetchFault_elsewhere ha)]; exact after_if rfl id
  case recovers => simp [and_assoc]

end Sys2Proof.Machine
end

section
/-! PROOFS. Ways in which a command completes, by its journaling (R345, R347) and by what becomes of its reply. -/

namespace Sys2Proof.Machine

/-- A check value that is asked for agrees, or none is asked for. -/
theorem checkHolds_iff {asked : Bool} {x y : Nat} :
    (!asked || decide (x = y)) = true ↔ ¬(asked = true ∧ x ≠ y) := by
  cases asked <;> simp

/-- Making a command's entry changes the journal alone. -/
theorem entered_frame (u : State) (op : Nat) (q : Pkt) (b : Bool) : sameBut [.journal] u (u.entered op q b).1 :=
  jAdd_frame u _ b

/-- A command that is not journaled leaves the reply OK after its effect. -/
theorem execute_answers {op : Nat} {d : OpDef} {q : Pkt} {u v : State} {r : List Word} (hj : d.jnl q = 0)
    (hr : ∀ j, d.run j q u = okOut v r) : u.execute op d q q.params false = v.answered op q r :=
  execute_answered (eff := fun _ => (v, r)) hj hr

/-- A command journaled on request that ends at once, by its effect on the state with its entry. -/
theorem execute_requested {op : Nat} {d : OpDef} {q : Pkt} {u : State} {eff : State → State × List Word}
    (hj : d.jnl q = 1) (hr : let e := u.entered op q q.durable
      d.run e.2 q e.1 = okOut (eff e.1).1 (eff e.1).2) :
    u.execute op d q q.params false = u.journaled op q q.durable eff :=
  execute_journaled (by simp [hj]) (.inl hj) hr

/-- A command whose entry is always durable and that ends at once, by its effect on the state with that entry. -/
theorem execute_durable {op : Nat} {d : OpDef} {q : Pkt} {u : State} {eff : State → State × List Word}
    (hj : d.jnl q = 2) (hr : let e := u.entered op q true
      d.run e.2 q e.1 = okOut (eff e.1).1 (eff e.1).2) :
    u.execute op d q q.params false = u.journaled op q true eff :=
  execute_journaled (by simp [hj]) (.inr hj) hr

section
variable {c : Instr} {op : Nat} {d : OpDef} {p : Pkt} {s : State}

/-- A command completes, wherever its packet passes its checks, as the execution of its opcode does on the state after
step 6. -/
theorem runs_execute {f : Pkt → State → State} (hc : servedAs c = some (op, d, p))
    (he : ∀ q u, u.execute op d q q.params false = f q u) : Runs c op d p s f := fun hp hf =>
  runsWhen_execute (when := fun _ _ => true) hc (fun q u _ => he q u) hp hf rfl

/-- A command journaled on request that ends at once completes where a condition holds. -/
theorem runsWhen_journaled {when : Pkt → State → Bool} {eff : Pkt → State → State × List Word}
    (hc : servedAs c = some (op, d, p)) (hj : ∀ q u, when q u = true → d.jnl q = 1)
    (hr : ∀ j q u, when q u = true → let v := (u.entered op q q.durable).1
      d.run j q v = okOut (eff q v).1 (eff q v).2) :
    RunsWhen c op d p s when fun q u => u.journaled op q q.durable (eff q) :=
  runsWhen_execute hc fun q u h => execute_requested (hj q u h) (hr _ q u h)

end

end Sys2Proof.Machine
end

section
/-! PROOFS. The class-0 commands complete (05_glare_free_shadowing.md opcodes, 04_composition.md BEND_SET). -/

namespace Sys2Proof.Machine

/-- FORCE_LEVEL puts a forced level in place, or none, and answers the old one. -/
theorem forceLevel_run {j : Word} {q : Pkt} {v : State} {f : Force}
    (hf : (if q.u16 16 = 0 ∨ q.u16 18 = 65535 then {}
      else { tiles := BitVec.ofNat 16 (q.u16 16)
             level := BitVec.ofNat 16 (q.u16 18)
             start := BitVec.ofNat 48 v.us
             hold := BitVec.ofNat 16 (q.u16 20) }) = f) :
    forceLevelDef.run j q v = okOut { v with shd := { v.shd with force := f } }
      [halves v.shd.force.tiles.toNat v.shd.force.level.toNat] := by
  subst hf
  rfl

/-- Settles O31: each command does its own effect under the class-0 record, FORCE_LEVEL by what it asks for. -/
theorem classZeroCommandsComplete : Obligations.ClassZeroCommandsComplete := fun _ _ =>
  ⟨runs_execute rfl fun _ _ => execute_coalesced rfl rfl,
   runs_execute rfl fun _ _ => execute_coalesced rfl rfl,
   runs_execute rfl fun _ _ => execute_coalesced rfl rfl,
   runsWhen_execute rfl fun _ _ h => execute_coalesced rfl (forceLevel_run (if_pos (of_decide_eq_true h))),
   runsWhen_execute rfl fun _ _ h => execute_coalesced rfl
     (forceLevel_run (if_neg (not_or.mpr (of_decide_eq_true h)))),
   runs_execute rfl fun _ _ => execute_coalesced rfl rfl,
   runs_execute rfl fun _ _ => execute_coalesced rfl rfl,
   runs_execute rfl fun _ _ => execute_coalesced rfl rfl⟩

end Sys2Proof.Machine
end

section
/-! PROOFS. The frame commands complete (08_frame_timing_scanout.md opcodes). -/

namespace Sys2Proof.Machine

/-- Settles O32: FRAME_COMMIT by WAIT, and the effect of each of the others. -/
theorem frameCommandsComplete : Obligations.FrameCommandsComplete := fun _ _ =>
  ⟨runsWhen_journaled rfl (fun _ _ _ => rfl) fun _ _ _ h => if_pos (of_decide_eq_true h),
   runsWhen_execute rfl fun _ _ h => execute_opened rfl (.inl rfl) (if_neg (of_decide_eq_true h)),
   runs_execute rfl fun _ _ => execute_requested rfl rfl,
   runs_execute rfl fun _ _ => execute_answers rfl fun _ => rfl,
   runs_execute rfl fun _ _ => execute_answers rfl fun _ => rfl,
   runs_execute rfl fun _ _ => execute_requested rfl rfl⟩

end Sys2Proof.Machine
end

section
/-! PROOFS. The scene commands complete (04_composition.md opcodes). -/

namespace Sys2Proof.Machine

/-- SYMBOL_WRITE writes its bytes where their CRC agrees and the lines that it writes in part can be read. -/
theorem symbolWrite_run {j : Word} {q : Pkt} {v : State}
    (hcrc : ¬(bitOf (q.u16 22) 0 = true ∧ crc32 (q.bytes 28 (q.u16 20)) ≠ q.u32 24))
    (hread : (v.readParts 5 (0x400000 + q.u32 16) (q.bytes 28 (q.u16 20)).length).2 = true) :
    symbolWriteDef.run j q v = okOut ((v.readParts 5 (0x400000 + q.u32 16) (q.bytes 28 (q.u16 20)).length).1.writeSram
      (0x400000 + q.u32 16) (q.bytes 28 (q.u16 20))) [] := (if_neg hcrc).trans (if_pos hread)

/-- Settles O33: the three writes that end at once, and the job of SCENE_STORE. -/
theorem sceneCommandsComplete : Obligations.SceneCommandsComplete := fun _ _ =>
  ⟨runs_execute rfl fun _ _ => execute_requested rfl rfl,
   runs_execute rfl fun _ _ => execute_begun rfl (.inr rfl) rfl,
   runs_execute rfl fun _ _ => execute_requested rfl rfl,
   runsWhen_journaled rfl (fun _ _ _ => rfl) fun _ _ _ h => by
     obtain ⟨hcrc, hread⟩ := Bool.and_eq_true_iff.mp h
     exact symbolWrite_run (checkHolds_iff.mp hcrc) hread⟩

end Sys2Proof.Machine
end


section
/-! PROOFS. The drive and Saddle commands complete (03_pixel_drive.md and 06_saddle_current_budget.md opcodes). -/

namespace Sys2Proof.Machine

/-- Settles O35: each command's effect, with its result words. -/
theorem driveCommandsComplete : Obligations.DriveCommandsComplete := fun _ _ =>
  ⟨runs_execute rfl fun _ _ => execute_requested rfl rfl,
   runs_execute rfl fun _ _ => execute_answers rfl fun _ => rfl,
   runs_execute rfl fun _ _ => execute_requested rfl rfl,
   runs_execute rfl fun _ _ => execute_answers rfl fun _ => rfl⟩

end Sys2Proof.Machine
end

section
/-! PROOFS. The string and Crest commands complete (09_strings_crest.md opcodes). -/

namespace Sys2Proof.Machine

/-- CREST_CONTROL acts at once, or with SEAM or in class 1 at the next latch instant. -/
theorem crestControl_completes {c : Instr} {p : Pkt} {s : State} (hc : servedAs c = some (0x0505, crestControlDef, p)) :
    RunsWhen c 0x0505 crestControlDef p s (fun q _ => !bitOf (q.u8 18) 0 && decide (q.cls ≠ 1))
      (fun q u => u.journaled 0x0505 q q.durable fun v =>
        let w := v.crestControl (crestActOf q)
        (w, [w32 w.crestRunning]))
    ∧ RunsWhen c 0x0505 crestControlDef p s (fun q _ => bitOf (q.u8 18) 0 || decide (q.cls = 1))
      (fun q u => u.journaled 0x0505 q q.durable fun v =>
        ({ v with str := { v.str with seamActs := v.str.seamActs ++ [crestActOf q] } },
          [w32 (v.crestControl (crestActOf q)).crestRunning])) :=
  ⟨runsWhen_journaled hc (fun _ _ _ => rfl) fun _ _ _ h => if_neg (by simpa using h),
   runsWhen_journaled hc (fun _ _ _ => rfl) fun _ _ _ h => if_pos (by simpa using h)⟩

/-- Settles O36: each command's effect, and the four actions of CREST_CONTROL in one way. -/
theorem stringCommandsComplete : Obligations.StringCommandsComplete := by
  refine fun _ _ => ⟨runs_execute rfl fun _ _ => execute_requested rfl rfl,
    runs_execute rfl fun _ _ => execute_requested rfl rfl,
    runs_execute rfl fun _ _ => execute_answers rfl fun _ => rfl,
    runs_execute rfl fun _ _ => execute_requested rfl rfl, ?actions⟩
  simp only [List.forall_mem_cons, List.not_mem_nil, false_implies, implies_true, and_true]
  exact ⟨crestControl_completes rfl, crestControl_completes rfl, crestControl_completes rfl,
    crestControl_completes rfl⟩

end Sys2Proof.Machine
end

section
/-! PROOFS. The diagnostic commands complete (10_pixel_diagnostics_safe_state.md opcodes). -/

namespace Sys2Proof.Machine

/-- DIAG_MAP_READ of a tile's rows, where its lines can be read. -/
theorem diagMapRead_run_rows {j : Word} {q : Pkt} {u : State} (hkind : q.u8 16 = 0)
    (hread : (u.readLines 5 (u.mapReadLines q)).2.isNone = true) :
    diagMapReadDef.run j q u = okOut (u.readLines 5 (u.mapReadLines q)).1
      (wordsOf ((List.range (q.u16 22)).flatMap fun k => u.sramBytes (mapRowAddr (q.u8 18) (q.u16 20 + k)) 128)) :=
  (if_neg (by simpa using hread)).trans (if_pos hkind)

/-- DIAG_MAP_READ of records, where its lines can be read. -/
theorem diagMapRead_run_records {j : Word} {q : Pkt} {u : State} (hkind : q.u8 16 ≠ 0)
    (hread : (u.readLines 5 (u.mapReadLines q)).2.isNone = true) :
    let l := u.mapRecords (q.u32 24) (q.u16 22) (bitOf (q.u8 17) 0) (bitOf (q.u8 17) 1)
    diagMapReadDef.run j q u = okOut (u.readLines 5 (u.mapReadLines q)).1
      ([w32 l.2, w32 l.1.length] ++ l.1.map fun e => w32 (e.1 + 2048 * e.2.1 + 2 ^ 20 * e.2.2)) :=
  (if_neg (by simpa using hread)).trans (if_neg hkind)

/-- PIXEL_MASK where the lines that it writes in part can be read. -/
theorem pixelMask_run {j : Word} {q : Pkt} {v : State} (hread : (v.readRect (rectAt q 18)).2 = true) :
    let r := (v.readRect (rectAt q 18)).1.mapRect (rectAt q 18) (putHmask (decide (q.u8 16 = 1)))
    pixelMaskDef.run j q v = okOut r.1 [w32 r.2] := if_neg (by simp [hread])

/-- FAULT_CLEAR where the lines of the map entries that it clears, if it is asked to, can be read. -/
theorem faultClear_run {j : Word} {q : Pkt} {v : State} (hread : q.u16 22 = 1 → (v.readRect (rectAt q 24)).2 = true) :
    let m := if q.u16 22 = 1 then (v.readRect (rectAt q 24)).1 else v
    let w := (m.clearExtras (q.u32 16)).clearCauses (q.u32 16)
    let x := { w with diag := { w.diag with latch := w.diag.latch &&& ~~~ BitVec.ofNat 16 (q.u16 20) } }
    let r := if q.u16 22 = 1 then x.mapRect (rectAt q 24) clearEntry else (x, 0)
    faultClearDef.run j q v = okOut r.1 [w32 r.1.diag.causes.toNat, w32 r.1.diag.latch.toNat, w32 r.2] := by
  by_cases h : q.u16 22 = 1
  · simp only [faultClearDef, h, if_true, hread h, Bool.not_true, Bool.false_eq_true, if_false]
  · simp only [faultClearDef, h, if_false, Bool.not_true, Bool.false_eq_true]

/-- Settles O37: each command's effect, where the lines that it reads can be read. -/
theorem diagnosticCommandsComplete : Obligations.DiagnosticCommandsComplete := by
  refine fun _ _ => ⟨runs_execute rfl fun _ _ => execute_answers rfl fun _ => rfl,
    runsWhen_execute rfl fun q u h => execute_answers rfl fun _ => ?rows,
    runsWhen_execute rfl fun q u h => execute_answers rfl fun _ => ?records,
    runsWhen_journaled rfl (fun _ _ _ => rfl) fun _ _ _ => pixelMask_run,
    runsWhen_journaled rfl (fun _ _ _ => rfl) fun _ q u h => faultClear_run fun hmap => ?map,
    runs_execute rfl fun _ _ => execute_requested rfl rfl⟩
  case rows =>
    obtain ⟨hkind, hread⟩ := Bool.and_eq_true_iff.mp h
    exact diagMapRead_run_rows (of_decide_eq_true hkind) hread
  case records =>
    obtain ⟨hkind, hread⟩ := Bool.and_eq_true_iff.mp h
    exact diagMapRead_run_records (of_decide_eq_true hkind) hread
  case map => simpa [hmap] using h

end Sys2Proof.Machine
end

section
/-! PROOFS. The calibration commands complete (11_calibration.md opcodes). -/

namespace Sys2Proof.Machine

/-- CAL_ABORT without a discarded build, or with one whose lines can be read. -/
theorem calAbort_run {j : Word} {q : Pkt} {v : State}
    (hread : (bitOf (q.u32 16) 0 && (v.cal.buildId.isSome || (abortJob v).1.building)) = true →
      (abortJob v).1.discardBuild.2 = true) :
    let x := abortJob v
    let y := if bitOf (q.u32 16) 0 && (v.cal.buildId.isSome || x.1.building) then
        (x.1.discardBuild.1, [w32 (x.2 + 2 ^ 24)])
      else (x.1, [w32 x.2])
    calAbortDef.run j q v = okOut y.1 y.2 := by
  intro x y
  by_cases h : (bitOf (q.u32 16) 0 && (v.cal.buildId.isSome || x.1.building)) = true
  · have hy : y = (x.1.discardBuild.1, [w32 (x.2 + 2 ^ 24)]) := if_pos h
    rw [hy]
    exact (if_pos h).trans (if_pos (hread h))
  · have hy : y = (x.1, [w32 x.2]) := if_neg h
    rw [hy]
    exact if_neg h

/-- FLUX_WRITE writes its rectangle where its CRC agrees and the lines that it writes in part can be read. -/
theorem fluxWrite_run {j : Word} {q : Pkt} {v : State}
    (hcrc : ¬(bitOf (q.u32 24) 0 = true ∧ crc32 (q.bytes 32 (fluxSize q)) ≠ q.u32 28))
    (hread : (v.readRows q).2 = true) :
    fluxWriteDef.run j q v = okOut ((List.range (q.u16 22)).foldl (fun t r =>
      t.writeSram (fluxRow q r) (((q.bytes 32 (fluxSize q)).drop (q.u16 20 * r)).take (q.u16 20)))
      (v.readRows q).1) [] :=
  (if_neg hcrc).trans (if_neg (by simp [hread]))

/-- Settles O38: the jobs of CAL_SWEEP and CAL_COMMIT, and the effects of the others where their lines can be read. -/
theorem calibrationCommandsComplete : Obligations.CalibrationCommandsComplete := by
  refine fun _ _ => ⟨runsWhen_execute rfl fun _ _ h => execute_begun rfl (.inr rfl) (if_neg (of_decide_eq_true h)),
    runsWhen_execute rfl fun _ _ h => execute_begunAs (g := true) rfl (.inr rfl) (if_pos (of_decide_eq_true h)),
    runs_execute rfl fun _ _ => execute_begun rfl (.inr rfl) rfl,
    runs_execute rfl fun _ _ => execute_answers rfl fun _ => rfl,
    runsWhen_journaled rfl (fun _ _ _ => rfl) fun _ q u h => calAbort_run fun hdiscard => ?discard,
    runsWhen_journaled rfl (fun _ _ _ => rfl) fun _ _ _ h => ?flux⟩
  case discard => simpa [hdiscard] using h
  case flux =>
    obtain ⟨hcrc, hread⟩ := Bool.and_eq_true_iff.mp h
    exact fluxWrite_run (checkHolds_iff.mp hcrc) hread

end Sys2Proof.Machine
end


section
/-! PROOFS. The memory commands complete (12_memory_integrity.md opcodes). -/

namespace Sys2Proof.Machine

/-- A MEM_READ or a MEM_WRITE that uses a CVU cuts a slice on it short (R293). -/
def memCut (q : Pkt) (u : State) : State := if usesCvu q then u.abortCvu (cvuOf q) else u

/-- The reads of MEM_READ's lines, and the first that fails. -/
def memLinesRead (q : Pkt) (u : State) : State × Option Nat :=
  ((memCut q u).abortMrams (linesOf (q.u32 16) (q.u16 20))).readLines 5 (linesOf (q.u32 16) (q.u16 20))

/-- MEM_READ where its lines can be read. -/
theorem memRead_run {j : Word} {q : Pkt} {u : State} (h : (memLinesRead q u).2.isNone = true) :
    let d := (memLinesRead q u).1.bytesAt (q.u32 16) (q.u16 20)
    memReadDef.run j q u = okOut (memLinesRead q u).1
      (wordsOf d ++ if usesCvu q then [w32 (((memLinesRead q u).1.cvu (cvuOf q)).crc d)] else []) := by
  have hnone := Option.isNone_iff_eq_none.mp h
  unfold memLinesRead memCut at hnone ⊢
  simp only [memReadDef, hnone]

/-- MEM_WRITE where its check value, if asked for, agrees and the lines that it writes in part can be read. -/
theorem memWrite_run {j : Word} {q : Pkt} {v : State}
    (hcrc : ¬(usesCvu q = true
      ∧ ((memCut q v).cvu (cvuOf q)).crc (q.bytes 24 (writeLen q)) ≠ q.u32 (24 + writeLen q)))
    (hread : ((memCut q v).readParts 5 (q.u32 16) (writeLen q)).2 = true) :
    memWriteDef.run j q v = okOut (((memCut q v).readParts 5 (q.u32 16) (writeLen q)).1.writeSram (q.u32 16)
      (q.bytes 24 (writeLen q))) [] := (if_neg hcrc).trans (if_pos hread)

/-- Settles O39: each command's effect, where its lines can be read; MEM_READ with and without a CVU. -/
theorem memoryCommandsComplete : Obligations.MemoryCommandsComplete := by
  refine fun _ _ _ => ⟨runsWhen_execute rfl fun q u h => execute_answers rfl fun j => ?plain,
    runsWhen_execute rfl fun q u h => execute_answers rfl fun j => ?checked,
    runsWhen_journaled rfl (fun _ _ _ => rfl) fun _ _ _ h => ?write,
    runs_execute rfl fun _ _ => execute_requested rfl rfl,
    runs_execute rfl fun _ _ => execute_begun rfl (.inl rfl) rfl,
    runs_execute rfl fun _ _ => execute_answers rfl fun _ => rfl,
    runs_execute rfl fun _ _ => execute_answers rfl fun _ => rfl⟩
  case plain =>
    obtain ⟨hcvu, hread⟩ := Bool.and_eq_true_iff.mp h
    refine (memRead_run hread).trans (congrArg _ ?_)
    rw [if_neg (by simpa using hcvu), List.append_nil]
    rfl
  case checked =>
    obtain ⟨hcvu, hread⟩ := Bool.and_eq_true_iff.mp h
    refine (memRead_run hread).trans (congrArg _ ?_)
    rw [if_pos hcvu]
    rfl
  case write =>
    obtain ⟨hcrc, hread⟩ := Bool.and_eq_true_iff.mp h
    exact memWrite_run (checkHolds_iff.mp hcrc) hread

end Sys2Proof.Machine
end

section
/-! PROOFS. The system commands that write complete (02_command_model.md opcodes, 15_power_states.md SET_TIME). -/

namespace Sys2Proof.Machine

/-- Making a command's entry leaves the captured edges. -/
theorem entered_edgeAt (u : State) (op : Nat) (q : Pkt) (b : Bool) (c : Word) :
    (u.entered op q b).1.edgeAt c = u.edgeAt c := by
  have hpower : samePart u (u.entered op q b).1 .power := entered_frame u op q b .power (by decide)
  exact (congrArg (fun x => (x.edges.find? fun e => decide (e.count = c)).map (·.time)) hpower :)

/-- RING_CONFIG with an entry is journaled on request. -/
theorem ringConfig_jnl_entries {q : Pkt} (h : q.u16 16 ≠ 0) : ringConfigDef.jnl q = 1 := if_neg h

section
variable {j : Word} {q : Pkt} {v : State}

/-- SET_TIME at once steps DEVTIME. -/
theorem setTime_run_now (h : timeNow q = true) :
    let new : BitVec 64 := BitVec.ofNat 64 (q.u64 24)
    setTimeDef.run j q v = okOut (v.timeStep q.ring new.toNat true 0) (setTimeWords (new - v.pwr.devtime) new) :=
  if_pos h

/-- SET_TIME for an edge that was captured steps DEVTIME from that edge. -/
theorem setTime_run_captured {t : BitVec 64} (h : timeNow q = false) (ht : v.edgeAt (w32 (q.u32 16)) = some t) :
    let new : BitVec 64 := BitVec.ofNat 64 (q.u64 24)
    setTimeDef.run j q v = okOut (v.timeStep q.ring (v.pwr.devtime + (new - t)).toNat false (q.u32 16))
      (setTimeWords (new - t) new) := by
  simp only [setTimeDef, h, ht, Bool.false_eq_true, if_false]

/-- SET_TIME for an edge to come holds its reply. -/
theorem setTime_run_ahead (h : timeNow q = false) (ht : v.edgeAt (w32 (q.u32 16)) = none) : setTimeDef.run j q v =
    { s := { v with cmd := { v.cmd with held := v.cmd.held ++
        [{ opcode := 0x0009, pkt := q, jseq := j, kind := .edge (w32 (q.u32 16)) (BitVec.ofNat 64 (q.u64 24)),
           since := v.clk }] } }
      step := 0
      replies := false } := by
  simp only [setTimeDef, h, ht, Bool.false_eq_true, if_false]

end

/-- Settles O29: RING_CONFIG by whether it has an entry, SET_TIME by the edge that it names, and the others' effects. -/
theorem systemWritesComplete : Obligations.SystemWritesComplete := by
  refine fun _ _ => ⟨runs_execute rfl fun _ _ => execute_requested rfl rfl,
    runs_execute rfl fun _ _ => execute_requested rfl rfl,
    runsWhen_execute rfl fun _ _ h => execute_answers (if_pos (of_decide_eq_true h))
      fun _ => if_pos (of_decide_eq_true h),
    runsWhen_journaled rfl (fun _ _ h => ringConfig_jnl_entries (of_decide_eq_true h))
      fun _ _ _ h => if_neg (of_decide_eq_true h),
    runsWhen_journaled rfl (fun _ _ _ => rfl) fun _ _ _ h => setTime_run_now h,
    fun t => runsWhen_journaled rfl (fun _ _ _ => rfl) fun _ q u h => ?captured,
    runsWhen_execute rfl fun q u h => execute_opened rfl (.inl rfl) ?ahead⟩
  all_goals simp only [Bool.and_eq_true, Bool.not_eq_true', decide_eq_true_eq, Option.isNone_iff_eq_none] at h
  case captured => exact setTime_run_captured h.1 ((entered_edgeAt u _ q _ _).trans h.2)
  case ahead => exact setTime_run_ahead h.1 ((entered_edgeAt u _ q _ _).trans h.2)

end Sys2Proof.Machine
end


section
/-! SUPPORT. No operation of memory integrity or of the self-tests makes a line one whose cells give nothing good, so
records whose lines take a write are stored (12_memory_integrity.md R284, 13_self_test.md R293). -/

namespace Sys2Proof.Machine

/-- Entries that a test of their keys keeps are found as before. -/
theorem lookup_filter_key {β : Type} (f : Nat → Bool) (a : Nat) (l : List (Nat × β)) :
    (l.filter fun e => f e.1).lookup a = if f a then l.lookup a else none := by
  induction l with
  | nil => simp
  | cons e r ih =>
    obtain ⟨b, x⟩ := e
    by_cases hab : a = b
    · subst hab
      cases hf : f a <;> simp [hf, ih]
    · cases hf : f b <;> simp [hf, ih, List.lookup_cons, beq_false_of_ne hab]

/-- Every line whose cells give nothing good was one before. -/
def NoNewLost (s t : State) : Prop := ∀ a, t.meets a = .lost → s.meets a = .lost

namespace NoNewLost
variable {s t u : State}

/-- It holds where nothing changes. -/
theorem refl (s : State) : NoNewLost s s := fun _ => id

/-- It holds from step to step. -/
theorem trans (h : NoNewLost s t) (k : NoNewLost t u) : NoNewLost s u := fun a ha => h a (k a ha)

/-- What leaves the errors that stand makes none. -/
theorem of_errs (h : t.mem.errs = s.mem.errs) : NoNewLost s t := fun a ha => by
  unfold State.meets at ha ⊢
  rwa [← h]

/-- What leaves memory integrity makes no error. -/
theorem of_frame {l : List Part} (h : sameBut l s t) (hm : .memory ∉ l) : NoNewLost s t := of_errs (memK h hm)

/-- What takes the errors of some lines away makes none. -/
theorem of_filter {f : Nat → Bool} (h : t.mem.errs = s.mem.errs.filter fun e => f e.1) : NoNewLost s t := by
  intro a ha
  unfold State.meets at ha ⊢
  rw [h, lookup_filter_key] at ha
  split at ha
  · exact ha
  · cases ha

end NoNewLost

/-! ### Reads and writes of lines -/

/-- A line's error that goes makes none. -/
theorem errGone_noNewLost (s : State) (a : Nat) : NoNewLost s (s.errGone a) :=
  .of_filter (f := fun b => decide (b ≠ a)) rfl

/-- Lines written whole make no error. -/
theorem wholeWritten_noNewLost (s : State) (f : Nat → Bool) : NoNewLost s (s.wholeWritten f) :=
  .of_filter (f := fun b => !f b) rfl

/-- An uncorrectable line's report makes no error. -/
theorem lineLost_noNewLost (s : State) (a req : Nat) : NoNewLost s (s.lineLost a req) :=
  .of_errs (lineLost_errs s a req)

/-- A corrected line's report makes no error. -/
theorem lineCorrected_noNewLost (s : State) (a req src : Nat) : NoNewLost s (s.lineCorrected a req src) :=
  .of_errs ((memK (bump_frame _ _ _) (by decide)).trans (errLog_errs s a 1 req src))

/-- A line that is read makes no error, whatever it meets. -/
theorem readLine_noNewLost (s : State) (req a : Nat) : NoNewLost s (s.readLine req a).1 := by
  have gone := errGone_noNewLost s a
  unfold State.readLine
  split
  · exact lineLost_noNewLost s a req
  · split
    · exact .refl s
    · exact gone.trans (lineCorrected_noNewLost _ _ _ _)
    · refine gone.trans ?_
      unfold State.refetch
      split
      · exact (NoNewLost.of_frame (restoreLine_frame _ a) (by decide)).trans (lineCorrected_noNewLost _ _ _ _)
      · exact lineLost_noNewLost _ a req
    · exact gone.trans (lineLost_noNewLost _ a req)

/-- Lines that are read make no error. -/
theorem readEach_noNewLost (s : State) (req : Nat) (l : List Nat) : NoNewLost s (s.readEach req l).1 :=
  List.foldlRecOn (motive := fun x : State × List Nat => NoNewLost s x.1) _ _ (.refl s) fun x hx a _ => by
    dsimp only
    split <;> exact hx.trans (readLine_noNewLost x.1 req a)

/-- A sector that is copied to a spare one makes no error (R284). -/
theorem remapSector_noNewLost (s : State) (a k : Nat) : NoNewLost s (s.remapSector a k) := by
  unfold State.remapSector
  extract_lets sec read spares _ mapped
  exact ((readEach_noNewLost s 7 _).trans (.of_errs (t := mapped) rfl)).trans
    (.of_frame (evt_frame _ _ _ _ _ _ _ _) (by decide))

/-- A write that fails poisons its line, and makes no error (R284). -/
theorem writeFails_noNewLost (s : State) (a : Nat) : NoNewLost s (s.writeFails a) := by
  unfold State.writeFails
  refine NoNewLost.trans ?_ (.of_frame (evt_frame _ _ _ _ _ _ _ _) (by decide))
  exact .of_errs rfl

/-- A line that is written and read back makes no error. -/
theorem verifyLine_noNewLost (s : State) (a : Nat) : NoNewLost s (s.verifyLine a).1 := by
  have gone := errGone_noNewLost s a
  unfold State.verifyLine
  split
  · exact .refl s
  · split
    · exact gone.trans (remapSector_noNewLost _ _ _)
    · exact gone.trans (writeFails_noNewLost _ _)

/-- A journal line in MRAM makes no error. -/
theorem jStore_noNewLost (s : State) (j : Word) : NoNewLost s (s.jStore j) := by
  unfold State.jStore
  split
  · exact .of_errs rfl
  · exact (NoNewLost.of_errs rfl).trans (wholeWritten_noNewLost _ _)

/-- The journal line of a durable entry makes no error. -/
theorem jKeep_noNewLost (s : State) (j : Word) : NoNewLost s (s.jKeep j) := by
  have verified := verifyLine_noNewLost s (jAddr j)
  unfold State.jKeep
  split
  · exact .of_frame (jWait_frame s j true) (by decide)
  · dsimp only
    split
    · exact verified.trans (jStore_noNewLost _ j)
    · exact verified.trans (.of_errs rfl)

/-! ### Self-test slices cut short -/

/-- A slice cut short makes no error, the journal line of its BIST_RUN included. -/
theorem sliceAborted_noNewLost (s : State) (ty tg : Nat) : NoNewLost s (s.sliceAborted ty tg) := by
  unfold State.sliceAborted
  extract_lets _ bumped tested turned r told
  have hbumped : NoNewLost s bumped := .of_errs rfl
  have htested : NoNewLost s tested := hbumped.trans (.of_errs rfl)
  have hturned : NoNewLost s turned := htested.trans (.of_frame (turnOver_frame tested ty tg) (by decide))
  have htold : NoNewLost s told := by
    refine hturned.trans ?_
    show NoNewLost turned (if _ then _ else _)
    split
    · refine .trans ?_ (.of_frame (evt_frame _ _ _ _ _ _ _ _) (by decide))
      exact .of_frame (modTest_frame _ _ _ _) (by decide)
    · exact .refl _
  split
  · split
    · exact (((htold.trans (.of_frame (dropJob_frame _ _) (by decide))).trans
        (.of_frame (jFinal_frame _ _ _ _ _ _ _ _) (by decide))).trans (jKeep_noNewLost _ _)).trans
        (.of_frame (cmdDone_frame _ _ _ _) (by decide))
    · exact htold
  · exact htold

/-- A slice that a request cuts short makes no error. -/
theorem abortSlice_noNewLost (s : State) (p : Nat → Nat → Bool) : NoNewLost s (s.abortSlice p) := by
  unfold State.abortSlice
  split
  · exact .refl s
  · split
    · refine .trans (.trans ?_ (sliceAborted_noNewLost _ _ _)) (.of_frame (abortLeaves_frame _ _ _) (by decide))
      exact .of_errs rfl
    · exact .refl s

/-- Accesses to lines of MRAM cut slices short, and make no error. -/
theorem abortMrams_noNewLost (s : State) (l : List Nat) : NoNewLost s (s.abortMrams l) :=
  List.foldlRecOn _ _ (.refl s) fun t ht a _ => ht.trans (by
    unfold State.abortMram
    split
    · exact abortSlice_noNewLost t _
    · exact .refl t)

/-! ### Records that are stored -/

/-- Lines that take a write are verified, and nothing else comes of it. -/
theorem verifyLines_takes {s : State} {l : List Nat} (h : ∀ a ∈ l, s.meets a ≠ .lost) :
    s.verifyLines l = (s, true) := by
  induction l with
  | nil => rfl
  | cons a r ih =>
    obtain ⟨ha, hr⟩ := List.forall_mem_cons.mp h
    have hline : s.verifyLine a = (s, true) := if_pos ha
    simp only [State.verifyLines, hline, if_true, ih hr]

/-- Records whose lines take a write are stored. -/
theorem storeConf_takes {s : State} {l : List Nat} (h : s.confTakes l = true) : (s.storeConf l).2 = true := by
  have hgood : ∀ a ∈ l.map confLine, (s.abortMrams (l.map confLine)).meets a ≠ .lost := by
    intro a ha hlost
    obtain ⟨k, hk, rfl⟩ := List.mem_map.mp ha
    exact of_decide_eq_true (List.all_eq_true.mp h k hk) (abortMrams_noNewLost s _ _ hlost)
  unfold State.storeConf
  rw [verifyLines_takes hgood]
  rfl

/-- The lines of records take a write after a command's entry is made as before. -/
theorem entered_confTakes (u : State) (op : Nat) (q : Pkt) (b : Bool) (l : List Nat) :
    (u.entered op q b).1.confTakes l = u.confTakes l := by
  unfold State.confTakes State.meets
  rw [memK (entered_frame u op q b) (by decide)]

/-- A command's entry is made on a state whose records can be stored: they are stored after it. -/
theorem entered_stores {u : State} {l : List Nat} (h : u.confTakes l = true) (op : Nat) (q : Pkt) (b : Bool) :
    ((u.entered op q b).1.storeConf l).2 = true := storeConf_takes ((entered_confTakes u op q b l).trans h)

end Sys2Proof.Machine
end


section
/-! PROOFS. A session's ends (16_journal_recovery_firmware.md R361). -/

namespace Sys2Proof.Machine

/-- What leaves the firmware state leaves the sessions. -/
theorem session_of_fw {s t : State} (h : t.fw = s.fw) (port : Port) : t.session port = s.session port := by
  unfold State.session
  rw [h]

/-- Setting every tile's reference DAC leaves the firmware state. -/
theorem setDacs_fw (s : State) (d : Dac) : (s.setDacs d).fw = s.fw :=
  List.foldlRecOn (motive := fun t : State => t.fw = s.fw) _ _ rfl fun _ ht _ _ => ht

/-- The limp loader's request leaves the firmware state. -/
theorem limpRequest_fw (s : State) : s.limpRequest.fw = s.fw := abortSlice_frame s _ .firmware (by decide)

/-- The last forcing case's end leaves the firmware state. -/
theorem vfbRelease_fw (s : State) : s.vfbRelease.fw = s.fw := by
  unfold State.vfbRelease
  split <;> rfl

/-- A change of the safe state leaves the firmware state (R240). -/
theorem setSafe_fw (s : State) (new : Nat) : (s.setSafe new).fw = s.fw := by
  unfold State.setSafe
  extract_lets old _ moved released told _ _ lit
  have htold : told.fw = s.fw :=
    (evt_frame released _ _ _ _ _ _ _ .firmware (by decide) :).trans (vfbRelease_fw moved)
  clear_value told
  have hlit : lit.fw = s.fw := by
    unfold lit
    split <;> exact htold
  clear_value lit
  split
  · rfl
  · split
    · exact hlit
    · split
      · have rest (u : State) : u.clearFreeze.delayFreeze.forceVfb.fw = u.fw := by
          simp only [State.forceVfb, State.delayFreeze, State.clearFreeze]
        exact (rest _).trans ((limpRequest_fw lit).trans hlit)
      · split
        · have rest (u : State) : u.shutStrings.clearFreeze.fw = u.fw := by
            simp only [State.clearFreeze, State.shutStrings]
          exact (rest _).trans ((setDacs_fw lit .off).trans hlit)
        · exact hlit

/-- A cause that is added leaves the firmware state (R240). -/
theorem addCause_fw (s : State) (b : Nat) : (s.addCause b).fw = s.fw := by
  unfold State.addCause
  extract_lets latched _ caused settled
  have hlatched : latched.fw = s.fw := by
    unfold latched
    split <;> rfl
  have hsettled : settled.fw = s.fw := by
    unfold settled State.cancelReturn
    split <;> exact hlatched
  clear_value settled
  split
  · exact hlatched
  · split
    · exact (setSafe_fw settled _).trans hsettled
    · exact hsettled

/-- A restart of the sequencer closes the sessions (R352, R361). -/
theorem seqRestart_session (s : State) (level cause : Nat) (port : Port) :
    (s.seqRestart level cause).session port = none := by
  unfold State.seqRestart
  extract_lets stopped _ migrated _ _ _ _ closed bumped
  split
  · exact (session_of_fw (addCause_fw bumped 12) port).trans rfl
  · rfl

/-- The entry to STANDBY closes the sessions (R361). -/
theorem toStandby_session (s : State) (n : Nego) (port : Port) : (s.toStandby n).session port = none := by
  unfold State.toStandby State.powerEntered
  exact session_of_fw (evt_frame _ _ _ _ _ _ _ _ .firmware (by decide)) port

/-- A packet that passes its checks passes the check of its opcode's state (R42 step 9). -/
theorem passes_gate {op : Nat} {d : OpDef} {p : Pkt} {s : State} (h : passes op d p s = true) :
    d.gate (ownOf op p s) (authOf op p s) = none := by
  simp only [passes, Bool.and_eq_true, Option.isNone_iff_eq_none] at h
  exact h.2

/-- A command journaled on request that ends at once, on the sessions that its effect leaves. -/
theorem exec_journaled_session {c : Instr} {op : Nat} {d : OpDef} {p : Pkt} {s : State} {P : Option Session → Prop}
    (hc : exec c s = .next (serveOp op d p false s)) (hp : passes op d p s = true) (hj : d.jnl (ownOf op p s) = 1)
    (hr : let e := (authOf op p s).entered op (ownOf op p s) (ownOf op p s).durable
      ∃ v r, d.run e.2 (ownOf op p s) e.1 = okOut v r ∧ P (v.session p.port)) :
    ∃ t, exec c s = .next t ∧ P (t.session p.port) := by
  obtain ⟨v, r, hrun, hx⟩ := hr
  refine ⟨_, exec_passes hc hp (execute_requested (eff := fun _ => (v, r)) hj hrun), ?_⟩
  have hfw : ∀ (e : Word) b st w, ((v.jEnd e b stOk 1 1 false st).reply op (ownOf op p s) stOk 1 1 e w false true).fw
      = v.fw := fun e b st w =>
    (reply_frame _ _ _ _ _ _ _ _ _ _ .firmware (by decide)).trans (jEnd_frame _ _ _ _ _ _ _ _ .firmware (by decide))
  exact (session_of_fw (hfw _ _ _ _) p.port).symm ▸ hx

/-- AUTH_CLOSE closes the session of its port, whatever CTR it answers. -/
theorem authClose_closes (j : Word) (q : Pkt) (v : State) :
    ∃ w r, authCloseDef.run j q v = okOut w r ∧ w.session q.port = none := ⟨_, _, rfl, by simp⟩

/-- AUTH_OPEN with MODE 0 opens its port's session under the key of its slot (R360). -/
theorem authOpen_run {j : Word} {q : Pkt} {v : State} {key : List Byte} (hmode : q.u8 17 = 0)
    (hkey : v.keyOf (q.u8 16) = some key) : authOpenDef.run j q v = authOpenRun q key v := by
  simp only [authOpenDef, hmode, if_true, hkey]

/-- A session as an AUTH_OPEN opens it: its key slot and its rings, no CTR accepted yet. -/
def OpenedBy (q : Pkt) (x : Option Session) : Prop := ∃ ks, x = some
  { key := q.u8 16, rings := BitVec.ofNat 64 (q.u64 20), ks := ks, ctr := none, fails := 0 }

/-- The session that AUTH_OPEN opens replaces the one of its port. -/
theorem authOpenRun_opens (q : Pkt) (key : List Byte) (v : State) :
    ∃ w r, authOpenRun q key v = okOut w r ∧ OpenedBy q (w.session q.port) :=
  ⟨_, _, rfl, _, by rw [session_setSession, if_pos rfl]⟩

/-- Making a command's entry leaves the keys. -/
theorem entered_keyOf (u : State) (op : Nat) (q : Pkt) (b : Bool) (k : Nat) :
    (u.entered op q b).1.keyOf k = u.keyOf k := by
  have hstored : samePart u (u.entered op q b).1 .stored := entered_frame u op q b .stored (by decide)
  have hkeys : (u.entered op q b).1.nvm.keys = u.nvm.keys := (congrArg Nvm.keys hstored :)
  unfold State.keyOf
  rw [hkeys]

/-- MODE 0 of an AUTH_OPEN is read as 0. -/
theorem authOpen_mode {p : Pkt} {s : State} (hp : passes 0x0C06 authOpenDef (p.fix 17 0) s = true) :
    (ownOf 0x0C06 (p.fix 17 0) s).u8 17 = 0 := ownOf_fix_zero (passes_timed hp :)

/-- AUTH_OPEN with MODE 0 is journaled on request (R413). -/
theorem authOpen_jnl_open {q : Pkt} (hmode : q.u8 17 = 0) : authOpenDef.jnl q = 1 :=
  if_neg fun h => absurd (hmode.symm.trans h) (by decide)

/-- An AUTH_OPEN that passes its checks opens the session of its port. -/
theorem exec_authOpen_opens {p : Pkt} {s : State} (hp : passes 0x0C06 authOpenDef (p.fix 17 0) s = true) :
    ∃ t, exec (.authOpen p) s = .next t ∧ OpenedBy (ownOf 0x0C06 (p.fix 17 0) s) (t.session p.port) := by
  have hmode := authOpen_mode hp
  have hgate := passes_gate hp
  simp only [authOpenDef, hmode, if_true, stop_eq_none, Option.isNone_eq_false_iff, Option.isSome_iff_exists] at hgate
  obtain ⟨key, hkey⟩ := hgate
  refine exec_journaled_session (c := .authOpen p) (p := p.fix 17 0) (P := OpenedBy _) rfl hp
    (authOpen_jnl_open hmode) ?_
  intro e
  rw [authOpen_run hmode ((entered_keyOf _ _ _ _ _).trans hkey)]
  exact authOpenRun_opens _ key _

/-- Settles O26: the two commands by their effects on the sessions, and each reset and entry by its own. -/
theorem sessionsEnd : Obligations.SessionsEnd := by
  refine ⟨fun p s hp => exec_journaled_session (P := (· = none)) rfl hp rfl (authClose_closes _ _ _),
    fun p s hp => ?opens, fun _ _ _ _ _ => rfl, seqRestart_session, toStandby_session, fun _ _ _ _ _ _ => rfl⟩
  obtain ⟨t, he, ks, ht⟩ := exec_authOpen_opens hp
  exact ⟨t, ks, he, ht⟩

end Sys2Proof.Machine
end


section
/-! PROOFS. The session commands complete (16_journal_recovery_firmware.md R359, R360, AUTH_OPEN, AUTH_CLOSE). -/

namespace Sys2Proof.Machine

/-- A command whose row fixes a byte completes, where a condition holds, as the execution of its opcode does there. -/
theorem runsWhen_own {c : Instr} {op : Nat} {d : OpDef} {p : Pkt} {s : State} {when : Pkt → State → Bool}
    {f : Pkt → State → State} (hc : exec c s = .next (serveOp op d p false (servedOn c s)))
    (he : passes op d p (servedOn c s) = true → let q := ownOf op p (servedOn c s)
      ∀ u, when q u = true → u.execute op d q q.params false = f q u) : RunsWhen c op d p s when f := by
  intro hp _ hw
  rw [hc, serveOp_passes hp, he hp _ hw]

/-- MODE 1 of an AUTH_OPEN of its layout is read as 1. -/
theorem authLoad_mode {p : Pkt} {s : State} (hp : passes 0x0C06 authOpenDef (p.fix 17 1) s = true) :
    (ownOf 0x0C06 (p.fix 17 1) s).u8 17 = 1 := by
  have htimed : p.timed = false := (passes_timed hp :)
  have hlen : (ownOf 0x0C06 (p.fix 17 1) s).plen = 9 := of_decide_eq_true (passes_len hp :)
  exact ownOf_fix htimed (by unfold Pkt.plen at hlen; omega)

/-- Making a command's entry leaves the session that covers a packet. -/
theorem entered_covering (u : State) (op : Nat) (q : Pkt) (b : Bool) (p : Pkt) :
    (u.entered op q b).1.covering p = u.covering p := by
  unfold State.covering
  rw [session_of_fw (entered_frame u op q b .firmware (by decide))]

section
variable {j : Word} {q : Pkt} {v : State}

/-- AUTH_OPEN with MODE 1 is always durable (R413). -/
theorem authOpen_jnl_load (hmode : q.u8 17 = 1) : authOpenDef.jnl q = 2 := if_pos hmode

/-- AUTH_OPEN with MODE 1 loads a key. -/
theorem authOpen_run_load (hmode : q.u8 17 = 1) : authOpenDef.run j q v = authLoadRun q v :=
  if_neg fun h => absurd (hmode.symm.trans h) (by decide)

/-- The first key of a slot is stored as it stands in the packet (R359). -/
theorem authLoadRun_first (hkey : v.keyOf (q.u8 16) = none) (hstore : (v.storeConf [5 + q.u8 16]).2 = true) :
    let w := (v.storeConf [5 + q.u8 16]).1
    authLoadRun q v = okOut { w with nvm := { w.nvm with
      keys := tput (fun _ => none) w.nvm.keys (q.u8 16) (some (q.bytes 36 16)) } } [] := by
  simp only [authLoadRun, hkey, hstore, Bool.not_true, Bool.false_eq_true, if_false]

/-- A later key of a slot is stored as the session that covers the packet unwraps it (R359). -/
theorem authLoadRun_wrapped {x : Session} (hkey : (v.keyOf (q.u8 16)).isSome = true) (hcover : v.covering q = some x)
    (hstore : (v.storeConf [5 + q.u8 16]).2 = true) :
    let w := (v.storeConf [5 + q.u8 16]).1
    authLoadRun q v = okOut { w with nvm := { w.nvm with
      keys := tput (fun _ => none) w.nvm.keys (q.u8 16) (some (aesUnwrap x.ks (q.bytes 36 16))) } } [] := by
  obtain ⟨old, hold⟩ := Option.isSome_iff_exists.mp hkey
  simp only [authLoadRun, hold, hcover, hstore, Bool.not_true, Bool.false_eq_true, if_false]

/-- AUTH_CLOSE answers the CTR that was accepted last. -/
theorem authClose_run {x : Session} {c : Word} (hx : v.session q.port = some x) (hc : x.ctr = some c) :
    authCloseDef.run j q v = okOut (v.setSession q.port none) [c] := by
  simp only [authCloseDef, hx, hc]

end

/-- Settles O44: AUTH_OPEN by MODE and by whether its key slot is written, AUTH_CLOSE by the last CTR. -/
theorem sessionCommandsComplete : Obligations.SessionCommandsComplete := by
  refine fun _ _ _ _ _ => ⟨runsWhen_own rfl fun hp u h => ?opens, runsWhen_own rfl fun hp u h => ?first,
    runsWhen_own rfl fun hp u h => ?wrapped, runsWhen_journaled rfl (fun _ _ _ => rfl) fun _ q u h => ?closes⟩
  case opens =>
    have hmode := authOpen_mode hp
    exact execute_requested (authOpen_jnl_open hmode)
      (authOpen_run hmode ((entered_keyOf _ _ _ _ _).trans (of_decide_eq_true h)))
  case first =>
    have hmode := authLoad_mode hp
    simp only [Bool.and_eq_true, Option.isNone_iff_eq_none] at h
    obtain ⟨hkey, htakes⟩ := h
    exact execute_durable (authOpen_jnl_load hmode) ((authOpen_run_load hmode).trans
      (authLoadRun_first ((entered_keyOf _ _ _ _ _).trans hkey) (entered_stores htakes _ _ _)))
  case wrapped =>
    have hmode := authLoad_mode hp
    simp only [Bool.and_eq_true, decide_eq_true_eq] at h
    obtain ⟨⟨hkey, hcover⟩, htakes⟩ := h
    exact execute_durable (authOpen_jnl_load hmode) ((authOpen_run_load hmode).trans
      (authLoadRun_wrapped (by rwa [entered_keyOf]) ((entered_covering _ _ _ _ _).trans hcover)
        (entered_stores htakes _ _ _)))
  case closes =>
    have hsession := session_of_fw (entered_frame u 0x0C07 q q.durable .firmware (by decide)) q.port
    cases hx : u.session q.port with
    | none =>
      rw [hx] at h
      cases h
    | some y =>
      rw [hx] at h
      exact authClose_run (hsession.trans hx) (of_decide_eq_true h)

end Sys2Proof.Machine
end


section
/-! PROOFS. The self-test and thermal commands complete (13_self_test.md and 14_thermal.md opcodes). -/

namespace Sys2Proof.Machine

/-- THERM_CONFIG is always durable with STORE, and else journaled on request (R413). -/
theorem thermConfig_jnl (q : Pkt) : thermConfigDef.jnl q = if bitOf (q.u8 17) 0 then 2 else 1 := rfl

/-- THERM_CONFIG is journaled on request or always. -/
theorem thermConfig_journals (q : Pkt) : thermConfigDef.jnl q = 1 ∨ thermConfigDef.jnl q = 2 := by
  rw [thermConfig_jnl]
  split
  · exact .inr rfl
  · exact .inl rfl

/-- The entry of a THERM_CONFIG is durable with STORE, and if asked. -/
theorem thermConfig_durable (q : Pkt) :
    (bitOf (q.u8 17) 0 || q.durable) = (decide (thermConfigDef.jnl q = 2) || q.durable) := by
  rw [thermConfig_jnl]
  split <;> simp [*]

section
variable {j : Word} {q : Pkt} {v : State}

/-- THERM_CONFIG of the six levels, where with STORE their record is stored. -/
theorem thermConfig_run_levels (hkind : q.u8 16 = 0) (hstore : (v.storeConf [2]).2 = true) :
    let u := if bitOf (q.u8 17) 0 then (v.storeConf [2]).1 else v
    let w := (List.range 6).foldl
      (fun (t : State) k => t.setLive (thermParams.getD k 0) ((configValues q).getD k 0)) u
    thermConfigDef.run j q v = okOut (if bitOf (q.u8 17) 0 then
        { w with nvm := { w.nvm with thermal := some ((configValues q).map w32) } } else w)
      [w32 (u.live pThermLevels)] := by
  cases hs : bitOf (q.u8 17) 0 <;>
    simp only [thermConfigDef, hs, hkind, hstore, if_true, if_false, Bool.not_true, Bool.false_eq_true]

/-- THERM_CONFIG of the NTC table, where with STORE its record is stored. -/
theorem thermConfig_run_ntc (hkind : q.u8 16 ≠ 0) (hstore : (v.storeConf [3, 4]).2 = true) :
    let u := if bitOf (q.u8 17) 0 then (v.storeConf [3, 4]).1 else v
    let w := { u with thm := { u.thm with ntcTab := configNtc q } }
    thermConfigDef.run j q v = okOut
      (if bitOf (q.u8 17) 0 then { w with nvm := { w.nvm with ntc := configNtc q } } else w)
      [w32 (crc32 (((configNtc q).getD ntcDefault).flatMap fun i => leBytes 2 (twos 16 i)))] := by
  cases hs : bitOf (q.u8 17) 0 <;>
    simp only [thermConfigDef, hs, hkind, hstore, if_true, if_false, Bool.not_true, Bool.false_eq_true]

end

/-- Settles O40: the job of BIST_RUN, THERM_CONFIG by what it configures, and the effects of the others. -/
theorem testAndThermalCommandsComplete : Obligations.TestAndThermalCommandsComplete := by
  refine fun _ _ => ⟨runs_execute rfl fun _ _ => execute_requested rfl rfl,
    runs_execute rfl fun _ _ => execute_begun rfl (.inl rfl) rfl,
    runs_execute rfl fun _ _ => execute_answers rfl fun _ => rfl,
    runs_execute rfl fun _ _ => execute_requested rfl rfl,
    runs_execute rfl fun _ _ => execute_answers rfl fun _ => rfl,
    runsWhen_execute rfl fun q u h => execute_journaled (thermConfig_durable q) (thermConfig_journals q) ?levels,
    runsWhen_execute rfl fun q u h => execute_journaled (thermConfig_durable q) (thermConfig_journals q) ?ntc⟩
  all_goals obtain ⟨hkind, htakes⟩ := Bool.and_eq_true_iff.mp h
  case levels => exact thermConfig_run_levels (of_decide_eq_true hkind) (entered_stores htakes _ _ _)
  case ntc => exact thermConfig_run_ntc (of_decide_eq_true hkind) (entered_stores htakes _ _ _)

end Sys2Proof.Machine
end


section
/-! SUPPORT. What each durable write of MRAM keeps (12_memory_integrity.md R284, 13_self_test.md R293,
16_journal_recovery_firmware.md R348): a relation that the write of one line keeps is kept by the journal's lines, by
records and by slices cut short for either. -/

namespace Sys2Proof.Machine

/-- The parts that durable writes change beside memory integrity and what MRAM keeps. -/
def besideParts : List Part := serveParts ++ [.selfTest, .free, .link]

/-- A relation that a write of MRAM keeps on each line of which a condition holds. -/
structure LineRel (L : Nat → Prop) (R : State → State → Prop) : Prop extends ServeRel besideParts R where
  verify : ∀ {a}, L a → ∀ s, R s (s.verifyLine a).1
  whole  : ∀ {f : Nat → Bool}, (∀ a, f a = true → L a) → ∀ s, R s (s.wholeWritten f)

/-- The lines of the journal are lines of which a condition holds. -/
def OnJournal (L : Nat → Prop) : Prop := ∀ j, L (jAddr j)

section
variable {L : Nat → Prop} {R : State → State → Prop} (hR : LineRel L R) (hL : OnJournal L)
include hR

/-- What changes none of the parts that a write of a line is about. -/
theorem LineRel.frame {l : List Part} {s t : State} (h : sameBut l s t) (hl : ∀ x ∈ l, x ∈ besideParts) : R s t :=
  hR.base (sameBut_mono h hl)

/-- The same after other changes. -/
theorem LineRel.then_frame {l : List Part} {s t u : State} (h : R s t) (k : sameBut l t u)
    (hl : ∀ x ∈ l, x ∈ besideParts) : R s u := hR.trans h (hR.frame k hl)

/-- Lines that are written and read back. -/
theorem LineRel.verifyLines {as : List Nat} (h : ∀ a ∈ as, L a) (s : State) : R s (s.verifyLines as).1 := by
  induction as generalizing s with
  | nil => exact hR.refl s
  | cons a r ih =>
    obtain ⟨ha, hr⟩ := List.forall_mem_cons.mp h
    unfold State.verifyLines
    dsimp only
    split
    · exact hR.trans (hR.verify ha s) (ih hr _)
    · exact hR.verify ha s

include hL

/-- An entry's line in MRAM. -/
theorem LineRel.jStore (s : State) (j : Word) : R s (s.jStore j) := by
  unfold State.jStore
  split
  · exact hR.frame (dropLine_frame s j) (by decide)
  · next e _ =>
    have hline : sameBut [.journal] s { s.dropLine j with nvm := { (s.dropLine j).nvm with
        journal := tput (fun _ => jNone) s.nvm.journal (j.toNat % 16384) e } } := by
      intro x hx
      cases x <;> first | exact absurd (by decide) hx | rfl | exact ⟨rfl, rfl⟩ | exact ⟨rfl, rfl, rfl⟩
    refine hR.trans (hR.frame hline (by decide)) (hR.whole (fun a ha => ?_) _)
    exact of_decide_eq_true ha ▸ hL j

/-- The line of a durable entry (R348). -/
theorem LineRel.jKeep (s : State) (j : Word) : R s (s.jKeep j) := by
  have verified := hR.verify (hL j) s
  unfold State.jKeep
  split
  · exact hR.frame (jWait_frame s j true) (by decide)
  · dsimp only
    split
    · exact hR.trans verified (hR.jStore hL _ j)
    · exact hR.then_frame verified (dropLine_frame _ j) (by decide)

/-- A slice cut short, the line of its BIST_RUN included (R293). -/
theorem LineRel.sliceAborted (s : State) (ty tg : Nat) : R s (s.sliceAborted ty tg) := by
  unfold State.sliceAborted
  extract_lets _ counted tested turned r told
  have hcounted : R s counted :=
    hR.frame (sameBut_trans (setBist_frame (l := [.selfTest, .params]) (sameBut_refl _ s) (by decide) _)
      (sameBut_mono (bump_frame _ _ _) (by decide))) (by decide)
  have htested : R s tested := hR.then_frame hcounted (modTest_frame _ _ _ _) (by decide)
  have hturned : R s turned := hR.then_frame htested (turnOver_frame _ _ _) (by decide)
  have htold : R s told := by
    unfold told
    split
    · exact hR.then_frame (hR.then_frame hturned (modTest_frame turned ty tg _) (by decide))
        (evt_frame _ _ _ _ _ _ _ _) (by decide)
    · exact hturned
  split
  · next b _ =>
    split
    · refine hR.then_frame (hR.trans ?_ (hR.jKeep hL _ _)) (cmdDone_frame _ _ _ _) (by decide)
      exact hR.then_frame (hR.then_frame htold (dropJob_frame told b) (by decide)) (jFinal_frame _ _ _ _ _ _ _ _)
        (by decide)
    · exact htold
  · exact htold

/-- A slice that a request cuts short (R293). -/
theorem LineRel.abortSlice (s : State) (p : Nat → Nat → Bool) : R s (s.abortSlice p) := by
  unfold State.abortSlice
  split
  · exact hR.refl s
  · split
    · have drawn : R s s.freeW.1.freeW.1 :=
        hR.then_frame (hR.frame (freeW_frame s) (by decide)) (freeW_frame _) (by decide)
      refine hR.then_frame (hR.trans ?_ (hR.sliceAborted hL _ _ _)) (abortLeaves_frame _ _ _) (by decide)
      exact hR.then_frame drawn (modTest_frame _ _ _ _) (by decide)
    · exact hR.refl s

/-- An access to a line of MRAM. -/
theorem LineRel.abortMram (s : State) (a : Nat) : R s (s.abortMram a) := by
  unfold State.abortMram
  split
  · exact hR.abortSlice hL s _
  · exact hR.refl s

/-- Accesses to lines of MRAM. -/
theorem LineRel.abortMrams (s : State) (l : List Nat) : R s (s.abortMrams l) :=
  List.foldlRecOn _ _ (hR.refl s) fun t ht a _ => hR.trans ht (hR.abortMram hL t a)

/-- A command's final state in its entry. -/
theorem LineRel.jEnd (s : State) (j : Word) (b : Bool) (st step steps : Nat) (partly : Bool) (r : Word) :
    R s (s.jEnd j b st step steps partly r) := by
  have durable (u : State) : R u (u.jDurable j) := by
    unfold State.jDurable
    split
    · exact hR.jKeep hL u j
    · exact hR.trans (hR.abortMram hL u _) (hR.jKeep hL _ j)
  have final := hR.frame (jFinal_frame s j b st step steps partly r) (by decide)
  unfold State.jEnd
  dsimp only
  split
  · exact hR.refl s
  · split
    · exact hR.trans final (durable _)
    · exact final

/-- What a journaled command that completes leaves after its effect. -/
theorem LineRel.journaled (u : State) (op : Nat) (q : Pkt) (b : Bool) (eff : State → State × List Word) :
    R (eff (u.entered op q b).1).1 (u.journaled op q b eff) :=
  hR.then_frame (hR.jEnd hL _ _ _ _ _ _ _ _) (reply_frame _ _ _ _ _ _ _ _ _ _) (by decide)

/-- What a journaled command that fails leaves after its effect. -/
theorem LineRel.failed (u : State) (op : Nat) (q : Pkt) (b : Bool) (st : Nat) (eff : State → State) :
    R (eff (u.entered op q b).1) (u.failed op q b st eff) :=
  hR.then_frame (hR.jEnd hL _ _ _ _ _ _ _ _) (reply_frame _ _ _ _ _ _ _ _ _ _) (by decide)

end

/-- Records that are stored keep a relation that every write of a line keeps. -/
theorem LineRel.storeConf {R : State → State → Prop} (hR : LineRel (fun _ => True) R) (s : State) (l : List Nat) :
    R s (s.storeConf l).1 := by
  have written := hR.trans (hR.abortMrams (fun _ => trivial) s (l.map confLine))
    (hR.verifyLines (as := l.map confLine) (fun _ _ => trivial) _)
  unfold State.storeConf
  dsimp only
  split
  · exact hR.trans written (hR.whole (fun _ _ => trivial) _)
  · exact written

/-! ### Writes that fail -/

/-- The write of a line fails: its cells give nothing good, and no spare sector is free (R284). -/
def Unwritable (a : Nat) (s : State) : Prop := s.freeSpare 0 = none ∧ s.meets a = .lost

/-- Such a write fails. -/
theorem verifyLine_unwritable {a : Nat} {s : State} (h : Unwritable a s) :
    s.verifyLine a = ((s.errGone a).writeFails a, false) := by
  have hspare : s.freeSpare 0 = none := h.1
  unfold State.verifyLine
  rw [if_neg (by simp [h.2])]
  simp only [hspare]

/-- The write of a line fails as before where the spare sectors and the line's errors are as before. -/
theorem Unwritable.of_eq {a : Nat} {s t : State} (h : Unwritable a s) (hspare : t.nvm.spares = s.nvm.spares)
    (herr : t.mem.errs.lookup a = s.mem.errs.lookup a) : Unwritable a t := by
  unfold Unwritable State.freeSpare State.meets at h ⊢
  rwa [hspare, herr]

/-- What leaves memory integrity and what MRAM keeps leaves the write failing. -/
theorem Unwritable.frame {l : List Part} {a : Nat} {s t : State} (hf : sameBut l s t) (hm : .memory ∉ l)
    (hs : .stored ∉ l) (h : Unwritable a s) : Unwritable a t := by
  have hstored : samePart s t .stored := hf .stored hs
  exact h.of_eq (congrArg Nvm.spares hstored :) (by rw [memK hf hm])

/-- What takes the errors of other lines away leaves the write failing. -/
theorem Unwritable.filter {a : Nat} {s t : State} {f : Nat → Bool} (h : Unwritable a s)
    (hspare : t.nvm.spares = s.nvm.spares) (herr : t.mem.errs = s.mem.errs.filter fun e => f e.1)
    (ha : f a = true) : Unwritable a t :=
  h.of_eq hspare (by rw [herr, lookup_filter_key, if_pos ha])

/-- No durable write of another line makes the write of a line succeed. -/
theorem unwritable_lineRel (a : Nat) : LineRel (· ≠ a) fun s t => Unwritable a s → Unwritable a t where
  refl _ := id
  trans h k := k ∘ h
  base h := Unwritable.frame h (by decide) (by decide)
  verify {b} hb s h := by
    by_cases hlost : s.meets b = .lost
    · have gone : Unwritable a (s.errGone b) := h.filter (f := fun x => decide (x ≠ b)) rfl rfl (by simpa using hb.symm)
      rw [verifyLine_unwritable ⟨h.1, hlost⟩]
      unfold State.writeFails
      exact Unwritable.frame (evt_frame _ _ _ _ _ _ _ _) (by decide) (by decide) (gone.of_eq rfl rfl)
    · unfold State.verifyLine
      rwa [if_pos hlost]
  whole {f} hf s h := h.filter (f := fun x => !f x) rfl rfl (by
    cases hfa : f a with
    | false => rfl
    | true => exact absurd rfl (hf a hfa))

/-- A record is not a line of the journal. -/
theorem jAddr_ne_confLine (k : Nat) : OnJournal (· ≠ confLine k) := fun j h => by
  have := Nat.mod_lt j.toNat (show 0 < 16384 by decide)
  unfold jAddr confLine at h
  omega

/-- A record whose line cannot be written is not stored. -/
theorem storeConf_unwritable {k : Nat} {s : State} (h : Unwritable (confLine k) s) : (s.storeConf [k]).2 = false := by
  have kept := (unwritable_lineRel (confLine k)).abortMrams (jAddr_ne_confLine k) s [confLine k] h
  simp [State.storeConf, State.verifyLines, verifyLine_unwritable kept]

/-- A record whose line takes no write cannot be written once no spare sector is free. -/
theorem unwritable_of_confTakes {k : Nat} {s : State} (hspare : s.freeSpare 0 = none) (h : s.confTakes [k] = false) :
    Unwritable (confLine k) s := by
  refine ⟨hspare, ?_⟩
  simpa [State.confTakes] using h

end Sys2Proof.Machine
end


section
/-! PROOFS. The group commands complete (17_group_operation.md opcodes, R364, R368). -/

namespace Sys2Proof.Machine

/-! ### The address, the memberships and what is stored of them -/

/-- The group registers, the stored address and the stored memberships are as they were. -/
def GroupsKept (s t : State) : Prop := t.grp = s.grp ∧ t.nvm.node = s.nvm.node ∧ t.nvm.groups = s.nvm.groups

/-- What leaves the group registers and what MRAM keeps. -/
theorem GroupsKept.frame {l : List Part} {s t : State} (h : sameBut l s t) (hg : .groups ∉ l) (hs : .stored ∉ l) :
    GroupsKept s t := by
  have hstored : samePart s t .stored := h .stored hs
  exact ⟨grp_of_frame h hg, (congrArg Nvm.node hstored :), (congrArg Nvm.groups hstored :)⟩

/-- From step to step. -/
theorem GroupsKept.trans {s t u : State} (h : GroupsKept s t) (k : GroupsKept t u) : GroupsKept s u :=
  ⟨k.1.trans h.1, k.2.1.trans h.2.1, k.2.2.trans h.2.2⟩

/-- A sector that is copied to a spare one (R284). -/
theorem remapSector_groupsKept (s : State) (a k : Nat) : GroupsKept s (s.remapSector a k) := by
  unfold State.remapSector
  extract_lets sec read spares _ mapped
  have hread : GroupsKept s read := .frame (readEach_frame s 7 _) (by decide) (by decide)
  have hmapped : GroupsKept read mapped := ⟨rfl, rfl, rfl⟩
  exact (hread.trans hmapped).trans (.frame (evt_frame _ _ _ _ _ _ _ _) (by decide) (by decide))

/-- A write that fails (R284). -/
theorem writeFails_groupsKept (s : State) (a : Nat) : GroupsKept s (s.writeFails a) := by
  unfold State.writeFails
  extract_lets _ poisoned
  have hpoisoned : GroupsKept s poisoned := ⟨rfl, rfl, rfl⟩
  exact hpoisoned.trans (.frame (evt_frame _ _ _ _ _ _ _ _) (by decide) (by decide))

/-- A line that is written and read back. -/
theorem verifyLine_groupsKept (s : State) (a : Nat) : GroupsKept s (s.verifyLine a).1 := by
  have gone : GroupsKept s (s.errGone a) := ⟨rfl, rfl, rfl⟩
  unfold State.verifyLine
  split
  · exact ⟨rfl, rfl, rfl⟩
  · split
    · exact gone.trans (remapSector_groupsKept _ a _)
    · exact gone.trans (writeFails_groupsKept _ a)

/-- Every durable write keeps the address and the memberships. -/
theorem groupsKept_lineRel : LineRel (fun _ => True) GroupsKept where
  refl _ := ⟨rfl, rfl, rfl⟩
  trans := GroupsKept.trans
  base h := .frame h (by decide) (by decide)
  verify _ s := verifyLine_groupsKept s _
  whole _ _ := ⟨rfl, rfl, rfl⟩

/-! ### Commands that store where they are asked to (R364) -/

/-- An entry is durable where its command is asked to store, and else on request (R413). -/
theorem stored_durable {d : OpDef} {q : Pkt} {b : Bool} (hj : d.jnl q = if b then 2 else 1) :
    (b || q.durable) = (decide (d.jnl q = 2) || q.durable) ∧ (d.jnl q = 1 ∨ d.jnl q = 2) := by
  rw [hj]
  cases b <;> simp

/-- A record that is stored where it is asked for (R364). -/
def State.storedIf (s : State) (b : Bool) (k : Nat) : State := if b then (s.storeConf [k]).1 else s

/-- NODE_SET's address is taken, and stored where it is asked for (R364). -/
def nodeStored (q : Pkt) (s : State) : State :=
  let w := s.storedIf (bitOf (q.u16 26) 0) 0
  let n : BitVec 14 := BitVec.ofNat 14 (q.u16 24)
  { w with
    grp := { w.grp with node := n }
    nvm := { w.nvm with node := if bitOf (q.u16 26) 0 then some n else w.nvm.node } }

/-- GROUP_SET's memberships are taken, and stored where they are asked for (R365). -/
def groupsStored (q : Pkt) (s : State) : State :=
  let w := s.storedIf (bitOf (q.u32 32) 0) 1
  let g := groupsAfter w.grp.groups (BitVec.ofNat 64 (q.u64 16)) (BitVec.ofNat 64 (q.u64 24))
  { w with
    grp := { w.grp with groups := g }
    nvm := { w.nvm with groups := if bitOf (q.u32 32) 0 then g else w.nvm.groups } }

section
variable {j : Word} {q : Pkt} {v : State}

/-- NODE_SET where its store, if it is asked for, is good. -/
theorem nodeSet_run (hstore : (v.storeConf [0]).2 = true) :
    nodeSetDef.run j q v = okOut (nodeStored q v) [w32 (v.storedIf (bitOf (q.u16 26) 0) 0).grp.node.toNat] := by
  cases hs : bitOf (q.u16 26) 0 <;>
    simp only [nodeSetDef, nodeStored, State.storedIf, hs, hstore, if_true, if_false, Bool.not_true, Bool.false_eq_true]

/-- NODE_SET whose store fails. -/
theorem nodeSet_run_fails (hs : bitOf (q.u16 26) 0 = true) (hstore : (v.storeConf [0]).2 = false) :
    nodeSetDef.run j q v = { s := (v.storeConf [0]).1, status := stNvmFault, step := 0 } := by
  simp only [nodeSetDef, hs, hstore, if_true, Bool.not_false]

/-- GROUP_SET where its store, if it is asked for, is good. -/
theorem groupSet_run (hstore : (v.storeConf [1]).2 = true) :
    groupSetDef.run j q v = okOut (groupsStored q v) (words64 (groupsStored q v).grp.groups.toNat) := by
  have hgrp : (v.storeConf [1]).1.grp = v.grp := (groupsKept_lineRel.storeConf v [1]).1
  cases hs : bitOf (q.u32 32) 0 <;>
    simp only [groupSetDef, groupsStored, State.storedIf, hs, hstore, hgrp, if_true, if_false, Bool.not_true,
      Bool.false_eq_true]

/-- GROUP_SET whose store fails. -/
theorem groupSet_run_fails (hs : bitOf (q.u32 32) 0 = true) (hstore : (v.storeConf [1]).2 = false) :
    groupSetDef.run j q v = { s := (v.storeConf [1]).1, status := stNvmFault, step := 0 } := by
  simp only [groupSetDef, hs, hstore, if_true, Bool.not_false]

end

/-- NODE_SET is always durable with STORE, and else journaled on request (R413). -/
theorem nodeSet_jnl (q : Pkt) : nodeSetDef.jnl q = if bitOf (q.u16 26) 0 then 2 else 1 := rfl

/-- GROUP_SET is always durable with STORE, and else journaled on request (R413). -/
theorem groupSet_jnl (q : Pkt) : groupSetDef.jnl q = if bitOf (q.u32 32) 0 then 2 else 1 := rfl

/-- Step 6 and the making of an entry keep them. -/
theorem entered_groupsKept (op : Nat) (p q : Pkt) (s : State) (b : Bool) :
    GroupsKept s ((authOf op p s).entered op q b).1 :=
  GroupsKept.trans (.frame (authenticate_frame s op p) (by decide) (by decide))
    (.frame (entered_frame _ op q b) (by decide) (by decide))

/-- A record that cannot be stored cannot after step 6 and the making of an entry either. -/
theorem entered_storeFails {k : Nat} {s : State} (hspare : s.freeSpare 0 = none) (h : s.confTakes [k] = false)
    (op : Nat) (p q : Pkt) (b : Bool) : (((authOf op p s).entered op q b).1.storeConf [k]).2 = false :=
  storeConf_unwritable (Unwritable.frame (entered_frame _ op q b) (by decide) (by decide)
    (Unwritable.frame (authenticate_frame s op p) (by decide) (by decide) (unwritable_of_confTakes hspare h)))

/-- A command that is asked to store a record and cannot leaves the address and the memberships. -/
theorem exec_storeFails {c : Instr} {op k : Nat} {d : OpDef} {p : Pkt} {s : State}
    (hc : exec c s = .next (serveOp op d p false s)) (hp : passes op d p s = true)
    (hj : d.jnl (ownOf op p s) = 2) (hspare : s.freeSpare 0 = none) (htakes : s.confTakes [k] = false)
    (hr : ∀ j v, (v.storeConf [k]).2 = false → d.run j (ownOf op p s) v
      = { s := (v.storeConf [k]).1, status := stNvmFault, step := 0 }) :
    ∃ t, exec c s = .next t ∧ GroupsKept s t := by
  refine ⟨_, exec_passes hc hp (execute_failed (b := true) (st := stNvmFault) (eff := fun v => (v.storeConf [k]).1)
    (by rw [hj]; rfl) (.inr hj) (by decide) (hr _ _ (entered_storeFails hspare htakes op p _ true))), ?_⟩
  exact ((entered_groupsKept op p _ s true).trans (groupsKept_lineRel.storeConf _ [k])).trans
    (groupsKept_lineRel.failed (fun _ => trivial) _ op _ true stNvmFault fun v => (v.storeConf [k]).1)

/-! ### TIMED_EXEC -/

/-- A SCHEDULE whose inner command passes its checks enters the queue (R368). -/
theorem schedule_places {p q : Pkt} {s : State} {d : OpDef} (gap : Bool) (hd : opDef (q.u16 28) = some d)
    (htimeable : untimeable (q.u16 28) = false) (hclass : opPermitted (q.u16 28) p.cls = true)
    (hauth : s.innerNotAuth p (q.u16 28) = false) (hlen : d.len (innerPkt q) = true) (hok : scheduleOk q = true)
    (hbits : p.replyBits = 0) (htimed : p.timed = false) (hbad : d.bad (innerPkt q) s = none)
    (hqueue : s.timedBad (q.u16 28) p.cls (q.u64 20) (bitOf (q.u8 17) 0) = none) :
    schedule p q gap s = s.enqueue 0x0E03 (q.u16 28) p (innerPkt q) (innerPkt q).params (q.u16 18)
      (bitOf (q.u8 17) 0) (q.u64 20) gap := by
  simp [schedule, hd, htimeable, hclass, hauth, hlen, hok, hbits, htimed, hbad, hqueue]

/-- A SCHEDULE that passes its checks is placed on the state after step 6. -/
theorem serveSchedule_runs {p : Pkt} {s : State} {d : OpDef} (hd : opDef ((ownOf 0x0E03 p s).u16 28) = some d)
    (h : scheduleRuns p s d = true) :
    serveSchedule p false s = (let q := ownOf 0x0E03 p s
      (authOf 0x0E03 p s).enqueue 0x0E03 (q.u16 28) p (innerPkt q) (innerPkt q).params (q.u16 18)
        (bitOf (q.u8 17) 0) (q.u64 20) false) := by
  simp only [scheduleRuns, Bool.and_eq_true, Bool.not_eq_true', decide_eq_true_eq, Option.isNone_iff_eq_none] at h
  obtain ⟨⟨⟨⟨⟨⟨⟨⟨⟨⟨⟨⟨hclass, htimed⟩, hauth⟩, hfree⟩, hfields⟩, htimeable⟩, hinner⟩, hcovered⟩, hlen⟩, hok⟩, hbits⟩,
    hbad⟩, hqueue⟩ := h
  obtain ⟨body, hbody⟩ := Option.isSome_iff_exists.mp hauth
  have hown : ownOf 0x0E03 p s = { p with params := body } := by simp [ownOf, hbody]
  have hlong : ¬ body.length < 16 := by
    rw [hown] at hfields
    exact Nat.not_lt.mpr hfields
  have hplaced := schedule_places (s := authOf 0x0E03 p s) false hd htimeable hinner hcovered hlen hok hbits htimed
    hbad hqueue
  rw [← hplaced]
  unfold serveSchedule
  rw [if_neg (by omega), if_neg (by simp [hclass])]
  simp only [hbody, htimed, Bool.false_eq_true, if_false, if_neg hlong, hown]
  rfl

/-- A CANCEL or a LIST of its layout has the byte that its row fixes. -/
theorem timedExec_kind {p : Pkt} {s : State} {v : Byte} (hp : passes 0x0E03 timedExecDef (p.fix 16 v) s = true) :
    (ownOf 0x0E03 (p.fix 16 v) s).u8 16 = v.toNat := by
  refine ownOf_fix (passes_timed hp :) ?_
  have hlen := passes_len hp
  simp only [timedExecDef, Bool.or_eq_true, decide_eq_true_eq] at hlen
  cases hparams : (ownOf 0x0E03 (p.fix 16 v) s).params with
  | nil => simp [Pkt.plen, Pkt.u8, byteAt, hparams] at hlen
  | cons => simp

/-- CANCEL takes the entries that it names from the queue and ends each (R368). -/
theorem timedExec_run_cancel {j : Word} {q : Pkt} {u : State} (h : q.u8 16 = 1) :
    let l := cancelled q u
    let v := { u with grp := { u.grp with queue := u.grp.queue.filter fun t => !l.contains t } }
    timedExecDef.run j q u = okOut (l.foldl (fun t e => t.cancelEntry e) v) [w32 l.length] := if_pos h

/-- LIST answers the entries of the queue. -/
theorem timedExec_run_list {j : Word} {q : Pkt} {u : State} (h : q.u8 16 = 2) :
    timedExecDef.run j q u = okOut u (w32 u.grp.queue.length :: u.grp.queue.flatMap timedWords) :=
  if_neg (by omega)

/-! ### The statement -/

/-- NODE_SET for this engine is served. -/
theorem exec_nodeSet_meant {p : Pkt} (h : serialMeant (nodeSerial p (if p.timed then 24 else 16)) = true) (s : State) :
    exec (.nodeSet p) s = .next (serveOp 0x0E01 nodeSetDef p false s) := congrArg _ (if_pos h)

/-- A command that completes wherever its packet passes its checks. -/
theorem runs_own {c : Instr} {op : Nat} {d : OpDef} {p : Pkt} {s : State} {f : Pkt → State → State}
    (hc : exec c s = .next (serveOp op d p false (servedOn c s)))
    (he : passes op d p (servedOn c s) = true → let q := ownOf op p (servedOn c s)
      ∀ u, u.execute op d q q.params false = f q u) : Runs c op d p s f := fun hp hf =>
  runsWhen_own (when := fun _ _ => true) hc (fun hp u _ => he hp u) hp hf rfl

/-- Settles O46: NODE_SET and GROUP_SET by whether what they store can be stored, SCHEDULE by whether it waits, CANCEL
and LIST by the byte that their rows fix. -/
theorem groupCommandsComplete : Obligations.GroupCommandsComplete := by
  intro s p
  refine ⟨fun hmeant => runsWhen_own (exec_nodeSet_meant hmeant s) fun _ u h => ?node,
    fun hother => congrArg _ (if_neg (by simp [hother])),
    fun hspare => ⟨fun hmeant hp hs htakes => ?nodeFails, fun hp hs htakes => ?groupFails⟩,
    runsWhen_execute rfl fun q u h => ?groups,
    fun d hd hr => congrArg _ (serveSchedule_runs hd hr),
    fun hclass hfree => congrArg _ (if_pos ⟨hclass, hfree⟩),
    runs_own rfl fun hp u => execute_answers rfl fun _ => timedExec_run_cancel (timedExec_kind hp),
    runs_own rfl fun hp u => execute_answers rfl fun _ => timedExec_run_list (timedExec_kind hp),
    runs_execute rfl fun _ _ => execute_answers rfl fun _ => rfl⟩
  case node =>
    obtain ⟨hb, hj⟩ := stored_durable (nodeSet_jnl (ownOf 0x0E01 p s))
    exact execute_journaled hb hj (nodeSet_run (entered_stores h _ _ _))
  case groups =>
    obtain ⟨hb, hj⟩ := stored_durable (groupSet_jnl q)
    exact execute_journaled hb hj (groupSet_run (entered_stores h _ _ _))
  case nodeFails =>
    obtain ⟨t, he, hgrp, hnode, -⟩ := exec_storeFails (exec_nodeSet_meant hmeant s) hp (if_pos hs) hspare htakes
      fun _ _ => nodeSet_run_fails hs
    exact ⟨t, he, hgrp, hnode⟩
  case groupFails =>
    obtain ⟨t, he, hgrp, -, hgroups⟩ := exec_storeFails (c := .groupSet p) rfl hp (if_pos hs) hspare htakes
      fun _ _ => groupSet_run_fails hs
    exact ⟨t, he, hgrp, hgroups⟩

end Sys2Proof.Machine
end


section
/-! PROOFS. Where the node address and the groups come from and what changes them (17_group_operation.md R364,
15_power_states.md R31). -/

namespace Sys2Proof.Machine

/-! ### The start of the logic leaves the group registers -/

/-- A fold of steps that leave the group registers. -/
theorem foldl_grp {α : Type} {f : State → α → State} (hf : ∀ t a, (f t a).grp = t.grp) (l : List α) (s : State) :
    (l.foldl f s).grp = s.grp :=
  List.foldlRecOn (motive := fun t : State => t.grp = s.grp) _ _ rfl fun t ht a _ => (hf t a).trans ht

/-- An event. -/
theorem evt_grp (s : State) (code sev src a0 a1 a2 a3 : Nat) : (s.evt code sev src a0 a1 a2 a3).grp = s.grp :=
  grp_of_frame (evt_frame s code sev src a0 a1 a2 a3) (by decide)

/-- The lines of a span that are read. -/
theorem readSpan_grp (s : State) (req a n : Nat) : (s.readSpan req a n).1.grp = s.grp :=
  grp_of_frame (readEach_frame s req _) (by decide)

/-- Every tile's reference DAC. -/
theorem setDacs_grp (s : State) (d : Dac) : (s.setDacs d).grp = s.grp := by
  unfold State.setDacs
  exact foldl_grp (fun u t => modTile_grp u t _) _ s

/-- The events of a power-up. -/
theorem upEvents_grp (s : State) : s.upEvents.grp = s.grp := by
  unfold State.upEvents
  extract_lets exited _ entered _ failed _
  have hexited : exited.grp = s.grp := by
    unfold exited
    split
    · rw [evt_grp]
    · rfl
  clear_value exited
  have hfailed : failed.grp = s.grp := by
    unfold failed
    split
    · rw [evt_grp]
      exact hexited
    · exact hexited
  clear_value failed
  split
  · rw [evt_grp]
    exact hfailed
  · exact hfailed

/-- The lines of a record that is read. -/
theorem readConf_grp (s : State) (l : List Nat) : (s.readConf l).1.grp = s.grp :=
  grp_of_frame (readEach_frame s 7 _) (by decide)

/-- The start of the thermal monitor (R317). -/
theorem thermStart_grp (s : State) : s.thermStart.grp = s.grp := by
  unfold State.thermStart
  extract_lets levels table taken bad _ started drawn
  have htable : table.1.grp = s.grp := (readConf_grp levels.1 _).trans (readConf_grp s _)
  have htaken : taken.grp = s.grp := by
    unfold taken
    split
    · split
      · exact Eq.trans (foldl_grp (fun u k => setLive_grp u _ _) _ _) htable
      · exact htable
    · exact htable
  split
  · rw [evt_grp]
    exact htaken
  · exact htaken

/-- The limp loader's request (R117). -/
theorem limpRequest_grp (s : State) : s.limpRequest.grp = s.grp :=
  abortSlice_frame s (fun ty _ => decide (ty = 2)) .groups (by decide)

/-- A change of the safe state (R240). -/
theorem setSafe_grp (s : State) (new : Nat) : (s.setSafe new).grp = s.grp := by
  unfold State.setSafe
  extract_lets old _ moved released told _ _ lit
  have hreleased : released.grp = s.grp := by
    unfold released State.vfbRelease
    split <;> rfl
  have htold : told.grp = s.grp := Eq.trans (evt_grp released _ _ _ _ _ _ _) hreleased
  clear_value told
  have hlit : lit.grp = s.grp := by
    unfold lit
    split <;> exact htold
  clear_value lit
  split
  · rfl
  · split
    · exact hlit
    · split
      · have rest (u : State) : u.clearFreeze.delayFreeze.forceVfb.grp = u.grp := by
          simp only [State.forceVfb, State.delayFreeze, State.clearFreeze]
        exact (rest _).trans ((limpRequest_grp lit).trans hlit)
      · split
        · have rest (u : State) : u.shutStrings.clearFreeze.grp = u.grp := by
            simp only [State.clearFreeze, State.shutStrings]
          exact (rest _).trans ((setDacs_grp lit .off).trans hlit)
        · exact hlit

/-- A cause that is added (R240). -/
theorem addCause_grp (s : State) (b : Nat) : (s.addCause b).grp = s.grp := by
  unfold State.addCause
  extract_lets latched _ caused settled
  have hlatched : latched.grp = s.grp := by
    unfold latched
    split <;> rfl
  have hsettled : settled.grp = s.grp := by
    unfold settled State.cancelReturn
    split <;> exact hlatched
  clear_value settled
  split
  · exact hlatched
  · split
    · exact (setSafe_grp settled _).trans hsettled
    · exact hsettled

/-- The causes held during a negotiation (R333). -/
theorem releaseHeld_grp (s : State) : s.releaseHeld.grp = s.grp := by
  unfold State.releaseHeld
  exact foldl_grp addCause_grp _ _

/-- The copy of the image (R17). -/
theorem copyImage_grp (s : State) : s.copyImage.grp = s.grp := by
  have hverified (k : Nat) : (s.verifySlot k).1.grp = s.grp := by
    unfold State.verifySlot
    exact (readSpan_grp _ 7 _ _).trans (grp_of_frame (abortSlice_frame s _) (by decide))
  unfold State.copyImage
  extract_lets verified written
  have hwritten : written.grp = s.grp := Eq.trans (wholeWritten_grp verified.1 _) (hverified _)
  clear_value written
  exact hwritten

/-- A tile's gains and trims (R258). -/
theorem fillTile_grp (s : State) (c t : Nat) : (s.fillTile c t).grp = s.grp := by
  unfold State.fillTile
  extract_lets trims
  exact foldl_grp (fun u r => by rw [setSram_grp, setSram_grp]) _ s

/-- The status map from a copy's map record (R235). -/
theorem fillMap_grp (s : State) (c : Nat) : (s.fillMap c).grp = s.grp := by
  have hentry (u : State) (x y e : Nat) : (u.setMapAt x y e).grp = u.grp := by
    unfold State.setMapAt
    exact setSram_grp _ _ _
  unfold State.fillMap
  exact foldl_grp (fun u _ => hentry u _ _ _) _ s

/-- The working values from the active copy of the calibration (R258). -/
theorem fillFrom_grp (s : State) (c : Nat) : (s.fillFrom c).grp = s.grp := by
  unfold State.fillFrom
  extract_lets tiles gains mapped
  have htiles : tiles.grp = s.grp :=
    foldl_grp (fun u t => by rw [State.setBoth, setShadow_grp, setLive_grp, fillTile_grp]) _ s
  have hgains : gains.grp = tiles.grp := foldl_grp (fun u _ => setLive_grp u _ _) _ tiles
  clear_value gains
  have hmapped : mapped.grp = gains.grp := by
    unfold mapped
    rw [fillMap_grp, setLive_grp]
  exact hmapped.trans (hgains.trans htiles)

/-- The choice of a copy of the calibration (R257). -/
theorem takeImage_grp (s : State) : s.takeImage.grp = s.grp := by
  unfold State.takeImage
  extract_lets read c gen other newer _ chosen filled
  have hread : read.grp = s.grp := readSpan_grp s 7 _ _
  clear_value read c
  have hfilled : filled.grp = s.grp := by
    unfold filled
    split
    · exact (fillFrom_grp chosen _).trans hread
    · exact hread
  clear_value filled
  rw [evt_grp]
  exact hfilled

/-- A scene's slot that is read. -/
theorem sceneCheck_grp (s : State) (base : Nat) (e : SceneEntry) : (s.sceneCheck base e).1.grp = s.grp := by
  unfold State.sceneCheck
  exact readSpan_grp s 7 base _

/-- A scene that is copied (R100). -/
theorem sceneCopy_grp (s : State) (n base : Nat) : (s.sceneCopy n base).grp = s.grp := by
  unfold State.sceneCopy
  exact setSram_grp _ _ _

/-- A scene that is not valid (R119). -/
theorem sceneInvalid_grp (s : State) (n slot crc : Nat) (e : SceneEntry) : (s.sceneInvalid n slot crc e).grp = s.grp := by
  unfold State.sceneInvalid
  exact evt_grp _ _ _ _ _ _ _ _

/-- One of scenes 1 to 15 (R100). -/
theorem loadScene_grp (s : State) (n : Nat) : (s.loadScene n).grp = s.grp := by
  unfold State.loadScene
  extract_lets e base checked invalid
  have hchecked : checked.1.grp = s.grp := sceneCheck_grp s base e
  clear_value checked
  split
  · exact (sceneCopy_grp _ _ _).trans hchecked
  · exact (sceneInvalid_grp checked.1 n 2 _ e).trans hchecked

/-- What MRAM keeps is written. -/
theorem setNvm_grp (s : State) (x : Nvm) : ({ s with nvm := x } : State).grp = s.grp := rfl

/-- Scene 0, from either of its slots (R100). -/
theorem loadSceneZero_grp (s : State) : s.loadSceneZero.grp = s.grp := by
  unfold State.loadSceneZero
  extract_lets one first second
  have hone (t : State) (q : Bool) : (one t q).1.grp = t.grp := by
    unfold one
    extract_lets e base checked copied
    have hchecked : checked.1.grp = t.grp := sceneCheck_grp t base e
    have hcopied : copied.grp = checked.1.grp := sceneCopy_grp checked.1 0 base
    clear_value checked copied
    split
    · exact Eq.trans (setNvm_grp copied _) (hcopied.trans hchecked)
    · exact (sceneInvalid_grp checked.1 0 _ _ e).trans hchecked
  clear_value one
  have hfirst : first.1.grp = s.grp := hone s _
  have hsecond : second.1.grp = s.grp := (hone first.1 _).trans hfirst
  clear_value first second
  split
  · exact hfirst
  · split <;> exact hsecond

/-- Every scene (R100). -/
theorem loadScenes_grp (s : State) : s.loadScenes.grp = s.grp := by
  unfold State.loadScenes
  exact (foldl_grp (fun u n => loadScene_grp u (n + 1)) _ _).trans (loadSceneZero_grp s)

/-- Cairn's scan (R349). -/
theorem journalScan_grp (s : State) : s.journalScan.grp = s.grp := by
  unfold State.journalScan
  exact readSpan_grp s 7 _ _

/-- Start-up (R31 steps 4 and 5). -/
theorem startUp_grp (s : State) : s.startUp.grp = s.grp := by
  unfold State.startUp
  extract_lets filled
  have hfilled : filled.grp = s.grp := calc
    filled.grp = s.takeImage.loadScenes.journalScan.grp := setDacs_grp _ .full
    _ = s.takeImage.loadScenes.grp := journalScan_grp _
    _ = s.takeImage.grp := loadScenes_grp _
    _ = s.grp := takeImage_grp s
  clear_value filled
  exact hfilled

/-- The logic starts with the node address and the groups that are stored (R364). -/
theorem logicReady_grp (s : State) :
    s.logicReady.grp = { s.grp with node := s.nvm.node.getD 16383, groups := s.nvm.groups } := by
  unfold State.logicReady
  extract_lets _ _ _ booted copied
  have hcopied : copied.grp = booted.grp := calc
    copied.grp = booted.upEvents.thermStart.releaseHeld.grp := copyImage_grp _
    _ = booted.upEvents.thermStart.grp := releaseHeld_grp _
    _ = booted.upEvents.grp := thermStart_grp _
    _ = booted.grp := upEvents_grp booted
  clear_value copied
  split
  · exact hcopied
  · exact (startUp_grp copied).trans hcopied

/-! ### What the two commands change -/

/-- The lines of records take a write after step 6 as before. -/
theorem authOf_confTakes (op : Nat) (p : Pkt) (s : State) (l : List Nat) :
    (authOf op p s).confTakes l = s.confTakes l := by
  have herrs : (authOf op p s).mem.errs = s.mem.errs := memK (authenticate_frame s op p) (by decide)
  unfold State.confTakes State.meets
  rw [herrs]

/-- A store that its packet asks for keeps the address and the memberships. -/
theorem storedIf_groupsKept (s : State) (b : Bool) (k : Nat) : GroupsKept s (s.storedIf b k) := by
  unfold State.storedIf
  split
  · exact groupsKept_lineRel.storeConf s [k]
  · exact groupsKept_lineRel.refl s

/-- A journaled command that completes has its own effect alone on the address and the memberships. -/
theorem exec_journaled_groups {c : Instr} {op : Nat} {p q : Pkt} {s : State} {b : Bool}
    {eff : State → State × List Word} (h : exec c s = .next ((authOf op p s).journaled op q b eff)) :
    ∃ e t, exec c s = .next t ∧ GroupsKept s e ∧ GroupsKept (eff e).1 t :=
  ⟨_, _, h, entered_groupsKept op p q s b, groupsKept_lineRel.journaled (fun _ => trivial) _ op q b eff⟩

/-- A NODE_SET that passes its checks takes the address, and what is stored with STORE. -/
theorem exec_nodeSet_stored {p : Pkt} {s : State}
    (hmeant : serialMeant (nodeSerial p (if p.timed then 24 else 16)) = true)
    (hp : passes 0x0E01 nodeSetDef p s = true) (htakes : s.confTakes [0] = true) :
    ∃ e t, exec (.nodeSet p) s = .next t ∧ GroupsKept s e ∧ GroupsKept (nodeStored (ownOf 0x0E01 p s) e) t := by
  obtain ⟨complete, -⟩ := groupCommandsComplete s p
  exact exec_journaled_groups (complete hmeant hp rfl ((authOf_confTakes _ p s _).trans htakes))

/-- A GROUP_SET that passes its checks takes the memberships, and what is stored with STORE. -/
theorem exec_groupSet_stored {p : Pkt} {s : State} (hp : passes 0x0E02 groupSetDef p s = true)
    (htakes : s.confTakes [1] = true) :
    ∃ e t, exec (.groupSet p) s = .next t ∧ GroupsKept s e ∧ GroupsKept (groupsStored (ownOf 0x0E02 p s) e) t := by
  obtain ⟨-, -, -, complete, -⟩ := groupCommandsComplete s p
  exact exec_journaled_groups (complete hp rfl ((authOf_confTakes _ p s _).trans htakes))

/-- A membership after a GROUP_SET is the value's where the mask names it, and else as it was (R365). -/
theorem bitOf_groupsAfter (old : BitVec 64) (mask value : Nat) {n : Nat} (hn : n < 64) :
    bitOf (groupsAfter old (BitVec.ofNat 64 mask) (BitVec.ofNat 64 value)).toNat n
      = if bitOf mask n then bitOf value n else bitOf old.toNat n := by
  simp only [bitOf_eq_testBit, groupsAfter, BitVec.testBit_toNat, BitVec.getLsbD_or, BitVec.getLsbD_and,
    BitVec.getLsbD_not, BitVec.getLsbD_ofNat, hn, decide_true, Bool.true_and]
  cases mask.testBit n <;> simp

/-- Settles O25: the logic starts with what is stored, and the effect of each command alone changes it. -/
theorem nodeAndGroups : Obligations.NodeAndGroups := by
  refine ⟨fun s => ?start, rfl, rfl, fun p s hmeant hp htakes => ?node, fun p s hp htakes => ?groups⟩
  case start =>
    rw [logicReady_grp]
    exact ⟨rfl, rfl⟩
  case node =>
    obtain ⟨e, t, he, hse, hgrp, hnode, hgroups⟩ := exec_nodeSet_stored hmeant hp htakes
    obtain ⟨wgrp, wnode, wgroups⟩ := hse.trans (storedIf_groupsKept e (bitOf ((ownOf 0x0E01 p s).u16 26) 0) 0)
    refine ⟨t, he, ?_⟩
    rw [hgrp, hnode, hgroups]
    simp only [nodeStored, wgrp, wnode, wgroups, and_self]
  case groups =>
    obtain ⟨e, t, he, hse, hgrp, hnode, hgroups⟩ := exec_groupSet_stored hp htakes
    obtain ⟨wgrp, wnode, wgroups⟩ := hse.trans (storedIf_groupsKept e (bitOf ((ownOf 0x0E02 p s).u32 32) 0) 1)
    refine ⟨t, he, ?_⟩
    rw [hgrp, hnode, hgroups]
    simp only [groupsStored, wgrp, wnode, wgroups, true_and, and_true]
    exact fun n hn => bitOf_groupsAfter _ _ _ hn

end Sys2Proof.Machine
end

section
/-! PROOFS. The block takes a command from its queue and runs it, and no command stops it (01_architecture.md). -/

namespace Sys2Proof.Machine

/-- Every command answers a next state: none of them ends in a fault or a refusal. -/
theorem exec_next (c : Instr) (s : State) : ∃ t, exec c s = .next t := by
  cases c
  case passComplete dt t ups =>
    show ∃ v, execPassComplete dt t ups s = .next v
    unfold execPassComplete
    dsimp only
    split <;> exact ⟨_, rfl⟩
  all_goals exact ⟨_, rfl⟩

/-- An empty queue idles (logs 9 and 13). -/
theorem step_idle {s : State} (h : s.pending = []) : step s = .next s := by
  unfold step
  rw [h]

/-- Settles O1: a queue that is not empty gives its front to `exec`. -/
theorem stepRunsFront : Obligations.StepRunsFront := fun _ _ _ => rfl

/-- Settles O2: no word spells a command, and a step idles or runs one, each of which answers. -/
theorem nothingStopsTheBlock : Obligations.NothingStopsTheBlock := by
  refine ⟨fun _ => step_idle, fun _ _ _ => ⟨rfl, rfl⟩, exec_next, fun s => ?_⟩
  cases hq : s.pending with
  | nil => exact ⟨s, step_idle hq⟩
  | cons c rest =>
    obtain ⟨t, ht⟩ := exec_next c { s with pending := rest }
    refine ⟨t, ?_⟩
    unfold step
    rw [hq]
    exact ht

end Sys2Proof.Machine
end

section
/-! PROOFS. Commands that act once their replies have gone (R413) complete: RESET (02_command_model.md, R352) and the
link commands (07_plokam_link.md opcodes). -/

namespace Sys2Proof.Machine

/-- A journaled command that acts once its reply has gone: what it leaves before the reply, then that act. -/
theorem execute_journaled_then {op : Nat} {d : OpDef} {q : Pkt} {u : State} {b : Bool}
    {eff : State → State × List Word} {after : State → State} (hb : b = (decide (d.jnl q = 2) || q.durable))
    (hj : d.jnl q = 1 ∨ d.jnl q = 2) (hr : let e := u.entered op q b
      d.run e.2 q e.1 = { okOut (eff e.1).1 (eff e.1).2 with post := after }) :
    u.execute op d q q.params false = after (u.journaled op q b eff) := by
  have hdur : b = (decide (d.jnl q = 2) || (decide (d.jnl q = 1) && q.durable)) := by
    cases hj with
    | inl h => simp [hb, h]
    | inr h => simp [hb, h]
  have h0 : d.jnl q ≠ 0 := by omega
  have h3 : d.jnl q ≠ 3 := by omega
  simp only [State.entered] at hr
  simp only [State.execute, ← hdur, h0, h3, if_false, hr, okOut, or_self]
  rfl

/-- A byte that a row fixes at the start of the parameters is what it fixes, in a packet that has parameters. -/
theorem ownOf_fix_first {op : Nat} {v : Byte} {p : Pkt} {s : State} (ht : p.timed = false)
    (h : 0 < (ownOf op (p.fix 16 v) s).plen) : (ownOf op (p.fix 16 v) s).u8 16 = v.toNat :=
  ownOf_fix ht (by unfold Pkt.plen at h; omega)

/-- The level that a RESET's row fixes. -/
theorem reset_level {p : Pkt} {s : State} {v : Byte} (hp : passes 0x0003 resetDef (p.fix 16 v) s = true) :
    (ownOf 0x0003 (p.fix 16 v) s).u8 16 = v.toNat := by
  have hlen : (ownOf 0x0003 (p.fix 16 v) s).plen = 2 := of_decide_eq_true (passes_len hp :)
  exact ownOf_fix_first (passes_timed hp :) (by omega)

section
variable {q : Pkt}

/-- Level 0 restarts the sequencer. -/
theorem resetAfter_restart (h : q.u8 16 = 0) (v : State) : resetAfter q v = v.restartDue 0 := by
  simp [resetAfter, resetEffect, h]

/-- Level 1 is a pipeline soft reset. -/
theorem resetAfter_soft (h : q.u8 16 = 1) (v : State) : resetAfter q v = v.seqRestart 1 0 := by
  simp [resetAfter, resetEffect, h]

/-- Level 2 is a full reset, once the reply has left on the link (log 14). -/
theorem resetAfter_full (h : q.u8 16 = 2) (v : State) :
    resetAfter q v = (v.replyLeaves q .a).fullReset .regulator 0 2 := by
  simp [resetAfter, resetEffect, h]

end

/-- RESET replies, its entry durable, and then acts. -/
theorem reset_execute (q : Pkt) (u : State) :
    u.execute 0x0003 resetDef q q.params false = resetAfter q (u.journaled 0x0003 q true fun v => (v, [])) :=
  execute_journaled_then rfl (.inr rfl) rfl

/-- Settles O30: RESET by the level that its row fixes. -/
theorem resetLevelsComplete : Obligations.ResetLevelsComplete := fun _ _ =>
  ⟨runs_own rfl fun hp u => (reset_execute _ u).trans (resetAfter_restart (reset_level hp) _),
   runs_own rfl fun hp u => (reset_execute _ u).trans (resetAfter_soft (reset_level hp) _),
   runs_own rfl fun hp u => (reset_execute _ u).trans (resetAfter_full (reset_level hp) _)⟩

/-- Settles O45: the two that read, and the two that act once their reply has gone. -/
theorem linkCommandsComplete : Obligations.LinkCommandsComplete := fun _ _ =>
  ⟨runs_execute rfl fun _ _ => execute_answers rfl fun _ => rfl,
   runs_execute rfl fun q _ => execute_journaled_then
     (after := fun v => (v.replyLeaves q (laneOf (q.u8 16))).linkRetrain (laneOf (q.u8 16)) (q.u8 17))
     rfl (.inl rfl) rfl,
   runs_execute rfl fun q _ => execute_journaled_then
     (after := fun v => (v.replyLeaves q .a).laneMode (q.u8 16)) rfl (.inl rfl) rfl,
   runs_execute rfl fun _ _ => execute_answers rfl fun _ => rfl⟩

end Sys2Proof.Machine
end

section
/-! PROOFS. The journal commands complete (16_journal_recovery_firmware.md JRNL_READ, JRNL_MARK, STATE_DIGEST). -/

namespace Sys2Proof.Machine

section
variable {j : Word} {q : Pkt} {u : State}

/-- JRNL_READ from an entry on, and what of it is lost. -/
theorem jrnlRead_run_entries (h : u.jPast (w32 (q.u32 16)) = false) :
    let f := u.jFrom (w32 (q.u32 16))
    let r := u.jScan 16400 (q.u16 20) f.1
    jrnlReadDef.run j q u = okOut (if r.2.2.1 = 0 then r.1 else r.1.bump pJrnlLost r.2.2.1)
      ([w32 (u.prmRead pJrnlNewest), r.2.2.2, w32 (r.2.1.length + 65536 * b2n f.2)] ++ r.2.1.flatMap wordsOf) :=
  if_neg (ne_true_of_eq_false h)

/-- JRNL_READ from past the newest entry (log 29). -/
theorem jrnlRead_run_past (h : u.jPast (w32 (q.u32 16)) = true) :
    jrnlReadDef.run j q u = okOut u.freeW.1 [w32 (u.prmRead pJrnlNewest), u.freeW.2, 0] := if_pos h

/-- JRNL_MARK makes an entry of its own, and no kind-0 entry stands beside it (R344). -/
theorem jrnlMark_execute (q : Pkt) (u : State) : u.execute 0x0C02 jrnlMarkDef q q.params false =
    (let x := u.jAdd (markEntry q) q.durable
     (if q.durable then x.1.jDurable x.2 else x.1).reply 0x0C02 q stOk 1 1 x.2 [] false true) := rfl

/-- STATE_DIGEST where every line of its ranges can be read. -/
theorem stateDigest_run (h : (u.readSpan 4 0x800000 0x180000).2.isEmpty = true) :
    let r := u.readSpan 4 0x800000 0x180000
    stateDigestDef.run j q u = okOut r.1 (digestWords r.1 (q.u8 16)) := if_neg (by simp [h])

end

/-- Settles O42: JRNL_READ by where it starts, the mark of JRNL_MARK, and the digest of lines that can be read. -/
theorem journalCommandsComplete : Obligations.JournalCommandsComplete := fun _ _ =>
  ⟨runsWhen_execute rfl fun _ _ h => execute_answers rfl fun _ => jrnlRead_run_entries (by simpa using h),
   runsWhen_execute rfl fun _ _ h => execute_answers rfl fun _ => jrnlRead_run_past h,
   runs_execute rfl jrnlMark_execute,
   runsWhen_execute rfl fun _ _ h => execute_answers rfl fun _ => stateDigest_run h⟩

end Sys2Proof.Machine
end

section
/-! PROOFS. The rows of the strings and of Crest (09_strings_crest.md), of temperature (14_thermal.md) and of the
self-tests (13_self_test.md). -/

namespace Sys2Proof.Machine

/-- Settles O54: each row's own arm, under its premise. -/
theorem stringEventsComplete : Obligations.StringEventsComplete := fun _ _ =>
  ⟨fun _ => after_running rfl, fun _ _ => after_if rfl fun h => by simpa [and_assoc] using h, after_always rfl⟩

/-- A thermal update with its twenty readings and sixteen voltages acts while the monitors run. -/
theorem exec_thermalUpdate {r : List Int} {v : List Nat} (hr : r.length = 20) (hv : v.length = 16) (dt : Nat)
    (s : State) : exec (.thermalUpdate dt r v) s
      = .next (if (s.elapse dt).monitors then (s.elapse dt).thermalUpdate r v else s.elapse dt) := by
  show execThermalUpdate dt r v s = _
  simp only [execThermalUpdate, hr, hv, and_true]

/-- The factory correction while the monitors run: by its tables, or towards 0 where they fail their check (R316). -/
theorem exec_factoryCorrection {dt : Nat} {s : State} (hm : (s.elapse dt).monitors = true) :
    exec (.factoryCorrection dt) s = .next (let u := s.elapse dt
      { u with thm := { u.thm with
        bandgap := clampI (u.thm.bandgap - 1) (u.thm.bandgap + 1)
          (if u.thm.factoryBad then 0 else tableAt Config.bandgapTable u.coreTemp)
        sleepPpm := if u.thm.factoryBad then 0 else tableAt Config.sleepTimerTable u.coreTemp } }) :=
  congrArg _ (if_neg (by simp [hm]))

/-- Settles O55: each row's own arm, under its premise, and the factory correction by the check of its tables. -/
theorem thermalEventsComplete : Obligations.ThermalEventsComplete := by
  intro s dt
  refine ⟨fun a b => after_unless rfl ?inputs, fun r v hr hv => after_if (exec_thermalUpdate hr hv dt s) id,
    after_if rfl ?cool, after_if rfl ?rises, fun h => ?good, fun h => ?bad⟩
  case inputs =>
    simp only [Bool.and_eq_true, decide_eq_true_eq]
    rintro ⟨⟨hm, ha⟩, hb⟩
    simp [hm, ha, hb]
  case cool => simp only [Bool.and_eq_true, decide_eq_true_eq, imp_self]
  case rises => simp only [Bool.and_eq_true, decide_eq_true_eq, and_assoc, imp_self]
  case good =>
    simp only [Bool.and_eq_true, Bool.not_eq_true'] at h
    obtain ⟨hm, hgood⟩ := h
    simp only [exec_factoryCorrection hm, hgood, Bool.false_eq_true, if_false]
  case bad =>
    obtain ⟨hm, hbad⟩ := Bool.and_eq_true_iff.mp h
    simp only [exec_factoryCorrection hm, hbad, if_true]

/-- A slice that runs ends with the results that its row gives. -/
theorem exec_sliceEnd {dt ty tg : Nat} {r : SegResult} {l : List SegResult} {s : State}
    (h : (s.elapse dt).bist.slice = some (ty, tg)) : exec (.sliceEnd dt (r :: l)) s
      = .next (let u := (s.elapse dt).sliceOver
        if ty = 4 then u.govEnds r (l.headD r) else u.segsEnd ty tg ((r :: l).take (max 1 (u.segsFit ty)))) := by
  show execSliceEnd dt (r :: l) s = _
  simp only [execSliceEnd, h]

/-- A bank that migrates is migrated. -/
theorem exec_bankMigrated {dt k : Nat} {s : State} (h : (s.elapse dt).bist.migrating = some k) :
    exec (.bankMigrated dt) s = .next ((s.elapse dt).migrated k) := by
  show execBankMigrated dt s = _
  simp only [execBankMigrated, h]

/-- Settles O57: each row's own arm, a slice's end by whether it is a budget engine's. -/
theorem selfTestEventsComplete : Obligations.SelfTestEventsComplete := by
  refine fun s dt => ⟨after_always rfl, fun ty tg r l h => ?segments, fun tg r l h => ?engines,
    fun k h => exec_bankMigrated (of_decide_eq_true h)⟩
  case segments =>
    simp only [Bool.and_eq_true, decide_eq_true_eq] at h
    rw [exec_sliceEnd h.1]
    exact congrArg _ (if_neg h.2)
  case engines =>
    rw [exec_sliceEnd (of_decide_eq_true h)]
    rfl

end Sys2Proof.Machine
end

section
/-! PROOFS. The firmware commands complete (16_journal_recovery_firmware.md FW_STAGE, FW_ACTIVATE, R356 to R358). -/

namespace Sys2Proof.Machine

/-! ### The slots, after a command's entry is made -/

section
variable (u : State) (op : Nat) (q : Pkt) (b : Bool)

/-- What MRAM keeps beside the journal stays. -/
theorem entered_stored : samePart u (u.entered op q b).1 .stored := entered_frame u op q b .stored (by decide)

/-- The states of the slots stay. -/
theorem entered_slotState (k : Nat) : (u.entered op q b).1.slotState k = u.slotState k :=
  (congrArg (fun n : Nvm => if k = 0 then n.slotA else n.slotB) (entered_stored u op q b) :)

/-- The slot that can be staged stays. -/
theorem entered_stageSlot : (u.entered op q b).1.stageSlot = u.stageSlot := by
  simp only [State.stageSlot, entered_slotState]

/-- The slot in a state stays. -/
theorem entered_slotIn (x : SlotState) : (u.entered op q b).1.slotIn x = u.slotIn x := by
  simp only [State.slotIn, entered_slotState]

/-- The header being staged stays. -/
theorem entered_stageHdr : (u.entered op q b).1.nvm.stageHdr = u.nvm.stageHdr :=
  (congrArg Nvm.stageHdr (entered_stored u op q b) :)

/-- FW_FLOOR stays. -/
theorem entered_floor : (u.entered op q b).1.nvm.floor = u.nvm.floor :=
  (congrArg Nvm.floor (entered_stored u op q b) :)

end

/-! ### What the rows fix -/

/-- A FW_STAGE of its layout has parameters. -/
theorem fwStage_plen {q : Pkt} (h : fwStageDef.len q = true) : 0 < q.plen := by
  simp only [fwStageDef] at h
  split at h <;> have hlen := of_decide_eq_true h <;> omega

/-- The OP that a FW_STAGE's row fixes. -/
theorem fwStage_op {p : Pkt} {s : State} {v : Byte} (hp : passes 0x0C04 fwStageDef (p.fix 16 v) s = true) :
    stageOp (ownOf 0x0C04 (p.fix 16 v) s) = v.toNat :=
  ownOf_fix_first (passes_timed hp :) (fwStage_plen (passes_len hp))

/-- Bit 0 of a word is bit 0 of its first byte. -/
theorem bitOf_u32_zero (q : Pkt) (off : Nat) : bitOf (q.u32 off) 0 = bitOf (q.u8 off) 0 := by
  have hmod : q.u32 off % 2 = q.u8 off % 2 := by
    unfold Pkt.u32 Pkt.u16
    omega
  simp only [bitOf, Nat.pow_zero, Nat.div_one, hmod]

/-- Bit 0 of a byte that is written with it set or clear. -/
theorem bitOf_putBit_zero (n : Nat) (b : Bool) :
    bitOf (BitVec.ofNat 8 (if b then setBit n 0 else clrBit n 0)).toNat 0 = b := by
  have hset : setBit n 0 % 2 = 1 := by
    simp only [setBit, bitOf, Nat.pow_zero, Nat.div_one, decide_eq_true_eq]
    split <;> omega
  have hclr : clrBit n 0 % 2 = 0 := by
    simp only [clrBit, bitOf, Nat.pow_zero, Nat.div_one, decide_eq_true_eq]
    split <;> omega
  cases b <;> simp [bitOf, hset, hclr]

/-- The CONFIRM that a FW_ACTIVATE's row fixes. -/
theorem fwActivate_confirm {p : Pkt} {s : State} {b : Bool}
    (hp : passes 0x0C05 fwActivateDef (p.fixBit 16 b) s = true) :
    bitOf ((ownOf 0x0C05 (p.fixBit 16 b) s).u32 16) 0 = b := by
  have hlen : (ownOf 0x0C05 (p.fixBit 16 b) s).plen = 1 := of_decide_eq_true (passes_len hp :)
  have hbyte := ownOf_fix_first (p := p) (passes_timed hp :) (hlen ▸ Nat.one_pos)
  rw [bitOf_u32_zero]
  exact (congrArg (bitOf · 0) hbyte).trans (bitOf_putBit_zero _ b)

/-! ### What the commands do -/

section
variable {j : Word} {q : Pkt} {v : State} {k : Nat} {h : List Byte}

/-- BEGIN goes on in the slot that can be staged. -/
theorem fwStage_run_begin (hop : stageOp q = 0) (hslot : v.stageSlot = some k) :
    fwStageDef.run j q v = stageBegin q k v := by
  simp only [fwStageDef, stageRun, hslot, hop]

/-- DATA goes on once a header is taken. -/
theorem fwStage_run_data (hop : stageOp q = 1) (hslot : v.stageSlot = some k) (hhdr : v.nvm.stageHdr.isSome = true) :
    fwStageDef.run j q v = stageData q k v := by
  obtain ⟨h, hh⟩ := Option.isSome_iff_exists.mp hhdr
  simp only [fwStageDef, stageRun, hslot, hop, hh]

/-- FINISH goes on with the header that was taken. -/
theorem fwStage_run_finish (hop : stageOp q = 2) (hslot : v.stageSlot = some k) (hhdr : v.nvm.stageHdr = some h) :
    fwStageDef.run j q v = stageFinish k h v := by
  simp only [fwStageDef, stageRun, hslot, hop, hhdr]

/-- QUERY answers. -/
theorem fwStage_run_query (hop : stageOp q = 3) : fwStageDef.run j q v = okOut v (stageWords v) := by
  show stageRun q v = _
  unfold stageRun
  rw [hop]
  cases v.stageSlot <;> rfl

/-- BEGIN takes a header that is signed and whose VERSION is at least FW_FLOOR. -/
theorem stageBegin_signed (hsigned : hdrSigned (q.bytes 28 256) = true)
    (hversion : v.nvm.floor.toNat ≤ hdrVersion (q.bytes 28 256)) :
    let w := v.setSlot k .staging
    let x := { w with nvm := { w.nvm with stageHdr := some (q.bytes 28 256), stageNext := 0 } }
    stageBegin q k v = okOut x (stageWords x) := if_neg (by simp [hsigned, hversion])

/-- BEGIN with another header fails its check. -/
theorem stageBegin_unsigned (hbad : ¬(hdrSigned (q.bytes 28 256) = true
      ∧ v.nvm.floor.toNat ≤ hdrVersion (q.bytes 28 256))) :
    stageBegin q k v = { s := v, status := stCheckFail, step := 0 } := if_pos (by
  cases hsigned : hdrSigned (q.bytes 28 256) with
  | false => exact .inl rfl
  | true => exact .inr (Nat.lt_of_not_le fun hversion => hbad ⟨hsigned, hversion⟩))

/-- DATA writes its bytes where the lines that it writes in part can be read and the writes verify. -/
theorem stageData_writes
    (hread : (v.readParts 7 (slotBase k + 256 + stageOff q) (q.bytes 28 (stageLen q)).length).2 = true)
    (hverify : (((v.readParts 7 (slotBase k + 256 + stageOff q) (q.bytes 28 (stageLen q)).length).1.abortMrams
      (linesOf (slotBase k + 256 + stageOff q) (q.bytes 28 (stageLen q)).length)).verifyLines
      (linesOf (slotBase k + 256 + stageOff q) (q.bytes 28 (stageLen q)).length)).2 = true) :
    let a := slotBase k + 256 + stageOff q
    let d := q.bytes 28 (stageLen q)
    let l := linesOf a d.length
    let w := (((v.readParts 7 a d.length).1.abortMrams l).verifyLines l).1.writeMram a d
    let x := if stageOff q = w.nvm.stageNext then
      { w with nvm := { w.nvm with stageNext := stageOff q + stageLen q } } else w
    stageData q k v = okOut x (stageWords x) :=
  (if_neg (by simp [hread])).trans (if_neg (by simp [hverify]))

/-- FINISH makes a slot STAGED whose lines can be read, whose digest agrees and whose header's writes verify. -/
theorem stageFinish_stages (hread : (finishReads k h v).2.isEmpty = true)
    (hdigest : sha256 ((finishReads k h v).1.mramBytes (slotBase k + 256) (hdrLength h)) = (h.drop 16).take 32)
    (hverify : ((finishReads k h v).1.verifyLines (linesOf (slotBase k) 256)).2 = true) :
    let w := (((finishReads k h v).1.verifyLines (linesOf (slotBase k) 256)).1.writeMram (slotBase k) h).setSlot k
      .staged
    let x := { w with nvm := { w.nvm with stageHdr := none } }
    stageFinish k h v = okOut x (stageWords x) := by
  have hgood : ¬((!(finishReads k h v).2.isEmpty) = true
      ∨ sha256 ((finishReads k h v).1.mramBytes (slotBase k + 256) (hdrLength h)) ≠ (h.drop 16).take 32) := by
    simp [hread, hdigest]
  have hwritten : ¬(!((finishReads k h v).1.verifyLines (linesOf (slotBase k) 256)).2) = true := by simp [hverify]
  exact (if_neg hgood).trans (if_neg hwritten)

/-- FW_ACTIVATE of a valid STAGED slot goes on as a job. -/
theorem fwActivate_run (hbit : bitOf (q.u32 16) 0 = false) (hslot : v.slotIn .staged = some k)
    (hvalid : (v.verifySlot k).2 = true) : fwActivateDef.run j q v
      = (v.verifySlot k).1.startJob (.fwActivate (bitOf (q.u32 16) 1)) 0x0C05 q j 1 := by
  simp only [fwActivateDef, hbit, hslot, hvalid, Bool.false_eq_true, if_false, if_true]

/-- FW_ACTIVATE with CONFIRM makes the TRIAL slot ACTIVE. -/
theorem fwConfirm_run (hbit : bitOf (q.u32 16) 0 = true) (hslot : v.slotIn .trial = some k) :
    fwActivateDef.run j q v = okOut (v.makeActive k) [] := by
  simp only [fwActivateDef, hbit, hslot, if_true]

end

/-- Settles O43: FW_STAGE by the OP that its row fixes, BEGIN by its header, and FW_ACTIVATE by CONFIRM. -/
theorem firmwareCommandsComplete : Obligations.FirmwareCommandsComplete := by
  refine fun s p k h => ⟨runsWhen_own rfl fun hp u hw => ?begins, runsWhen_own rfl fun hp u hw => ?data,
    runsWhen_own rfl fun hp u hw => ?finish,
    runs_own rfl fun hp u => execute_requested rfl (fwStage_run_query (fwStage_op hp)),
    runsWhen_own rfl fun hp u hw => ?activate, runsWhen_own rfl fun hp u hw => ?confirm⟩
  all_goals simp only [Bool.and_eq_true, decide_eq_true_eq] at hw
  case begins =>
    have hrun (j : Word) (q : Pkt) (hop : stageOp q = 0) :
        fwStageDef.run j q (u.entered 0x0C04 q q.durable).1 = stageBegin q k (u.entered 0x0C04 q q.durable).1 :=
      fwStage_run_begin hop ((entered_stageSlot u _ _ _).trans hw)
    have hop := fwStage_op hp
    dsimp only
    split
    · next hsigned =>
      exact execute_requested rfl ((hrun _ _ hop).trans
        (stageBegin_signed hsigned.1 (by rw [entered_floor]; exact hsigned.2)))
    · next hunsigned =>
      exact execute_failed rfl (.inl rfl) (by decide) ((hrun _ _ hop).trans
        (stageBegin_unsigned (by rw [entered_floor]; exact hunsigned)))
  case data =>
    obtain ⟨⟨⟨hslot, hhdr⟩, hread⟩, hverify⟩ := hw
    exact execute_requested rfl ((fwStage_run_data (fwStage_op hp) ((entered_stageSlot u _ _ _).trans hslot)
      (by rwa [entered_stageHdr])).trans (stageData_writes hread hverify))
  case finish =>
    obtain ⟨⟨⟨⟨hslot, hhdr⟩, hread⟩, hdigest⟩, hverify⟩ := hw
    exact execute_requested rfl ((fwStage_run_finish (fwStage_op hp) ((entered_stageSlot u _ _ _).trans hslot)
      ((entered_stageHdr u _ _ _).trans hhdr)).trans (stageFinish_stages hread hdigest hverify))
  case activate =>
    obtain ⟨hslot, hvalid⟩ := hw
    exact execute_begun rfl (.inr rfl)
      (fwActivate_run (fwActivate_confirm hp) ((entered_slotIn u _ _ _ _).trans hslot) hvalid)
  case confirm =>
    exact execute_durable rfl (fwConfirm_run (fwActivate_confirm hp) ((entered_slotIn u _ _ _ _).trans hw))

end Sys2Proof.Machine
end

section
/-! PROOFS. The rows of Talus, of the repair queue, of lines written, of class-0 windows and of the check-value units
(12_memory_integrity.md, 16_journal_recovery_firmware.md R347). -/

namespace Sys2Proof.Machine

/-- Talus reads a line of MRAM, or one of SRAM, while that scrub is enabled. -/
theorem exec_talusRead {dt : Nat} {mram : Bool} {o : LineRead} {s : State} (ht : (s.elapse dt).talusOn = true) :
    exec (.talusRead dt mram o) s
      = .next (let u := s.elapse dt
        if mram then (if u.flag pScrubCtrl 1 then u.talusMram o else u)
        else if u.flag pScrubCtrl 0 then u.talusSram o else u) :=
  congrArg _ (if_neg (by simp [ht]))

/-- A class-0 window that is over is closed. -/
theorem exec_windowClose {dt : Nat} {p : Port} {r : Fin 8} {w : Window} {s : State}
    (hw : ((s.elapse dt).jrn.windows.find? fun x => decide (x.port = p) && decide (x.ring = r.val)) = some w)
    (ho : (s.elapse dt).windowOver w = true) :
    exec (.coalesceWindowClose dt p r) s = .next ((s.elapse dt).closeWindow w) := by
  show execCoalesceWindowClose dt p r s = _
  simp only [execCoalesceWindowClose, hw, ho, if_true]

/-- A journal line that is not inhibited is written. -/
theorem exec_journalLineWrite {dt : Nat} {b : Bool} {s : State} (h : (s.elapse dt).thm.jInhibit = false) :
    exec (.journalLineWrite dt b) s = .next ((s.elapse dt).journalWritten b).negoTick :=
  congrArg (fun u : State => Host.Outcome.next u.negoTick) (if_neg (by simpa using h))

/-- Settles O56: each row's own arm, under its premise. -/
theorem memoryEventsComplete : Obligations.MemoryEventsComplete := by
  refine fun s dt => ⟨fun o h => ?mram, fun o h => ?sram, fun b => after_if rfl id, fun b => after_always rfl,
    fun b h => exec_journalLineWrite (by simpa using h), fun p r w h => ?window, fun k ups => after_always rfl⟩
  case mram =>
    obtain ⟨ht, hf⟩ := Bool.and_eq_true_iff.mp h
    rw [exec_talusRead ht]
    exact congrArg _ (if_pos hf)
  case sram =>
    obtain ⟨ht, hf⟩ := Bool.and_eq_true_iff.mp h
    rw [exec_talusRead ht]
    exact congrArg _ (if_pos hf)
  case window =>
    obtain ⟨hw, ho⟩ := Bool.and_eq_true_iff.mp h
    exact exec_windowClose (of_decide_eq_true hw) ho

end Sys2Proof.Machine
end

section
/-! PROOFS. The invariant (Safety.lean): the engine after reset meets it. -/

namespace Sys2Proof.Machine

/-- Settles O4: nothing is listed after reset. -/
theorem resetInv : Obligations.ResetInv where
  mem := reset_wf
  timed := Nat.zero_le _
  table := Nat.zero_le _
  lines := List.nodup_nil
  repair := Nat.zero_le _
  once := List.nodup_nil
  cache := Nat.zero_le _
  newest := nofun
  cached := nofun
  stored := nofun

end Sys2Proof.Machine
end

section
/-! PROOFS. The invariant (Safety.lean) as a law of the state: the parts that it speaks of, and the operations that
write them. In `Inv`, the lemma that a function of the model keeps the invariant has the function's name, so that
`h.evt.addCause` reads as the model's own chain; a function that gives no state has `_inv` behind its name. -/

namespace Sys2Proof.Machine

/-! ### Tables -/

/-- What is listed after an entry is put in is that entry, or was listed before. -/
theorem mem_tins {α : Type} {t : Tab α} {k : Nat} {v : α} {e : Nat × α} (h : e ∈ tins t k v) : e = (k, v) ∨ e ∈ t := by
  induction t with
  | nil => exact .inl (List.mem_singleton.mp h)
  | cons x r ih =>
    obtain ⟨i, w⟩ := x
    unfold tins at h
    split at h
    · exact List.mem_cons.mp h
    · split at h
      · exact (List.mem_cons.mp h).imp_right (List.mem_cons_of_mem _)
      · rcases List.mem_cons.mp h with rfl | h
        · exact .inr List.mem_cons_self
        · exact (ih h).imp_right (List.mem_cons_of_mem _)

/-- What is listed after an entry is dropped was listed before. -/
theorem mem_tdel {α : Type} {t : Tab α} {k : Nat} {e : Nat × α} (h : e ∈ tdel t k) : e ∈ t := by
  induction t with
  | nil => exact h
  | cons x r ih =>
    obtain ⟨i, w⟩ := x
    unfold tdel at h
    split at h
    · exact List.mem_cons_of_mem _ (ih h)
    · rcases List.mem_cons.mp h with rfl | h
      · exact List.mem_cons_self
      · exact List.mem_cons_of_mem _ (ih h)

/-- What is listed after a write is what was written, or was listed before. -/
theorem mem_tput {α : Type} [DecidableEq α] {d : Nat → α} {t : Tab α} {k : Nat} {v : α} {e : Nat × α}
    (h : e ∈ tput d t k v) : e = (k, v) ∨ e ∈ t := by
  unfold tput at h
  split at h
  · exact .inr (mem_tdel h)
  · exact mem_tins h

/-- What a table reads as and is not the default is listed. -/
theorem tget_mem {α : Type} {d : Nat → α} {t : Tab α} {k : Nat} (h : tget d t k ≠ d k) : (k, tget d t k) ∈ t := by
  induction t with
  | nil => exact absurd rfl h
  | cons x r ih =>
    obtain ⟨i, w⟩ := x
    unfold tget at h ⊢
    split
    · next hi => exact hi ▸ List.mem_cons_self
    · next hi =>
      rw [if_neg hi] at h
      exact List.mem_cons_of_mem _ (ih h)

/-! ### What keeps the invariant whatever is done -/

/-- What the invariant speaks of: the bytes of the two memories, the error table, the repair queue, the timed queue,
the journal's cache and its newest JSEQ, and the journal's lines in MRAM. -/
def State.told (s : State) : List Host.Cell × List Host.Cell × List ErrEntry × List Nat × List Timed × List JEntry
    × Option Word × Tab JEntry :=
  (s.mem.sram, s.mem.mram, s.mem.table, s.mem.repairQ, s.grp.queue, s.jrn.cache, s.jrn.newest, s.nvm.journal)

namespace Inv
variable {s t : State}

/-- It is kept where what it speaks of stays. -/
theorem same (h : Inv s) (e : t.told = s.told := by rfl) : Inv t := by
  simp only [State.told, Prod.mk.injEq] at e
  obtain ⟨hsram, hmram, htable, hrepair, htimed, hcache, hnewest, hstored⟩ := e
  exact {
    mem := wf_of_bytes ⟨hsram, hmram⟩ h.mem
    timed := htimed ▸ h.timed
    table := htable ▸ h.table
    lines := htable ▸ h.lines
    repair := hrepair ▸ h.repair
    once := hrepair ▸ h.once
    cache := hcache ▸ h.cache
    newest := hnewest ▸ h.newest
    cached := hcache ▸ h.cached
    stored := hstored ▸ h.stored }

/-- It says nothing of the other parts. -/
theorem parts {pending clk free jtag boundary tapHold cmd prm pix comp shd sad link frm str diag cal bist thm pwr fw}
    (h : Inv s) : Inv { s with
      pending, clk, free, jtag, boundary, tapHold, cmd, prm, pix, comp, shd, sad, link, frm, str, diag, cal, bist, thm,
      pwr, fw } :=
  h.same

/-- It says nothing of the rest of memory integrity, beside the other parts. -/
theorem memParts {pending clk free jtag boundary tapHold cmd prm pix comp shd sad link frm str diag cal bist thm pwr fw
    poison errs sramPos mramPos sramStart mramStart sramLap mramLap refreshed toRefresh cvu writes} (h : Inv s) :
    Inv { s with
      pending, clk, free, jtag, boundary, tapHold, cmd, prm, pix, comp, shd, sad, link, frm, str, diag, cal, bist, thm,
      pwr, fw
      mem := { s.mem with
        poison, errs, sramPos, mramPos, sramStart, mramStart, sramLap, mramLap, refreshed, toRefresh, cvu, writes } } :=
  h.same

/-- It says nothing of the rest of Cairn, beside the other parts. -/
theorem jrnParts {pending clk free jtag boundary tapHold cmd prm pix comp shd sad link frm str diag cal bist thm pwr fw
    lines windows slow restarts lastRestart holdTill restartCause resetLevel resetTime recover abortPower pipeBusy}
    (h : Inv s) : Inv { s with
      pending, clk, free, jtag, boundary, tapHold, cmd, prm, pix, comp, shd, sad, link, frm, str, diag, cal, bist, thm,
      pwr, fw
      jrn := { s.jrn with
        lines, windows, slow, restarts, lastRestart, holdTill, restartCause, resetLevel, resetTime, recover,
        abortPower, pipeBusy } } :=
  h.same

/-- It says nothing of what else MRAM stores, beside the other parts. -/
theorem nvmParts {pending clk free jtag boundary tapHold cmd prm pix comp shd sad link frm str diag cal bist thm pwr fw
    variant scenes sceneQ slotQ locked remap remapTwin spares bankMap bankTwin held spare bankBad unusable thermal ntc
    slotA slotB slotTwin stageHdr stageNext running floor require keys node groups lit charge stbyCount dormCount}
    (h : Inv s) : Inv { s with
      pending, clk, free, jtag, boundary, tapHold, cmd, prm, pix, comp, shd, sad, link, frm, str, diag, cal, bist, thm,
      pwr, fw
      nvm := { s.nvm with
        variant, scenes, sceneQ, slotQ, locked, remap, remapTwin, spares, bankMap, bankTwin, held, spare, bankBad,
        unusable, thermal, ntc, slotA, slotB, slotTwin, stageHdr, stageNext, running, floor, require, keys, node,
        groups, lit, charge, stbyCount, dormCount } } :=
  h.same

/-- Either of two states. -/
theorem ite {c : Prop} [Decidable c] (hs : Inv s) (ht : Inv t) : Inv (if c then s else t) := by
  split
  · exact hs
  · exact ht

/-- Either of two states that come with values. -/
theorem iteFst {α : Type} {c : Prop} [Decidable c] {x y : State × α} (hx : Inv x.1) (hy : Inv y.1) :
    Inv (if c then x else y).1 := by
  split
  · exact hx
  · exact hy

/-- A fold of steps that keep it. -/
theorem foldl {α : Type} {f : State → α → State} {l : List α} (hf : ∀ {u : State} (a : α), Inv u → Inv (f u a))
    (h : Inv s) : Inv (l.foldl f s) :=
  List.foldlRecOn _ _ h fun _ hu a _ => hf a hu

/-- A fold of steps that keep it and gather values. -/
theorem foldlFst {α β : Type} {f : State × β → α → State × β} {l : List α} {x : State × β}
    (hf : ∀ {y : State × β} (a : α), Inv y.1 → Inv (f y a).1) (h : Inv x.1) : Inv (l.foldl f x).1 :=
  List.foldlRecOn (motive := fun y : State × β => Inv y.1) _ _ h fun _ hy a _ => hf a hy

/-! ### The two memories (log 1) -/

theorem setSram {a : Nat} {l : List Byte} (h : Inv s) : Inv (s.setSram a l) :=
  { h with mem := setSram_wf s a l h.mem }

theorem setMram {a : Nat} {l : List Byte} (h : Inv s) : Inv (s.setMram a l) :=
  { h with mem := setMram_wf s a l h.mem }

/-! ### The error table and the repair queue (R278, R280) -/

/-- The error table is rewritten with one entry per line, within its size. -/
theorem setTable {m : Mem} (h : Inv s) (hb : m.sram = s.mem.sram ∧ m.mram = s.mem.mram) (hq : m.repairQ = s.mem.repairQ)
    (hl : m.table.length ≤ 32) (hn : (m.table.map fun e => e.addr).Nodup) : Inv { s with mem := m } :=
  { h with mem := wf_of_bytes hb h.mem, table := hl, lines := hn, repair := hq ▸ h.repair, once := hq ▸ h.once }

/-- Entries of the error table that change keep their lines. -/
theorem mapTable {m : Mem} {f : ErrEntry → ErrEntry} (h : Inv s) (hf : ∀ e, (f e).addr = e.addr)
    (ht : m.table = s.mem.table.map f) (hb : m.sram = s.mem.sram ∧ m.mram = s.mem.mram := by exact ⟨rfl, rfl⟩)
    (hq : m.repairQ = s.mem.repairQ := by rfl) : Inv { s with mem := m } := by
  have haddr : ((s.mem.table.map f).map fun e => e.addr) = s.mem.table.map fun e => e.addr := by
    rw [List.map_map]
    exact List.map_congr_left fun e _ => hf e
  refine h.setTable hb hq ?_ ?_
  · rw [ht, List.length_map]
    exact h.table
  · rw [ht, haddr]
    exact h.lines

/-- An entry joins a list that has none for its line. -/
theorem lines_append {l : List ErrEntry} {e : ErrEntry} (hl : ∀ x ∈ l, x.addr ≠ e.addr)
    (hn : (l.map fun x => x.addr).Nodup) : ((l ++ [e]).map fun x => x.addr).Nodup := by
  rw [List.map_append, List.nodup_append]
  refine ⟨hn, List.nodup_singleton _, fun a ha b hb => ?_⟩
  obtain ⟨x, hx, rfl⟩ := List.mem_map.mp ha
  rw [List.map_singleton, List.mem_singleton] at hb
  exact hb ▸ hl x hx

/-- A line's entry takes the place of another line's. -/
theorem replaceLine {v e : ErrEntry} (h : Inv s) (hv : v ∈ s.mem.table) (hnew : ∀ x ∈ s.mem.table, x.addr ≠ e.addr) :
    Inv { s with mem := { s.mem with table := (s.mem.table.filter fun o => o.addr ≠ v.addr) ++ [e] } } := by
  have hshort : (s.mem.table.filter fun o => o.addr ≠ v.addr).length < s.mem.table.length :=
    List.length_filter_lt_length_iff_exists.mpr ⟨v, hv, by simp⟩
  refine h.setTable ⟨rfl, rfl⟩ rfl ?_ (lines_append (fun x hx => hnew x (List.mem_of_mem_filter hx))
    (h.lines.sublist (List.filter_sublist.map _)))
  rw [List.length_append]
  exact Nat.lt_of_lt_of_le hshort h.table

/-- A finding is counted in its line's entry, or takes an entry of its own, in the place of another where the table
is full. -/
theorem errLog {addr kind req source : Nat} (h : Inv s) : Inv (s.errLog addr kind req source) := by
  unfold State.errLog
  dsimp only
  split
  · exact h.mapTable (fun o => by split <;> [exact Eq.symm ‹_›; rfl]) rfl
  · next hold =>
    have hnew : ∀ x ∈ s.mem.table, x.addr ≠ addr := fun x hx => by simpa using List.find?_eq_none.mp hold x hx
    split
    · next hroom =>
      refine h.setTable ⟨rfl, rfl⟩ rfl ?_ (lines_append hnew h.lines)
      rw [List.length_append]
      exact hroom
    · split
      · next v hv =>
        refine h.replaceLine ?_ hnew
        split at hv
        · next o ho =>
          cases hv
          exact List.mem_of_find?_eq_some ho
        · exact List.mem_of_find?_eq_some hv
      · exact h.same

/-- Lines that are written whole leave the repair queue, and their entries say so (R278). -/
theorem wholeWritten {f : Nat → Bool} (h : Inv s) : Inv (s.wholeWritten f) := by
  have hq : Inv { s with mem := { s.mem with repairQ := s.mem.repairQ.filter fun a => !f a } } :=
    { h with
      repair := (List.length_filter_le _ _).trans h.repair
      once := h.once.filter _ }
  exact (hq.mapTable (m := (s.wholeWritten f).mem) (fun e => by split <;> rfl) rfl).same

/-- A line is queued once, while the queue has room. -/
theorem queueRepair {addr : Nat} {known : Bool} (h : Inv s) : Inv (s.queueRepair addr known).1 := by
  unfold State.queueRepair
  split
  · exact .ite h h.same
  · split
    · exact h
    · next hnew =>
      split
      · exact h
      · next hroom =>
        refine { h with repair := ?_, once := ?_ }
        · rw [List.length_append]
          exact Nat.lt_of_not_le hroom
        · rw [List.nodup_append]
          refine ⟨h.once, List.nodup_singleton _, ?_⟩
          rintro a ha b hb rfl
          rw [List.mem_singleton] at hb
          exact hnew (by simpa [hb] using ha)

/-! ### The journal (R344, R349) -/

/-- The next JSEQ is one that is used (R344). -/
theorem jNext_used (s : State) : s.jNext ≠ 0xFFFFFFFF := by
  unfold State.jNext
  split
  · decide
  · split
    · decide
    · assumption

/-- An entry that is found has a JSEQ that is used. -/
theorem jEntry_used {j : Word} {e : JEntry} (h : Inv s) (he : s.jEntry j = some e) : e.jseq ≠ 0xFFFFFFFF := by
  unfold State.jEntry at he
  split at he
  · next hc =>
    cases he
    exact h.cached _ (List.mem_of_find?_eq_some hc)
  · dsimp only at he
    split at he
    · next hm =>
      cases he
      exact h.stored _ (tget_mem hm.2)
    · cases he

/-- The journal's lines with an entry written whose JSEQ is used. -/
theorem setStored {n : Nvm} {k : Nat} {e : JEntry} (h : Inv s) (he : e.jseq ≠ 0xFFFFFFFF)
    (hn : n.journal = tput (fun _ => jNone) s.nvm.journal k e) : Inv { s with nvm := n } := by
  refine { h with stored := fun x hx => ?_ }
  rw [show ({ s with nvm := n } : State).nvm = n from rfl, hn] at hx
  rcases mem_tput hx with rfl | hx
  · exact he
  · exact h.stored x hx

/-- The cache with entries whose JSEQs are used, within its size. -/
theorem setCache {j : Jrn} (h : Inv s) (hl : j.cache.length ≤ 2048) (hn : j.newest ≠ some 0xFFFFFFFF)
    (hc : ∀ e ∈ j.cache, e.jseq ≠ 0xFFFFFFFF) : Inv { s with jrn := j } :=
  { h with cache := hl, newest := hn, cached := hc }

theorem jWait {j : Word} {durable : Bool} (h : Inv s) : Inv (s.jWait j durable) := by
  unfold State.jWait
  split
  · exact h.same
  · exact h.same

theorem jStore {j : Word} (h : Inv s) : Inv (s.jStore j) := by
  unfold State.jStore
  split
  · exact h.same
  · next e he =>
    have hd : Inv (s.dropLine j) := h.same
    exact (hd.setStored (h.jEntry_used he) rfl).wholeWritten

theorem jAdd {e : JEntry} {durable : Bool} (h : Inv s) : Inv (s.jAdd e durable).1 := by
  unfold State.jAdd
  extract_lets +onlyGivenNames j t x _ u
  have hu : Inv u := by
    refine h.setCache (List.length_take_le _ _) (fun hj => jNext_used s (Option.some.inj hj)) fun y hy => ?_
    rcases List.mem_cons.mp (List.mem_of_mem_take hy) with rfl | hy
    · exact jNext_used s
    · exact h.cached y hy
  exact hu.jWait

theorem jPut {j : Word} {durable : Bool} {g : JEntry → JEntry} (h : Inv s)
    (hg : ∀ e, (g e).jseq = e.jseq := by intro _; rfl) : Inv (s.jPut j durable g) := by
  unfold State.jPut
  split
  · refine jWait (h.setCache ?_ h.newest fun x hx => ?_)
    · rw [List.length_map]
      exact h.cache
    · obtain ⟨e, he, rfl⟩ := List.mem_map.mp hx
      split
      · rw [hg]
        exact h.cached e he
      · exact h.cached e he
  · dsimp only
    split
    · next hm => exact h.setStored (by rw [hg]; exact h.stored _ (tget_mem hm.2)) rfl
    · exact h.same

theorem jSet {j : Word} {durable : Bool} {f : JEntry → JEntry} (h : Inv s)
    (hf : ∀ e, (f e).jseq = e.jseq := by intro _; rfl) : Inv (s.jSet j durable f) := h.jPut fun e => hf e

theorem coalesce {op : Nat} {p : Pkt} (h : Inv s) : Inv (s.coalesce op p).1 := by
  unfold State.coalesce
  dsimp only
  split
  · next w _ =>
    have hw : Inv (s.jPut w.jseq false _) := h.jPut (g := fun e => { e with
      tag := p.seq
      count := BitVec.ofNat 16 (satAdd 16 e.count.toNat 1)
      digest := w32 (crc32From w.crc.toNat p.params)
      result := e.result ||| w32 (2 ^ (op - 0x0101)) })
    exact hw.same
  · exact h.jAdd.same

/-- Of two JSEQs the later is one of them. -/
theorem laterSeq_used {a b : Word} (ha : a ≠ 0xFFFFFFFF) (hb : b ≠ 0xFFFFFFFF) : laterSeq a b ≠ 0xFFFFFFFF := by
  unfold laterSeq
  split
  · exact hb
  · exact ha

/-- The newest JSEQ that the scan of the journal finds is one that is used. -/
theorem scanNewest_used (h : Inv s) : s.scanNewest ≠ some 0xFFFFFFFF := by
  have hl : ∀ j ∈ (s.nvm.journal.filter fun e => !s.mem.poison.contains (0x10600000 + 64 * e.1)).map (·.2.jseq),
      j ≠ 0xFFFFFFFF := fun j hj => by
    obtain ⟨e, he, rfl⟩ := List.mem_map.mp hj
    exact h.stored e (List.mem_of_mem_filter he)
  unfold State.scanNewest
  split
  · exact nofun
  · next a l hal =>
    rw [hal] at hl
    refine fun e => absurd (Option.some.inj e) ?_
    exact List.foldlRecOn (motive := fun j : Word => j ≠ 0xFFFFFFFF) _ _ (hl a List.mem_cons_self) fun _ hj b hb =>
      laterSeq_used hj (hl b (List.mem_cons_of_mem _ hb))

/-! ### What a command's effect hands over -/

end Inv

/-- The state that an effect leaves keeps the invariant, and so does what it does after its reply. -/
structure Out.Keeps (o : Out) : Prop where
  state : Inv o.s
  after : ∀ {t : State}, Inv t → Inv (o.post t)

/-- A row of the opcode table keeps the invariant. -/
def OpDef.Keeps (d : OpDef) : Prop := ∀ {j : Word} {p : Pkt} {s : State}, Inv s → (d.run j p s).Keeps

namespace Out.Keeps

theorem okOut {s : State} {r : List Word} (h : Inv s) : (okOut s r).Keeps := ⟨h, id⟩

theorem ite {c : Prop} [Decidable c] {x y : Out} (hx : x.Keeps) (hy : y.Keeps) : (if c then x else y).Keeps := by
  split
  · exact hx
  · exact hy

end Out.Keeps

/-- The invariant holds of the next state, where there is one. -/
def NextKeeps : Host.Outcome State Fault Refusal → Prop
  | .next t => Inv t
  | _ => True

theorem NextKeeps.next {s : State} (h : Inv s) : NextKeeps (.next s) := h

end Sys2Proof.Machine
end

section
/-! PROOFS. The invariant is kept by Machine/Params.lean: the parameter space. -/

namespace Sys2Proof.Machine

namespace Inv
variable {s t : State}

/-! ### Reading and writing the stored copies -/

theorem setLive {id v : Nat} (h : Inv s) : Inv (s.setLive id v) := h.parts

theorem setShadow {id v : Nat} (h : Inv s) : Inv (s.setShadow id v) := h.parts

theorem bump {id n : Nat} (h : Inv s) : Inv (s.bump id n) := h.setLive

end Inv

end Sys2Proof.Machine
end

section
/-! PROOFS. The invariant is kept by Machine/Ops.lean: the named operations over the state. -/

namespace Sys2Proof.Machine

namespace Inv
variable {s t : State}

/-! ### Time (15_power_states.md R335) -/

theorem elapse {dt : Nat} (h : Inv s) : Inv (s.elapse dt) := h.parts

/-! ### Memory bytes (01_architecture.md R33) -/

theorem setCtx {n : Nat} {c : ObjCtx} (h : Inv s) : Inv (s.setCtx n c) := h.parts

/-! ### Lines (12_memory_integrity.md R272 to R280) -/

theorem latchFault {cls : Nat} (h : Inv s) : Inv (s.latchFault cls) := h.parts

theorem lineCorrected {addr req source : Nat} (h : Inv s) : Inv (s.lineCorrected addr req source) :=
  h.errLog.bump

theorem writeSram {a : Nat} {l : List Byte} (h : Inv s) : Inv (s.writeSram a l) := h.setSram.wholeWritten

theorem writeMram {a : Nat} {l : List Byte} (h : Inv s) : Inv (s.writeMram a l) := h.setMram.wholeWritten

/-! ### Rings and records (02_command_model.md R48 to R54) -/

theorem headOn {r n : Nat} (h : Inv s) : Inv (s.headOn r n) := h.parts

theorem pushOut {r : Nat} {l : Record} (h : Inv s) : Inv (s.pushOut r l) := h.parts

theorem postEvent {r src : Nat} {bytes : List Byte} (h : Inv s) : Inv (s.postEvent r src bytes) :=
  .ite h.pushOut h.bump.parts

theorem evt {code sev src a0 a1 a2 a3 : Nat} (h : Inv s) : Inv (s.evt code sev src a0 a1 a2 a3) := by
  unfold State.evt
  extract_lets _ _ s1 s2
  have hs1 : Inv s1 := h.parts
  have hs2 : Inv s2 := .ite hs1.postEvent hs1
  exact .ite hs2.postEvent hs2

/-! ### Uncorrectable lines (12_memory_integrity.md R273 to R283) -/

theorem reportLost {addr req how : Nat} (h : Inv s) : Inv (s.reportLost addr req how) := by
  unfold State.reportLost
  extract_lets s₁
  have hs₁ : Inv s₁ := h.evt
  exact .ite hs₁.evt hs₁

theorem lineLost {addr req : Nat} (h : Inv s) : Inv (s.lineLost addr req) := by
  unfold State.lineLost
  extract_lets _ s₂ _ _ _ q
  have hs₂ : Inv s₂ := h.errLog.bump.latchFault
  have hq : Inv q.1 := hs₂.memParts.queueRepair
  exact .ite hs₂ (.ite hq.reportLost hq)

theorem spaceFreed {r : Nat} (h : Inv s) : Inv (s.spaceFreed r) :=
  .ite h (.ite (.ite h h.parts.evt) (.ite h h.parts.evt))

theorem postReply {p : Pkt} {b : List Byte} (h : Inv s) : Inv (s.postReply p b) := .ite h.pushOut h.bump.parts

theorem reply {op : Nat} {p : Pkt} {status step steps : Nat} {jseq : Word} {results : List Word}
    {gap keep : Bool} (h : Inv s) :
    Inv (s.reply op p status step steps jseq results gap keep) := by
  unfold State.reply
  extract_lets _ s₁
  have hs₁ : Inv s₁ := h.postReply
  exact .ite (.ite hs₁.parts hs₁) h

theorem cmdDone {op : Nat} {p : Pkt} {status : Nat} (h : Inv s) : Inv (s.cmdDone op p status) := .ite h.evt h

/-! ### The journal (16_journal_recovery_firmware.md R344 to R351) -/

theorem dropLine {j : Word} (h : Inv s) : Inv (s.dropLine j) := h.jrnParts

theorem jRecord {code arg note : Nat} (h : Inv s) : Inv (s.jRecord code arg note).1 := h.jAdd

/-! ### Free values (DESIGN CHOICE, log 3) -/

theorem freeW (h : Inv s) : Inv s.freeW.1 := h.parts

end Inv

end Sys2Proof.Machine
end

section
/-! PROOFS. The invariant is kept by Machine/Flags.lean: the flags and the timebase. -/

namespace Sys2Proof.Machine

namespace Inv
variable {s t : State}

/-! ### The status map (10_pixel_diagnostics_safe_state.md R232) -/

theorem setMapAt {l y e : Nat} (h : Inv s) : Inv (s.setMapAt l y e) := h.setSram

/-! ### The timebase (03_pixel_drive.md R66, 08_frame_timing_scanout.md R185) -/

theorem setLane {l : Lane} {v : LaneSt} (h : Inv s) : Inv (s.setLane l v) := by
  unfold State.setLane
  split
  · exact h.parts
  · exact h.parts

theorem modTile {t : Nat} {f : Tile → Tile} (h : Inv s) : Inv (s.modTile t f) := h.parts

theorem modRg {g : Nat} {f : RowGroup → RowGroup} (h : Inv s) : Inv (s.modRg g f) := h.parts

theorem modChan {n : Nat} {f : Channel → Channel} (h : Inv s) : Inv (s.modChan n f) := h.parts

theorem modCrest {k : Nat} {f : Crest → Crest} (h : Inv s) : Inv (s.modCrest k f) := h.parts

end Inv

end Sys2Proof.Machine
end

section
/-! PROOFS. The invariant is kept by Machine/Lines.lean: lines of memory. -/

namespace Sys2Proof.Machine

namespace Inv
variable {s t : State}

/-! ### The sources of lines (R274) -/

theorem cachedAt_used {a : Nat} {e : JEntry} (h : Inv s) (he : s.cachedAt a = some e) : e.jseq ≠ 0xFFFFFFFF :=
  h.cached e (List.mem_of_find?_eq_some he)

theorem restoreLine {a : Nat} (h : Inv s) : Inv (s.restoreLine a) := by
  unfold State.restoreLine
  split
  · exact h.setSram
  · exact h.setSram
  · exact h.setSram
  · exact h.setSram
  · exact h.setSram
  · exact .foldl (fun _ h => h.setMapAt) h.setSram
  · exact h.setSram
  · exact h.setMram
  · split
    · next e he => exact h.setStored (h.cachedAt_used he) rfl
    · exact h
  · exact h.setMram
  · exact h

/-! ### Reads of lines (R273 to R276) -/

theorem ringsWritten (h : Inv s) : Inv s.ringsWritten := h.parts.wholeWritten

theorem arise {ups : Upsets} (h : Inv s) : Inv (s.arise ups) := h.ringsWritten.memParts

theorem errGone {a : Nat} (h : Inv s) : Inv (s.errGone a) := h.memParts

theorem refetch {req a : Nat} (h : Inv s) : Inv (s.refetch req a).1 :=
  .iteFst h.restoreLine.lineCorrected h.lineLost

theorem readLine {req a : Nat} (h : Inv s) : Inv (s.readLine req a).1 := by
  unfold State.readLine
  split
  · exact h.lineLost
  · split
    · exact h
    · exact h.errGone.lineCorrected
    · exact h.errGone.refetch
    · exact h.errGone.lineLost

theorem readLines {req : Nat} {l : List Nat} (h : Inv s) : Inv (s.readLines req l).1 := by
  induction l generalizing s with
  | nil => exact h
  | cons a r ih => exact .iteFst (ih h.readLine) h.readLine

theorem readEach {req : Nat} {l : List Nat} (h : Inv s) : Inv (s.readEach req l).1 :=
  .foldlFst (fun _ h => .iteFst h.readLine h.readLine) h

theorem readSpan {req a n : Nat} (h : Inv s) : Inv (s.readSpan req a n).1 := h.readEach

/-! ### Writes of MRAM lines (R284) -/

theorem remapSector {a k : Nat} (h : Inv s) : Inv (s.remapSector a k) := h.readSpan.nvmParts.evt

theorem writeFails {a : Nat} (h : Inv s) : Inv (s.writeFails a) := h.memParts.evt

theorem verifyLine {a : Nat} (h : Inv s) : Inv (s.verifyLine a).1 := by
  unfold State.verifyLine
  split
  · exact h
  · split
    · exact h.errGone.remapSector
    · exact h.errGone.writeFails

theorem verifyLines {l : List Nat} (h : Inv s) : Inv (s.verifyLines l).1 := by
  induction l generalizing s with
  | nil => exact h
  | cons a r ih => exact .iteFst (ih h.verifyLine) h.verifyLine

/-! ### Writes of a part of a line (R272, R277) -/

theorem readParts {req a n : Nat} (h : Inv s) : Inv (s.readParts req a n).1 := .iteFst h h.readEach

end Inv

end Sys2Proof.Machine
end

section
/-! PROOFS. The invariant is kept by Machine/Safe.lean: causes, safe states, ends of commands and restarts. -/

namespace Sys2Proof.Machine

namespace Inv
variable {s t : State}

/-! ### Generation and commits (08_frame_timing_scanout.md R193) -/

theorem bumpGen (h : Inv s) : Inv s.bumpGen := h.parts

theorem setCommit (h : Inv s) : Inv s.setCommit := h.parts.bumpGen

theorem shadowWrite {id v : Nat} (h : Inv s) : Inv (s.shadowWrite id v) := by
  unfold State.shadowWrite
  extract_lets s₁ _ s₂
  have hs₁ : Inv s₁ := h.setShadow
  have hs₂ : Inv s₂ := .ite hs₁.parts hs₁
  exact .ite hs₂.bumpGen hs₂

theorem syncEvt {old : SyncState} (h : Inv s) : Inv (s.syncEvt old) := h.evt

theorem setSync {n : SyncState} (h : Inv s) : Inv (s.setSync n) := .ite h h.parts.syncEvt

theorem timingWrite (h : Inv s) : Inv s.timingWrite := .ite h.parts.setSync h.parts

theorem syncCtrlWrite {old : Nat} (h : Inv s) : Inv (s.syncCtrlWrite old) := by
  unfold State.syncCtrlWrite
  extract_lets _ _ s₁
  have hs₁ : Inv s₁ := h.parts
  exact .ite h (.ite (.ite hs₁ hs₁.parts) (.setSync (.ite hs₁ hs₁.parts)))

theorem budgetWrite {v : Nat} (h : Inv s) : Inv (s.budgetWrite v) := .setLive (.ite h.parts h)

theorem vfbFollow (h : Inv s) : Inv s.vfbFollow := .ite h.parts (.ite h h.parts)

theorem prmWrite {id v : Nat} (h : Inv s) : Inv (s.prmWrite id v) :=
  .ite h.shadowWrite (.ite (.ite h.setCommit h) (.ite h.parts (.ite h.nvmParts (.ite h.nvmParts
    (.ite h.setLive.timingWrite (.ite h.setLive.syncCtrlWrite (.ite h.budgetWrite (.ite h.parts.setLive.vfbFollow
    (.ite h.setLive.vfbFollow h.setLive)))))))))

/-! ### Ends of commands (R53, R345, R413) -/

theorem jKeep {j : Word} (h : Inv s) : Inv (s.jKeep j) := by
  unfold State.jKeep
  extract_lets v
  have hv : Inv v.1 := h.verifyLine
  exact .ite h.jWait (.ite hv.jStore hv.dropLine)

theorem jFinal {j : Word} {durable : Bool} {status step steps : Nat} {partly : Bool} {result : Word} (h : Inv s) :
    Inv (s.jFinal j durable status step steps partly result) :=
  h.jSet

theorem dropJob {b : Job} (h : Inv s) : Inv (s.dropJob b) := h.parts

theorem dropHeld {p : Pkt} {j : Word} (h : Inv s) : Inv (s.dropHeld p j) := h.parts

theorem answerHeld {op : Nat} {p : Pkt} {j : Word} {gap : Bool} {status step : Nat} {results : List Word}
    (h : Inv s) :
    Inv (s.answerHeld op p j gap status step results) :=
  .ite h.cmdDone h.reply

/-! ### Causes and safe states -/

theorem shutStrings (h : Inv s) : Inv s.shutStrings := h.parts

theorem setDacs {d : Dac} (h : Inv s) : Inv (s.setDacs d) := .foldl (fun _ h => h.modTile) h

/-! ### Slices that a request aborts (13_self_test.md R293) -/

theorem modTest {type target : Nat} {f : TestRes → TestRes} (h : Inv s) : Inv (s.modTest type target f) :=
  h.parts

theorem holdStored (h : Inv s) : Inv s.holdStored := .ite h.nvmParts h

theorem mark {b : Nat} (h : Inv s) : Inv (s.mark b) := .ite h h.holdStored.nvmParts

theorem turnTo {n : Nat} (h : Inv s) : Inv (s.turnTo n) := .ite h.parts h.parts

theorem turnOver {type target : Nat} (h : Inv s) : Inv (s.turnOver type target) := .ite h.turnTo h

theorem laneTested {n : Nat} (h : Inv s) : Inv (s.laneTested n) := h.setLane

theorem sliceAborted {type target : Nat} (h : Inv s) : Inv (s.sliceAborted type target) := by
  unfold State.sliceAborted
  extract_lets _ _ _ s₃ _ s₄
  have hs₃ : Inv s₃ := h.parts.bump.modTest.turnOver
  have hs₄ : Inv s₄ := .ite hs₃.modTest.evt hs₃
  split
  · exact .ite hs₄.dropJob.jFinal.jKeep.cmdDone hs₄
  · exact hs₄

theorem abortLeaves {type target : Nat} (h : Inv s) : Inv (s.abortLeaves type target) := by
  unfold State.abortLeaves
  extract_lets s₁
  have hs₁ : Inv s₁ := .ite h.laneTested h
  split
  · exact .ite hs₁.parts hs₁
  · exact .ite hs₁.parts hs₁
  · exact hs₁

theorem abortSlice {p : Nat → Nat → Bool} (h : Inv s) : Inv (s.abortSlice p) := by
  unfold State.abortSlice
  split
  · exact h
  · exact .ite h.freeW.freeW.modTest.sliceAborted.abortLeaves h

theorem abortMram {a : Nat} (h : Inv s) : Inv (s.abortMram a) := .ite h.abortSlice h

theorem abortMrams {l : List Nat} (h : Inv s) : Inv (s.abortMrams l) := .foldl (fun _ h => h.abortMram) h

theorem abortSpan {a n : Nat} (h : Inv s) : Inv (s.abortSpan a n) := h.abortSlice

/-! ### Records in the configuration region (R284, R364, R317, R359) -/

theorem storeConf {l : List Nat} (h : Inv s) : Inv (s.storeConf l).1 := by
  unfold State.storeConf
  extract_lets v
  have hv : Inv v.1 := h.abortMrams.verifyLines
  exact .iteFst hv.wholeWritten hv

theorem readConf {l : List Nat} (h : Inv s) : Inv (s.readConf l).1 := h.readEach

/-! ### Ends of commands -/

theorem jDurable {j : Word} (h : Inv s) : Inv (s.jDurable j) := .ite h.jKeep h.abortMram.jKeep

theorem jEnd {j : Word} {durable : Bool} {status step steps : Nat} {partly : Bool} {result : Word} (h : Inv s) :
    Inv (s.jEnd j durable status step steps partly result) := by
  unfold State.jEnd
  extract_lets s₁
  have hs₁ : Inv s₁ := h.jFinal
  exact .ite h (.ite hs₁.jDurable hs₁)

theorem endJob {b : Job} {status step : Nat} {partly : Bool} {result : Word} (h : Inv s) :
    Inv (s.endJob b status step partly result) :=
  h.dropJob.jEnd.cmdDone

theorem endHeld {op : Nat} {p : Pkt} {j : Word} {gap : Bool} {status step : Nat} {results : List Word} (h : Inv s) :
    Inv (s.endHeld op p j gap status step results) :=
  h.dropHeld.jEnd.answerHeld.spaceFreed

theorem limpRequest (h : Inv s) : Inv s.limpRequest := h.abortSlice.parts

theorem clearFreeze (h : Inv s) : Inv s.clearFreeze := h.parts

theorem delayFreeze (h : Inv s) : Inv s.delayFreeze := h.parts

theorem forceVfb (h : Inv s) : Inv s.forceVfb := h.parts

theorem vfbRelease (h : Inv s) : Inv s.vfbRelease := .ite h.parts h

theorem setSafe {new : Nat} (h : Inv s) : Inv (s.setSafe new) := by
  unfold State.setSafe
  extract_lets _ _ _ _ s₃ _ _ s₄
  have hs₃ : Inv s₃ := h.parts.vfbRelease.evt
  have hs₄ : Inv s₄ := .ite hs₃.parts hs₃
  exact .ite h (.ite hs₄.parts (.ite hs₄.limpRequest.clearFreeze.delayFreeze.forceVfb
    (.ite hs₄.setDacs.shutStrings.clearFreeze hs₄.parts)))

theorem cancelReturn (h : Inv s) : Inv s.cancelReturn := .ite h.parts.bumpGen h

theorem addCause {b : Nat} (h : Inv s) : Inv (s.addCause b) := by
  unfold State.addCause
  extract_lets s₁ _ _ s₃
  have hs₁ : Inv s₁ := by unfold s₁; split; exacts [h.latchFault, h]
  have hs₃ : Inv s₃ := hs₁.parts.cancelReturn
  exact .ite hs₁.parts (.ite hs₃.setSafe hs₃)

theorem scheduleReturn {r : Return} (h : Inv s) : Inv (s.schedule r) := .ite h h.parts.bumpGen

theorem reevaluate (h : Inv s) : Inv s.reevaluate :=
  .ite h.scheduleReturn (.ite h.scheduleReturn (.ite h.scheduleReturn h))

theorem clearCauses {mask : Nat} (h : Inv s) : Inv (s.clearCauses mask) := h.parts.reevaluate

theorem degrade (h : Inv s) : Inv s.degrade := .ite h.setSafe h

theorem releaseHeld (h : Inv s) : Inv s.releaseHeld := .foldl (fun _ h => h.addCause) h.parts

/-! ### Firmware slots (R357) -/

theorem setSlot {k : Nat} {v : SlotState} (h : Inv s) : Inv (s.setSlot k v) := h.holdStored.nvmParts

theorem verifySlot {k : Nat} (h : Inv s) : Inv (s.verifySlot k).1 := h.abortSpan.readSpan

theorem copyImage (h : Inv s) : Inv s.copyImage := h.verifySlot.wholeWritten.parts

/-! ### Restarts of the sequencer (R352, R353) -/

theorem crestAll {old new : CrestState} (h : Inv s) : Inv (s.crestAll old new) :=
  .foldl (fun _ h => .ite h.modCrest h) h

theorem negoRollback {n : Nego} (h : Inv s) : Inv (s.negoRollback n) := by
  unfold State.negoRollback
  extract_lets _ s₁ _ _ s₂ _ s₃
  have hs₁ : Inv s₁ := h.parts
  have hs₂ : Inv s₂ := .ite hs₁.parts.crestAll hs₁
  have hs₃ : Inv s₃ := hs₂.parts
  exact .releaseHeld (.ite (.ite hs₃.setDacs hs₃) hs₂)

theorem negoReply {n : Nego} {status block step : Nat} (h : Inv s) : Inv (s.negoReply n status block step) := by
  unfold State.negoReply
  extract_lets _ _ s₂
  have hs₂ : Inv s₂ := h.parts.jEnd
  exact .ite hs₂.cmdDone hs₂.reply.spaceFreed

theorem negoAbort (h : Inv s) : Inv s.negoAbort := by
  unfold State.negoAbort
  split
  · exact h
  · extract_lets s₁
    have hs₁ : Inv s₁ := h.negoRollback
    exact .ite hs₁ hs₁.negoReply

theorem abortHeld (h : Inv s) : Inv s.abortHeld := .foldl (fun _ h => h.dropHeld.answerHeld.spaceFreed) h

theorem seqRestart {level cause : Nat} (h : Inv s) : Inv (s.seqRestart level cause) := by
  unfold State.seqRestart
  extract_lets s₁ _ s₂ _ _ _ _ s₃ s₄
  have hs₁ : Inv s₁ := h.negoAbort.abortHeld.copyImage.abortSlice
  have hs₂ : Inv s₂ := .ite hs₁.parts hs₁
  have hs₄ : Inv s₄ := hs₂.same.bump
  exact .ite (hs₄.addCause.setCache hs₄.cache hs₄.newest hs₄.cached) hs₄

theorem runSlot {k : Nat} (h : Inv s) : Inv (s.runSlot k) := by
  unfold State.runSlot
  extract_lets s₁
  have hs₁ : Inv s₁ := .ite h.setSlot h
  exact hs₁.nvmParts

theorem rolledBack {bad cause : Nat} (h : Inv s) : Inv (s.rolledBack bad cause) := h.jRecord.evt

theorem rollBack {slot reset cause : Nat} (h : Inv s) : Inv (s.rollBack slot reset cause) :=
  h.runSlot.seqRestart.rolledBack

theorem restartDue {cause : Nat} (h : Inv s) : Inv (s.restartDue cause) := by
  unfold State.restartDue
  extract_lets _ s₁
  have hs₁ : Inv s₁ := h.verifySlot
  split
  · exact h.seqRestart
  · split
    · exact hs₁.rollBack
    · split
      · exact .ite hs₁.jrnParts hs₁.seqRestart
      · exact hs₁.seqRestart

/-! ### Full reset (R352, R243, R287) -/

/-- What MRAM stores of a record that is held back leaves the journal's lines. -/
theorem asStored_journal (n : Nvm) : n.asStored.journal = n.journal := by
  unfold Nvm.asStored
  split <;> rfl

/-- A full reset keeps the bytes of MRAM and its journal lines; the rest is as after reset (R63). -/
theorem fullReset {boot : Boot} {cause wake : Nat} (h : Inv s) : Inv (s.fullReset boot cause wake) where
  mem := by
    have hm : twf sramDef s.mem.sram && twf mramDef s.mem.mram := h.mem
    exact (Bool.and_eq_true _ _).mpr ⟨rfl, ((Bool.and_eq_true _ _).mp hm).2⟩
  timed := Nat.zero_le _
  table := Nat.zero_le _
  lines := List.nodup_nil
  repair := Nat.zero_le _
  once := List.nodup_nil
  cache := Nat.zero_le _
  newest := nofun
  cached := nofun
  stored := (asStored_journal s.nvm).symm ▸ h.stored

end Inv

end Sys2Proof.Machine
end

section
/-! PROOFS. The invariant is kept by Machine/Command.lean: how a command that its server has taken runs. -/

namespace Sys2Proof.Machine

namespace Inv
variable {s t : State}

/-! ### Step 6: authentication (R360, R416) -/

theorem setSession {port : Port} {l : Option Session} (h : Inv s) : Inv (s.setSession port l) := h.parts

theorem authenticate {op : Nat} {p : Pkt} (h : Inv s) : Inv (s.authenticate op p).1 := by
  unfold State.authenticate
  split
  · exact h
  · split
    · exact .iteFst h h
    · exact .iteFst h.setSession (.iteFst h.setSession.evt h.setSession)

/-! ### Rejections -/

theorem reject {op : Nat} {p : Pkt} {status : Nat} {results : List Word} {gap : Bool} (h : Inv s) :
    Inv (s.reject op p status results gap) :=
  h.reply

/-! ### Running -/

theorem reserve {p : Pkt} (h : Inv s) : Inv (s.reserve p) := h.parts

theorem markGap {p : Pkt} {j : Word} {gap : Bool} (h : Inv s) : Inv (s.markGap p j gap) := h.parts

theorem execute {op : Nat} {d : OpDef} {p : Pkt} {params : List Byte} {gap : Bool} (hd : d.Keeps) (h : Inv s) :
    Inv (s.execute op d p params gap) := by
  unfold State.execute
  extract_lets _ e o j s₁ s₂ s₃
  have he : Inv e.1 := .iteFst h (.iteFst h.coalesce h.jAdd)
  have hs₁ : Inv s₁ := (hd he).state
  have hs₂ : Inv s₂ := hs₁.jSet
  have hs₃ : Inv s₃ := .ite hs₁ (.ite (.ite hs₂.jDurable hs₂) hs₁.jEnd)
  exact .ite ((hd he).after hs₃.reply) hs₃.markGap.reserve

theorem startJob {kind : JobKind} {op : Nat} {p : Pkt} {j : Word} {steps : Nat} (h : Inv s) :
    Out.Keeps (s.startJob kind op p j steps) :=
  ⟨h.parts, id⟩

theorem modJob {j : Word} {f : Job → Job} (h : Inv s) : Inv (s.modJob j f) := h.parts

theorem jobStep {b : Job} (h : Inv s) : Inv (s.jobStep b) := h.modJob.jSet

/-! ### The timed queue (17_group_operation.md R368 to R370) -/

/-- An entry is placed while the timed queue has room (R368). -/
theorem enqueue {op inner : Nat} {p q : Pkt} {params : List Byte} {id : Nat} {strict : Bool} {time : Nat} {gap : Bool}
    (hroom : s.grp.queue.length < 32) (h : Inv s) : Inv (s.enqueue op inner p q params id strict time gap) := by
  have hgrp : (s.timedEntered inner q params).grp = s.grp := grp_of_frame timedEntered_frame (by decide)
  have hu : Inv (s.timedEntered inner q params) := .ite h.jAdd.jDurable h.jAdd
  rw [enqueue_eq]
  refine reply { hu with timed := ?_ }
  rw [hgrp, List.length_append]
  exact hroom

/-! ### Steps 5 to 9 of R42 -/

/-- A packet with TIMED that the checks let through finds room in the timed queue. -/
theorem room_of_timedBad {op cls time : Nat} {strict : Bool} (hb : s.timedBad op cls time strict = none) :
    s.grp.queue.length < 32 := by
  by_contra hfull
  unfold State.timedBad at hb
  rw [if_pos (Nat.le_of_not_lt hfull)] at hb
  split_ifs at hb

theorem runOp_inv {op : Nat} {d : OpDef} {p : Pkt} {gap : Bool} (hd : d.Keeps) (h : Inv s) :
    Inv (runOp op d p gap s) := by
  unfold runOp
  extract_lets a s₁
  have ha : Inv a.1 := h.authenticate
  have hs₁ : Inv s₁ := ha
  split
  · exact h.reject
  · split
    · exact ha.reject
    · split
      · split
        · exact hs₁.reject
        · dsimp only
          split
          · exact hs₁.reject
          · split
            · exact hs₁.reject
            · next hb => exact hs₁.enqueue (room_of_timedBad hb)
      · dsimp only
        split
        · exact hs₁.reject
        · split
          · exact hs₁.reject
          · exact hs₁.execute hd

theorem putBack {op : Nat} {p : Pkt} {gap : Bool} (h : Inv s) : Inv (s.putBack op p gap) := h.headOn.parts

theorem serveOp_inv {op : Nat} {d : OpDef} {p : Pkt} {gap : Bool} (hd : d.Keeps) (h : Inv s) :
    Inv (serveOp op d p gap s) :=
  .ite h.putBack (runOp_inv hd h)

theorem runTimed_inv {d : OpDef} {x : Timed} (hd : d.Keeps) (h : Inv s) : Inv (runTimed d x s) := by
  unfold runTimed
  extract_lets _ o
  have ho : Out.Keeps o := hd h
  have hj : Inv (o.s.jSet x.jseq x.pkt.durable fun e => { e with state := 2 }) := ho.state.jSet
  split
  · exact h.jEnd.cmdDone
  · exact .ite ho.state.jSet (.ite hj.reserve (ho.after ho.state.jEnd.cmdDone))

end Inv

end Sys2Proof.Machine
end

section
/-! PROOFS. The invariant is kept by Machine/Blocks.lean: the blocks of the Plokam Link and records on its returns. -/

namespace Sys2Proof.Machine

namespace Inv
variable {s t : State}

/-! ### What a return carries in every block time (R165, R167, R168, R171, R181) -/

theorem modLane {l : Lane} {f : LaneSt → LaneSt} (h : Inv s) : Inv (s.modLane l f) := h.setLane

theorem linesKept (h : Inv s) : Inv s.lines := h.modLane.modLane

theorem joinReturn {l : Lane} (h : Inv s) : Inv (s.joinReturn l) := .ite h.modLane h

/-! ### Records on the return directions (R43, R48, R174, R276) -/

theorem popOut {r : Nat} (h : Inv s) : Inv (s.popOut r) := h.headOn.parts.spaceFreed

theorem headRecord {r n : Nat} (h : Inv s) : Inv (s.headRecord r n).1 := by
  induction n generalizing s with
  | zero => exact h
  | succ n ih =>
    unfold State.headRecord
    split
    · exact h
    · exact .iteFst h.ringsWritten.readEach (ih h.ringsWritten.readEach.popOut.bump)

theorem outHead {r : Nat} (h : Inv s) : Inv (s.outHead r).1 := h.headRecord

theorem firstRecord {l : List Nat} (h : Inv s) : Inv (s.firstRecord l).1 := by
  induction l generalizing s with
  | nil => exact h
  | cons r l ih =>
    unfold State.firstRecord
    dsimp only
    split
    · exact h.outHead
    · exact ih h.outHead

theorem putRecord {l : Lane} {typ : Nat} {bytes : List Byte} (h : Inv s) : Inv (s.putRecord l typ bytes) := by
  unfold State.putRecord
  extract_lets m
  have hm : Inv m := h.setLane
  exact .ite hm.setLane hm

theorem sendHead {l : Lane} (h : Inv s) : Inv (s.sendHead l) := by
  unfold State.sendHead
  extract_lets h₁
  have hh₁ : Inv h₁.1 := h.firstRecord
  split
  · exact h
  · split
    · exact hh₁
    · exact hh₁.putRecord.popOut

theorem sendOut {l : Lane} {ring n : Nat} (h : Inv s) : Inv (s.sendOut l ring n) := by
  induction n generalizing s with
  | zero => exact h
  | succ n ih => exact .ite h (ih h.sendHead)

theorem replyLeaves {p : Pkt} {l : Lane} (h : Inv s) : Inv (s.replyLeaves p l) := by
  unfold State.replyLeaves
  extract_lets s₁
  have hs₁ : Inv s₁ := h.linesKept
  exact .ite hs₁ hs₁.sendOut

end Inv

end Sys2Proof.Machine
end

section
/-! PROOFS. The invariant is kept by Machine/System.lean: the system opcodes. -/

namespace Sys2Proof.Machine

namespace Inv
variable {s t : State}



/-! ### PING -/

theorem pingDef_keeps : pingDef.Keeps := fun h => .okOut h

/-! ### IDENTIFY -/

theorem identifyDef_keeps : identifyDef.Keeps := fun h => .okOut h

/-! ### RESET (R352) -/

theorem resetEffect_inv {level : Nat} (h : Inv s) : Inv (resetEffect level s) :=
  .ite h.restartDue (.ite h.seqRestart h.fullReset)

theorem resetAfter_inv {p : Pkt} (h : Inv s) : Inv (resetAfter p s) := resetEffect_inv (.ite h.replyLeaves h)

theorem resetDef_keeps : resetDef.Keeps := fun h => ⟨h, fun h => resetAfter_inv h⟩

/-! ### PARAM_GET -/

theorem paramGetDef_keeps : paramGetDef.Keeps := fun h => .okOut h

/-! ### PARAM_SET (R419) -/

theorem writeEntries {l : List (Nat × Nat)} {commit : Bool} (h : Inv s) : Inv (s.writeEntries l commit) := by
  unfold State.writeEntries
  extract_lets s₁
  have hs₁ : Inv s₁ := .foldl (fun _ h => h.prmWrite) h
  exact .ite hs₁.setCommit hs₁

theorem paramSetDef_keeps : paramSetDef.Keeps := fun h => .okOut h.writeEntries

/-! ### STATUS_GET -/

theorem statusGetDef_keeps : statusGetDef.Keeps := fun h => .okOut h.parts

/-! ### EVENT_ACK (R57) -/

theorem eventAckDef_keeps : eventAckDef.Keeps := fun h => .okOut h.parts

/-! ### RING_CONFIG -/

theorem ringConfigDef_keeps : ringConfigDef.Keeps := fun h => .ite (.okOut h) (.okOut h.parts)

end Inv

end Sys2Proof.Machine
end

section
/-! PROOFS. The invariant is kept by Machine/Frame.lean: frames, SYNC_IN and video input. -/

namespace Sys2Proof.Machine

namespace Inv
variable {s t : State}

/-! ### DEVTIME steps (15_power_states.md R343, 05_glare_free_shadowing.md R132) -/

theorem setDevtime {new : Nat} (h : Inv s) : Inv (s.setDevtime new) := h.parts

theorem timeStep {ring new : Nat} {isNow : Bool} {cnt : Nat} (h : Inv s) : Inv (s.timeStep ring new isNow cnt) :=
  h.evt.setDevtime

/-! ### The sync tracker (R186 to R189) -/

theorem recordEdge (h : Inv s) : Inv s.recordEdge := h.parts

theorem edgeHolds (h : Inv s) : Inv s.edgeHolds :=
  .foldl (fun _ h => by split; exacts [.ite h.timeStep.endHeld h, h]) h

theorem edgeTimeouts {p : Held → Bool} (h : Inv s) : Inv (s.edgeTimeouts p) :=
  .foldl (fun _ h => by split; exacts [.ite h.endHeld h, h]) h

theorem acquire {syncNs : Nat} (h : Inv s) : Inv (s.acquire syncNs) := by
  unfold State.acquire
  extract_lets _ _ s₁
  have hs₁ : Inv s₁ := h.parts
  exact .ite hs₁ (.ite hs₁.parts.setSync hs₁.parts.setSync)

theorem acceptEdge {gap n : Nat} (h : Inv s) : Inv (s.acceptEdge gap n) := by
  unfold State.acceptEdge
  extract_lets _ _ _ s₂
  have hs₂ : Inv s₂ := h.parts.recordEdge
  exact .edgeHolds (.ite hs₂.parts (.ite hs₂.acquire hs₂))

theorem firstEdge (h : Inv s) : Inv s.firstEdge := h.parts.recordEdge.edgeHolds

theorem syncEdge (h : Inv s) : Inv s.syncEdge := by
  unfold State.syncEdge
  split
  · exact h
  · split
    · exact h.firstEdge
    · exact .ite (.ite h.acceptEdge h.bump) (.ite h.acceptEdge (.ite h.bump h.firstEdge))

theorem loseLock (h : Inv s) : Inv s.loseLock := by
  unfold State.loseLock
  extract_lets _ s₁
  have hs₁ : Inv s₁ := h.parts
  exact .edgeTimeouts (.ite hs₁.parts.setSync (by split; exacts [.ite hs₁.parts hs₁, hs₁]))

/-! ### Valid input (R205) and the host-stale timer -/

theorem validInput (h : Inv s) : Inv s.validInput := by
  unfold State.validInput
  extract_lets _ s₁
  have hs₁ : Inv s₁ := h.parts
  exact .ite hs₁.clearCauses hs₁

theorem packetInput (h : Inv s) : Inv s.packetInput := .ite h.validInput h

theorem hostStale {t : Nat} (h : Inv s) : Inv (s.hostStale t) := by
  unfold State.hostStale
  exact h.evt.parts.addCause

/-! ### Video input (R198 to R203) -/

theorem frameDrop {reason m : Nat} {frame : Word} {crc : Nat} (h : Inv s) : Inv (s.frameDrop reason m frame crc) := by
  unfold State.frameDrop
  extract_lets s₁
  have hs₁ : Inv s₁ := h.bump
  exact .ite hs₁ hs₁.parts.evt

theorem frameClose {a : Assembling} (h : Inv s) : Inv (s.frameClose a) := by
  unfold State.frameClose
  extract_lets _ _ _ s₁ _ s₂
  have hs₁ : Inv s₁ := h.parts
  have hs₂ : Inv s₂ := .ite hs₁.parts hs₁
  exact .ite hs₂.frameDrop (.ite hs₂.frameDrop (.ite hs₂.frameDrop hs₂.parts))

theorem copyLine {src dst : Nat} (h : Inv s) : Inv (s.copyLine src dst) :=
  .foldl (fun _ h => .ite h h.writeSram) h.readSpan

theorem frameReady {buf : Nat} {frame : Word} {m : Nat} (h : Inv s) : Inv (s.frameReady buf frame m) := by
  unfold State.frameReady
  extract_lets _ _ _ _ _ s₃
  have hs₃ : Inv s₃ := .parts (.bumpGen (.bump (.foldl (fun _ h => h.copyLine) h)))
  exact .ite hs₃ hs₃.validInput

theorem putLine {a : Assembling} {l : List Byte} (h : Inv s) : Inv (s.putLine a l) := by
  unfold State.putLine
  extract_lets _ _ _ s₁
  have hs₁ : Inv s₁ := .ite h h.writeSram
  exact .ite hs₁.frameClose hs₁.parts

theorem startLine {f : Word} {l : List Byte} (h : Inv s) : Inv (s.startLine f l) := .ite h.bump h.putLine

theorem videoLine {l : List Byte} (h : Inv s) : Inv (s.videoLine l) := by
  unfold State.videoLine
  split
  · exact h.bump
  · split
    · exact h.bump
    · split
      · exact .ite h.putLine (.ite h.frameClose.startLine h.bump)
      · exact h.startLine

/-! ### FRAME_COMMIT -/

theorem frameCommitDef_keeps : frameCommitDef.Keeps := by
  intro j p s h
  dsimp -zeta only [frameCommitDef]
  extract_lets s₁
  have hs₁ : Inv s₁ := h.setCommit
  exact .ite (.okOut hs₁) ⟨hs₁.parts, id⟩

/-! ### SCAN_SELECT -/

theorem scanSelectDef_keeps : scanSelectDef.Keeps := fun h => .okOut h.writeEntries

/-! ### TIMING_STATUS -/

theorem timingStatusDef_keeps : timingStatusDef.Keeps := fun h => .okOut h

/-! ### FREEZE_STATUS -/

theorem freezeStatusDef_keeps : freezeStatusDef.Keeps := fun h => .okOut h

/-! ### VIDEO_CONFIG -/

theorem videoConfigDef_keeps : videoConfigDef.Keeps := fun h => .okOut h.setLive.setLive

end Inv

end Sys2Proof.Machine
end

section
/-! PROOFS. The invariant is kept by Machine/Compose.lean: beam composition. -/

namespace Sys2Proof.Machine

namespace Inv
variable {s t : State}

/-! ### Limp codes (R115, R116) -/

theorem substEvt {region tile addr : Nat} (h : Inv s) : Inv (s.substEvt region tile addr) := h.bump.evt

theorem limpReads (h : Inv s) : Inv s.limpReads.1 :=
  .foldl (fun _ h => h.substEvt) (.readEach (.readEach (.foldl (fun _ h => h.substEvt) h.abortSpan.readSpan)))

theorem limpFormed (h : Inv s) : Inv s.limpFormed := h.limpReads.parts

/-! ### BEND (R95) -/

theorem bendTick (h : Inv s) : Inv s.bendTick := h.parts

theorem bendSetDef_keeps : bendSetDef.Keeps := fun h => .okOut h.parts

/-! ### SCENE_WRITE -/

theorem sceneWriteDef_keeps : sceneWriteDef.Keeps := fun h => .okOut h.writeSram

/-! ### SCENE_STORE (R120) -/

theorem sceneStoreDef_keeps : sceneStoreDef.Keeps := fun h => h.startJob

theorem setSceneDir {n : Nat} {e : SceneEntry} (h : Inv s) : Inv (s.setSceneDir n e) :=
  .ite h.nvmParts h.nvmParts

theorem queueLines {a : Nat} {l : List Byte} (h : Inv s) : Inv (s.queueLines a l) := h.memParts

theorem sceneStep {b : Job} {n : Nat} {lock : Bool} {expect : Option Word} (h : Inv s) :
    Inv (s.sceneStep b n lock expect) := by
  unfold State.sceneStep
  extract_lets _ r _ _ r₁ _ s₁
  have hr : Inv r.1 := by unfold r; split; exacts [h.readLines, h]
  have hr₁ : Inv r₁.1 := h.readLines
  have hs₁ : Inv s₁ := h.setSceneDir
  exact .ite (.ite hr.endJob (.ite hr.endJob hr.setSceneDir.jobStep)) (.ite
    (.ite hr₁.endJob hr₁.queueLines.modJob) (.endJob (.ite hs₁.nvmParts hs₁)))

/-! ### SCENE_MIX -/

theorem sceneMixDef_keeps : sceneMixDef.Keeps := fun h => .okOut h.writeEntries

/-! ### SYMBOL_WRITE -/

theorem symbolWriteDef_keeps : symbolWriteDef.Keeps := by
  intro j p s h
  dsimp -zeta only [symbolWriteDef]
  extract_lets _ _ r
  have hr : Inv r.1 := h.readParts
  exact .ite ⟨h, id⟩ (.ite (.okOut hr.writeSram) ⟨hr, id⟩)

/-! ### OVL_SET and OVL_CLEAR (R102, R107) -/

theorem stageOvl {t : Tab Overlay} (h : Inv s) : Inv (s.stageOvl t) := by
  unfold State.stageOvl
  extract_lets _ s₁
  have hs₁ : Inv s₁ := h.parts
  exact .ite hs₁.bumpGen hs₁

theorem ovlSetDef_keeps : ovlSetDef.Keeps := by
  intro j p s h
  dsimp -zeta only [ovlSetDef]
  extract_lets s₁
  have hs₁ : Inv s₁ := h.stageOvl
  exact .okOut (.ite hs₁.setCommit hs₁)

theorem clearNow {mask : Nat} (h : Inv s) : Inv (s.clearNow mask) := h.parts

theorem ovlClearDef_keeps : ovlClearDef.Keeps := by
  intro j p s h
  dsimp -zeta only [ovlClearDef]
  extract_lets s₁ s₂
  have hs₁ : Inv s₁ := h.stageOvl
  have hs₂ : Inv s₂ := .ite hs₁.clearNow hs₁
  exact .okOut (.ite hs₂.setCommit hs₂)

/-! ### LUT_WRITE (R92) -/

theorem lutWriteDef_keeps : lutWriteDef.Keeps := by
  intro j p s h
  dsimp -zeta only [lutWriteDef]
  extract_lets _ _ s₁ s₂
  have hs₁ : Inv s₁ := h.parts
  have hs₂ : Inv s₂ := .ite hs₁.bumpGen hs₁
  exact .okOut (.ite hs₂.setCommit hs₂)

theorem serveLut_inv {p : Pkt} {gap : Bool} (h : Inv s) : Inv (serveLut p gap s) :=
  .ite h.parts (serveOp_inv lutWriteDef_keeps h)

/-! ### WINDOW_SET -/

theorem windowSetDef_keeps : windowSetDef.Keeps := fun h => .okOut h.writeEntries

end Inv

end Sys2Proof.Machine
end

section
/-! PROOFS. The invariant is kept by Machine/Shadow.lean: glare-free shadowing. -/

namespace Sys2Proof.Machine

namespace Inv
variable {s t : State}

/-! ### OBJ_UPDATE (R121, R122, R123) -/

theorem objWrite {p : Pkt} {o : Nat} (h : Inv s) : Inv (s.objWrite p o) := h.setCtx

theorem objUpdateDef_keeps : objUpdateDef.Keeps := fun h => .okOut (.foldl (fun _ h => h.objWrite) h)

/-! ### OBJ_RELEASE and OBJ_CLEAR_ALL (R123) -/

theorem release {n : Nat} (h : Inv s) : Inv (s.release n) := h.setCtx

theorem releaseAll {l : List Nat} (h : Inv s) : Inv (s.releaseAll l) := .foldl (fun _ h => h.release) h

theorem objReleaseDef_keeps : objReleaseDef.Keeps := fun h => .okOut h.releaseAll

theorem clearForce (h : Inv s) : Inv s.clearForce := h.parts

theorem objClearAllDef_keeps : objClearAllDef.Keeps := by
  intro j p s h
  dsimp -zeta only [objClearAllDef]
  extract_lets _ s₁
  have hs₁ : Inv s₁ := h.releaseAll
  exact .okOut (.ite hs₁.clearForce hs₁)

/-! ### FORCE_LEVEL (R138) -/

theorem forceLevelDef_keeps : forceLevelDef.Keeps := fun h => .okOut h.parts

/-! ### FALLBACK_ENTER and FALLBACK_EXIT (R139, R140) -/

theorem fallbackEnterDef_keeps : fallbackEnterDef.Keeps := fun h => .okOut h.evt.addCause

theorem fallbackExitDef_keeps : fallbackExitDef.Keeps := fun h => .okOut h.clearCauses

/-! ### The timeout scan (R127, R130, R138) -/

theorem ctxTimeout {n : Nat} {c : ObjCtx} (h : Inv s) : Inv (s.ctxTimeout n c) := h.release.bump.evt.addCause

theorem scanStale {n : Nat} {c : ObjCtx} {d : ℤ} (h : Inv s) : Inv (s.scanStale n c d) := .ite h.setCtx.evt h

theorem scanVisit {now : BitVec 48} {n : Nat} {c : ObjCtx} (h : Inv s) : Inv (s.scanVisit now n c) := by
  unfold State.scanVisit
  extract_lets _ s₁
  have hs₁ : Inv s₁ := h.scanStale
  exact .ite hs₁.ctxTimeout hs₁

theorem scanForce {now : BitVec 48} (h : Inv s) : Inv (s.scanForce now) := .ite h.clearForce.evt h

theorem scanRound (h : Inv s) : Inv s.scanRound := .scanForce (.foldl (fun _ h => h.scanVisit) h)

end Inv

end Sys2Proof.Machine
end

section
/-! PROOFS. The invariant is kept by Machine/Saddle.lean: Saddle. -/

namespace Sys2Proof.Machine

namespace Inv
variable {s t : State}

/-! ### Profiles and windows (R141 to R144) -/

theorem modProfile {g : Nat} {f : Profile → Profile} (h : Inv s) : Inv (s.modProfile g f) := h.parts

/-! ### Levels (R149) -/

theorem budgetLimit {zd unsc frame : Nat} (h : Inv s) : Inv (s.budgetLimit zd unsc frame) := .ite h h.parts.evt

theorem prioScaledEvt {zd : Nat} {zt : List Nat} {bt : ℤ} {frame : Nat} (h : Inv s) :
    Inv (s.prioScaledEvt zd zt bt frame) := by
  unfold State.prioScaledEvt
  extract_lets _ _ _ s₁
  have hs₁ : Inv s₁ := h.parts
  exact .ite hs₁.evt hs₁

theorem preraise {peak : Nat} (h : Inv s) : Inv (s.preraise peak) := .ite h.parts h

theorem makePlan {seam : Bool} (h : Inv s) : Inv (s.makePlan seam) := by
  unfold State.makePlan
  exact h.preraise.bump.parts.budgetLimit.prioScaledEvt

theorem govCompare {differs : Bool} (h : Inv s) : Inv (s.govCompare differs) := .ite h.parts.bump h

/-! ### The running check (R150) -/

theorem setContrib {sub g : Nat} {l : List Nat} (h : Inv s) : Inv (s.setContrib sub g l) := by
  unfold State.setContrib
  split
  · exact .ite h.parts h.parts
  · exact h.parts

theorem loadClamp {g q : Nat} (h : Inv s) : Inv (s.loadClamp g q) := by
  unfold State.loadClamp
  extract_lets _ _ _ s₂
  have hs₂ : Inv s₂ := h.bump.parts
  exact .ite hs₂.evt hs₂

theorem runningCheck {g sub slot : Nat} {ha : List Nat} (h : Inv s) : Inv (s.runningCheck g sub slot ha).1 := by
  unfold State.runningCheck
  extract_lets _ _ _ _ _ _ _ _ _ s₁
  have hs₁ : Inv s₁ := h.setContrib.modProfile
  dsimp only
  split
  · exact hs₁.loadClamp
  · exact hs₁

theorem commitRepeat {g sub : Nat} (h : Inv s) : Inv (s.commitRepeat g sub) := h.setContrib

theorem uncommit {g : Nat} {l : Ready} (h : Inv s) : Inv (s.uncommit g l) := h.modProfile

theorem commitDark {g sub : Nat} (h : Inv s) : Inv (s.commitDark g sub) := h.setContrib.modProfile

/-! ### The model gain (R152) -/

theorem kUpdate {measured : List Nat} (h : Inv s) : Inv (s.kUpdate measured) := by
  unfold State.kUpdate
  extract_lets _ _ _ _ s₁ _ _ _ _ _ s₂
  have hs₁ : Inv s₁ := h.parts
  have hs₂ : Inv s₂ := hs₁.parts
  exact .ite hs₁ (.ite hs₂.parts.evt hs₂)

theorem nextPlan (h : Inv s) : Inv s.nextPlan := h.parts

/-! ### The hard trip (R153, R154) -/

theorem halveDacs (h : Inv s) : Inv s.halveDacs := .foldl (fun _ h => h.modTile) h

theorem hardTrip {shuntMa : Nat} (h : Inv s) : Inv (s.hardTrip shuntMa) := by
  unfold State.hardTrip
  extract_lets _ _ _ _ _ _ s₄
  have hs₄ : Inv s₄ := h.parts.halveDacs.forceVfb.bump.evt.addCause
  exact .ite hs₄.addCause hs₄

/-! ### BUDGET_SET -/

theorem budgetSetDef_keeps : budgetSetDef.Keeps := by
  intro j p s h
  dsimp -zeta only [budgetSetDef]
  extract_lets _ _ s₁
  have hs₁ : Inv s₁ := h.budgetWrite.setLive.setLive
  exact .okOut (.ite hs₁.parts hs₁)

/-! ### SADDLE_STATUS -/

theorem saddleStatusDef_keeps : saddleStatusDef.Keeps := fun h => .okOut (.ite h.parts h)

end Inv

end Sys2Proof.Machine
end

section
/-! PROOFS. The invariant is kept by Machine/Diag.lean: pixel diagnostics. -/

namespace Sys2Proof.Machine

namespace Inv
variable {s t : State}

/-! ### The step counters (R67) -/

theorem maskCell {l y : Nat} (h : Inv s) : Inv (s.maskCell l y) := h.modRg

/-! ### Clusters (R237) -/

theorem cluster {l y : Nat} (h : Inv s) : Inv (s.cluster l y) := by
  unfold State.cluster
  extract_lets _ _ _ s₁ _ s1 s₂
  have hs₁ : Inv s₁ := h.latchFault
  have hs1 : Inv s1 := .ite (.ite hs₁.parts.evt hs₁) h
  have hs₂ : Inv s₂ := hs1.latchFault
  exact .ite (.ite hs₂.parts.evt hs₂) hs1

/-! ### Confirmations (R233) -/

theorem pixelFault {l y cls : Nat} {lit : Bool} (h : Inv s) : Inv (s.pixelFault l y cls lit) :=
  .ite h.parts.evt h.bump

theorem tellPasses {l y : Nat} (h : Inv s) : Inv (s.tellPasses l y) := h.parts

theorem confirm {l y cls : Nat} {lit : Bool} (h : Inv s) : Inv (s.confirm l y cls lit) :=
  h.maskCell.tellPasses.modTile.pixelFault.cluster.latchFault.degrade

theorem probeCell {l y res : Nat} {lit : Bool} (h : Inv s) : Inv (s.probeCell l y res lit) := by
  unfold State.probeCell
  extract_lets _ _ _ s1
  have hs1 : Inv s1 := .ite h h.setMapAt.parts
  exact .ite h (.ite hs1.confirm (.ite hs1.modTile hs1))

theorem probeRow {t row : Nat} {res : Nat → Nat} {lit : Nat → Bool} (h : Inv s) : Inv (s.probeRow t row res lit) := by
  unfold State.probeRow
  extract_lets _ _ _ _ _ _ s₁
  have hs₁ : Inv s₁ := h.bump.parts
  exact .ite (.ite hs₁.evt hs₁) (.foldl (fun _ h => h.probeCell) h.parts)

/-! ### DIAG_STATUS -/

theorem allTiles {f : Tile → Tile} (h : Inv s) : Inv (s.allTiles f) := .foldl (fun _ h => h.modTile) h

theorem diagStatusDef_keeps : diagStatusDef.Keeps := fun h => .okOut (.ite h.allTiles h)

/-! ### DIAG_MAP_READ -/

theorem diagMapReadDef_keeps : diagMapReadDef.Keeps := by
  intro j p s h
  dsimp -zeta only [diagMapReadDef]
  extract_lets r
  have hr : Inv r.1 := h.readLines
  exact .ite ⟨hr, id⟩ (.ite (.okOut hr) (.okOut hr))

/-! ### PIXEL_MASK -/

theorem readRect {r : Nat × Nat × Nat × Nat} (h : Inv s) : Inv (s.readRect r).1 := .iteFst h h.readEach

theorem mapRect {r : Nat × Nat × Nat × Nat} {f : Nat → Nat} (h : Inv s) : Inv (s.mapRect r f).1 :=
  .foldlFst (fun _ h => .iteFst h h.setMapAt) h

theorem pixelMaskDef_keeps : pixelMaskDef.Keeps := by
  intro j p s h
  dsimp -zeta only [pixelMaskDef]
  extract_lets _ s₁
  have hs₁ : Inv s₁ := h.readRect
  exact .ite ⟨hs₁, id⟩ (.okOut hs₁.mapRect)

/-! ### FAULT_CLEAR (R250) -/

theorem clearExtras {mask : Nat} (h : Inv s) : Inv (s.clearExtras mask) := by
  unfold State.clearExtras
  extract_lets _ s₁
  have hs₁ : Inv s₁ := .ite h.parts h
  exact .ite hs₁.parts hs₁

theorem faultClearDef_keeps : faultClearDef.Keeps := by
  intro j p s h
  dsimp -zeta only [faultClearDef]
  extract_lets _ s₁ _ _ s₃
  have hs₁ : Inv s₁ := .iteFst h.readRect h
  have hs₃ : Inv s₃ := hs₁.clearExtras.clearCauses.parts
  exact .ite ⟨hs₁, id⟩ (.okOut (.iteFst hs₃.mapRect hs₃))

/-! ### FAULT_CONFIG -/

theorem faultConfigDef_keeps : faultConfigDef.Keeps := fun h => .okOut h.writeEntries

end Inv

end Sys2Proof.Machine
end

section
/-! PROOFS. The invariant is kept by Machine/Calib.lean: calibration. -/

namespace Sys2Proof.Machine

namespace Inv
variable {s t : State}

/-! ### Taking the image at start-up (R235, R257, R258) -/

theorem fillTile {c t : Nat} (h : Inv s) : Inv (s.fillTile c t) := .foldl (fun _ h => h.setSram.setSram) h

theorem setBoth {id v : Nat} (h : Inv s) : Inv (s.setBoth id v) := h.setLive.setShadow

theorem fillMap {c : Nat} (h : Inv s) : Inv (s.fillMap c) := .foldl (fun _ h => h.setMapAt) h

theorem fillFrom {c : Nat} (h : Inv s) : Inv (s.fillFrom c) :=
  .parts (.fillMap (.setLive (.foldl (fun _ h => h.setLive) (.foldl (fun _ h => h.fillTile.setBoth) h))))

theorem findBuild (h : Inv s) : Inv s.findBuild := h.parts

theorem takeImage (h : Inv s) : Inv s.takeImage := by
  unfold State.takeImage
  extract_lets s₁ c _ _ _ _ s₂ s₃
  have hs₁ : Inv s₁ := h.readSpan
  have hs₂ : Inv s₂ := hs₁.parts
  have hs₃ : Inv s₃ := by
    dsimp only [s₃]
    clear_value s₂ c
    split
    · exact hs₂.fillFrom
    · exact hs₂
  exact hs₃.findBuild.evt

/-! ### Step trims (R259) -/

theorem calTrim {t d : Nat} (h : Inv s) : Inv (s.calTrim t d) := by
  unfold State.calTrim
  dsimp only
  split
  · split
    · exact h.evt
    · exact h.freeW.evt
  · exact .ite h.evt h

theorem applyTrims {dac : List Nat} {cmp : List (List Nat)} (h : Inv s) : Inv (s.applyTrims dac cmp) :=
  .foldl (fun _ h => h.modTile.calTrim) h

theorem writeAllTrims (h : Inv s) : Inv s.writeAllTrims := h.readSpan.parts

/-! ### Sweeps (R261) -/

theorem modSweep {t : Nat} {f : Sweep → Sweep} (h : Inv s) : Inv (s.modSweep t f) := h.parts

theorem endSweep {t : Nat} (h : Inv s) : Inv (s.endSweep t) := by
  unfold State.endSweep
  extract_lets _ _ _ s1
  have hs1 : Inv s1 := h.modSweep
  exact .ite h (.ite (.ite hs1.evt hs1) h.modSweep)

theorem startSweeps (h : Inv s) : Inv s.startSweeps := by
  unfold State.startSweeps
  extract_lets s₁
  have hs₁ : Inv s₁ := .foldl (fun _ h => h.modSweep) h
  exact .ite hs₁.parts hs₁

theorem endSweeps (h : Inv s) : Inv s.endSweeps := by
  unfold State.endSweeps
  extract_lets s₁
  have hs₁ : Inv s₁ := .foldl (fun _ h => h.endSweep) h
  exact .ite hs₁.parts hs₁

theorem spoilSweeps (h : Inv s) : Inv s.spoilSweeps := .foldl (fun _ h => h.modSweep) h

/-! ### The notch row access (R75, R229 to R236, R260 to R263, R299) -/

theorem measureCell {t l y rho : Nat} (h : Inv s) : Inv (s.measureCell t l y rho) := by
  unfold State.measureCell
  dsimp only
  split
  · exact h.bump
  · split
    · exact h
    · split
      · exact .ite h.modSweep h.modSweep.setSram.bump
      · exact h.modSweep

theorem accessCell {l y : Nat} (h : Inv s) : Inv (s.accessCell l y) := h.parts

theorem accessRow {pr : TileProbe} {t row k0 : Nat} (h : Inv s) : Inv (s.accessRow pr t row k0) := by
  unfold State.accessRow
  extract_lets _ _ _ _ s₁ s₂ s₃
  have hs₁ : Inv s₁ := h.readSpan
  have hs₂ : Inv s₂ := .ite hs₁ hs₁.readSpan
  have hs₃ : Inv s₃ := .ite hs₂ (.foldl (fun _ h => h.measureCell) hs₂)
  exact .foldl (fun _ h => h.accessCell) (.ite hs₃ hs₃.probeRow)

theorem checkRef {t ref : Nat} (h : Inv s) : Inv (s.checkRef t ref) := by
  unfold State.checkRef
  extract_lets _ _ _ s₂
  have hs₂ : Inv s₂ := h.modTest.modTile
  exact .ite h (.ite hs₂.mark.modTest.evt hs₂)

theorem setFlags {low : List Nat} (h : Inv s) : Inv (s.setFlags low) := .ite h.parts h.parts

theorem notchAccess {probes : List TileProbe} {low : List Nat} (h : Inv s) : Inv (s.notchAccess probes low) := by
  unfold State.notchAccess
  extract_lets _ s₁ _ s₃
  have hs₁ : Inv s₁ := h.setFlags
  have hs₃ : Inv s₃ := .foldl (fun _ h => .checkRef (.accessRow (.accessRow (.ite h.modSweep h))))
    (.ite hs₁.startSweeps hs₁)
  exact .ite h (.ite hs₃.endSweeps hs₃)

/-! ### What a build writes (R252 to R256, R264, R265) -/

theorem queueBytes {a : Nat} {l : List Byte} (h : Inv s) : Inv (s.queueBytes a l) := h.queueLines

/-! ### CAL_SWEEP step by step (R265, R266) -/

theorem jobWrites {b : Job} {a : Nat} {l : List Byte} (h : Inv s) : Inv (s.jobWrites b a l) := by
  unfold State.jobWrites
  extract_lets r
  have hr : Inv r.1 := h.readParts
  exact .ite hr.queueBytes.modJob hr.endJob

theorem calSweepStep {b : Job} {tiles : Half} {resume : Bool} {id : Nat} (h : Inv s) :
    Inv (s.calSweepStep b tiles resume id) := by
  unfold State.calSweepStep
  extract_lets _ s₁ _ _ _ _ r
  have hs₁ : Inv s₁ := h.parts
  have hr : Inv r.1 := h.abortMrams.readLines
  exact .ite (.ite hs₁.endJob hs₁.jobStep) (.ite h.freeW.jobWrites (.ite hr.endJob hr.jobWrites))

theorem calSweepDone {b : Job} {resume : Bool} (h : Inv s) : Inv (s.calSweepDone b resume) :=
  .ite h.parts.jobStep (.ite h.endJob h.jobStep)

/-! ### CAL_COMMIT step by step (R267) -/

theorem calCommitStep {b : Job} {expect : Word} (h : Inv s) : Inv (s.calCommitStep b expect) := by
  unfold State.calCommitStep
  extract_lets _ r r₁
  have hr : Inv r.1 := h.abortMrams.readLines
  have hr₁ : Inv r₁.1 := h.readLines
  split
  · exact .ite hr.endJob (.ite hr.endJob hr.jobStep)
  · exact h.jobWrites
  · exact .ite hr₁.endJob (.ite hr₁.endJob hr₁.jobWrites)
  · exact h.queueBytes.queueBytes.modJob

theorem calCommitDone {b : Job} (h : Inv s) : Inv (s.calCommitDone b) := .ite h.jobStep h.parts.endJob

theorem serveCal_inv {op : Nat} {d : OpDef} {p : Pkt} {gap : Bool} (hd : d.Keeps) (h : Inv s) :
    Inv (serveCal op d p gap s) :=
  .ite h.putBack (serveOp_inv hd h)

/-! ### CAL_SWEEP -/

theorem calSweepDef_keeps : calSweepDef.Keeps := fun h => .ite ⟨h.parts, id⟩ h.startJob

/-! ### CAL_COMMIT -/

theorem calCommitDef_keeps : calCommitDef.Keeps := fun h => h.startJob

/-! ### CAL_STATUS (R269) -/

theorem calStatusDef_keeps : calStatusDef.Keeps := fun h => .okOut h

/-! ### CAL_ABORT -/

theorem stopStore {b : Job} {status : Nat} (h : Inv s) : Inv (s.stopStore b status) := by
  unfold State.stopStore
  extract_lets s₁
  have hs₁ : Inv s₁ := by unfold s₁; split; exacts [h, .ite h.writeMram.memParts h]
  exact hs₁.parts.findBuild.endJob

theorem discardBuild (h : Inv s) : Inv s.discardBuild.1 := by
  unfold State.discardBuild
  extract_lets _ r
  have hr : Inv r.1 := h.abortMram.readParts
  exact .iteFst hr.setMram.findBuild hr

theorem calAbortDef_keeps : calAbortDef.Keeps := by
  intro j p s h
  dsimp -zeta only [calAbortDef]
  extract_lets x _ d
  have hx : Inv x.1 := by unfold x; split; exacts [h.stopStore, h]
  have hd : Inv d.1 := hx.discardBuild
  exact .ite (.ite (.okOut hd) ⟨hd, id⟩) (.okOut hx)

/-! ### FLUX_WRITE -/

theorem readRows {p : Pkt} (h : Inv s) : Inv (s.readRows p).1 := .iteFst h (.foldlFst (fun _ h => h.readParts) h)

theorem fluxWriteDef_keeps : fluxWriteDef.Keeps := by
  intro j p s h
  dsimp -zeta only [fluxWriteDef]
  extract_lets _ _ x
  have hx : Inv x.1 := h.readRows
  exact .ite ⟨h, id⟩ (.ite ⟨hx, id⟩ (.okOut (.foldl (fun _ h => h.writeSram) hx)))

end Inv

end Sys2Proof.Machine
end

section
/-! PROOFS. The invariant is kept by Machine/Integrity.lean: memory integrity. -/

namespace Sys2Proof.Machine

namespace Inv
variable {s t : State}

theorem abortCvu {u : Nat} (h : Inv s) : Inv (s.abortCvu u) := h.abortSlice

/-! ### Check-value units (R285, R286) -/

theorem setCvu {u : Nat} {c : Cvu} (h : Inv s) : Inv (s.setCvu u c) := h.memParts

/-! ### MEM_READ -/

theorem memReadDef_keeps : memReadDef.Keeps := by
  intro j p s h
  dsimp -zeta only [memReadDef]
  extract_lets _ _ r
  have hr : Inv r.1 := .readLines (.abortMrams (.ite h.abortCvu h))
  split
  · exact ⟨hr, id⟩
  · exact .okOut hr

/-! ### MEM_WRITE -/

theorem memWriteDef_keeps : memWriteDef.Keeps := by
  intro j p s h
  dsimp -zeta only [memWriteDef]
  extract_lets s₁ _ r
  have hs₁ : Inv s₁ := .ite h.abortCvu h
  have hr : Inv r.1 := hs₁.readParts
  exact .ite ⟨hs₁, id⟩ (.ite (.okOut hr.writeSram) ⟨hr, id⟩)

/-! ### CVU_CONFIG -/

theorem cvuConfigDef_keeps : cvuConfigDef.Keeps := fun h => .okOut h.abortCvu.setCvu

/-! ### CVU_RUN and CVU_DONE -/

theorem cvuRunDef_keeps : cvuRunDef.Keeps := fun h => h.abortCvu.setCvu.startJob

theorem readPieces {n : Nat} {l : List (Nat × Nat)} (h : Inv s) : Inv (s.readPieces n l).1 := by
  induction l generalizing s n with
  | nil => exact h
  | cons x r ih => exact .iteFst (ih h.abortMram.readLine) h.abortMram.readLine

theorem endRun {u : Nat} {b : Job} {status result bytes : Nat} (h : Inv s) :
    Inv (s.endRun u b status result bytes) :=
  h.setCvu.evt.endJob

theorem finishRun {u : Nat} {b : Job} {r : CvuRun} (h : Inv s) : Inv (s.finishRun u b r) := by
  unfold State.finishRun
  extract_lets x _ _ y
  have hx : Inv x.1 := h.readPieces
  have hy : Inv y.1 := hx.readParts
  exact .ite hx.freeW.endRun (.ite hx.endRun (.ite (.ite hy.writeSram.endRun hy.endRun) hx.endRun))

theorem cvuDone {u : Nat} (h : Inv s) : Inv (s.cvuDone u) := by
  unfold State.cvuDone
  split
  · exact .ite h h.finishRun
  · exact h

/-! ### ERRLOG_READ -/

/-- The error table can be emptied. -/
theorem clearTable (h : Inv s) : Inv { s with mem := { s.mem with table := [] } } :=
  h.setTable ⟨rfl, rfl⟩ rfl (Nat.zero_le _) List.nodup_nil

theorem errlogReadDef_keeps : errlogReadDef.Keeps := fun h =>
  .okOut (.ite h.ringsWritten.clearTable h.ringsWritten)

/-! ### Talus (R281 to R283) -/

theorem refresh {a : Nat} (h : Inv s) : Inv (s.refresh a) := by
  unfold State.refresh
  extract_lets _ s₁
  have hs₁ : Inv s₁ := h.memParts
  exact .ite h (.ite hs₁.memParts hs₁.bump)

theorem lapEnd {k ms limit : Nat} (h : Inv s) : Inv (s.lapEnd k ms limit) := .ite h.evt h

theorem talusSram {o : LineRead} (h : Inv s) : Inv (s.talusSram o) := by
  unfold State.talusSram
  extract_lets _ s₁
  have hs₁ : Inv s₁ := h.arise.readLine
  exact .ite hs₁.memParts hs₁.memParts.lapEnd

theorem talusMram {o : LineRead} (h : Inv s) : Inv (s.talusMram o) := by
  unfold State.talusMram
  extract_lets _ _ s₁ s₂
  have hs₁ : Inv s₁ := h.arise.abortMram.readLine
  have hs₂ : Inv s₂ := .ite hs₁.refresh hs₁
  exact .ite hs₂.memParts hs₂.memParts.lapEnd

/-! ### Repairs (R278) -/

theorem repairGood {a : Nat} (h : Inv s) : Inv (s.repairGood a) := by
  unfold State.repairGood
  extract_lets s₁ _ s₂ s₃
  have hs₁ : Inv s₁ := h.abortMram.restoreLine
  have hs₂ : Inv s₂ := hs₁.mapTable (fun e => by split <;> rfl) rfl
  have hs₃ : Inv s₃ := hs₂.bump.evt
  exact .ite hs₃.evt.degrade hs₃

theorem repairBad {a : Nat} (h : Inv s) : Inv (s.repairBad a) := h.bump.reportLost

theorem repairFront {sourceGood : Bool} (h : Inv s) : Inv (s.repairFront sourceGood) := by
  unfold State.repairFront
  split
  · exact h
  · next a r hr =>
    extract_lets _ s₁ v
    have hrepair : (a :: r).length ≤ 64 := hr ▸ h.repair
    have honce : (a :: r).Nodup := hr ▸ h.once
    have hs₁ : Inv s₁ := { h with repair := (Nat.le_succ _).trans hrepair, once := (List.nodup_cons.mp honce).2 }
    have hv : Inv v.1 := .iteFst hs₁.verifyLine hs₁
    exact .ite h (.ite (.ite hv.repairGood hv.repairBad) hs₁.repairBad)

/-! ### Verified MRAM writes and remaps (R284) -/

theorem writesDone {b : Job} (h : Inv s) : Inv (s.writesDone b) := by
  unfold State.writesDone
  split
  · exact h.calSweepDone
  · exact h.calCommitDone
  · exact h.jobStep

theorem writeLost {w : LineWrite} (h : Inv s) : Inv (s.writeLost w) := by
  unfold State.writeLost
  extract_lets _ s₁
  have hs₁ : Inv s₁ := h.memParts.writeFails
  split
  · extract_lets s₂
    have hs₂ : Inv s₂ := by unfold s₂; split; exacts [hs₁.parts, hs₁]
    exact hs₂.endJob
  · exact hs₁

theorem lineStands {w : LineWrite} {r : List LineWrite} (h : Inv s) : Inv (s.lineStands w r) := by
  unfold State.lineStands
  extract_lets _ _ s₂ t
  have hs₂ : Inv s₂ := h.writeMram.memParts
  have ht : Inv t := by unfold t; split; exacts [hs₂.writesDone, hs₂]
  exact .ite ht.findBuild ht

theorem lineWritten {verified : Bool} (h : Inv s) : Inv (s.lineWritten verified) := by
  unfold State.lineWritten
  split
  · exact h
  · extract_lets s₁
    have hs₁ : Inv s₁ := h.abortMram
    split
    · exact hs₁.lineStands
    · split
      · exact hs₁.memParts
      · split
        · exact hs₁.memParts.remapSector
        · exact hs₁.writeLost

/-! ### SCRUB_STATUS -/

theorem scrubStatusDef_keeps : scrubStatusDef.Keeps := fun h => .okOut h

end Inv

end Sys2Proof.Machine
end

section
/-! PROOFS. The invariant is kept by Machine/Pixel.lean: pixel drive. -/

namespace Sys2Proof.Machine

namespace Inv
variable {s t : State}

/-! ### A pass begins (R20, R24, R95, R105, R130) -/

theorem readCtx {a : Nat} (h : Inv s) : Inv (s.readCtx a) := by
  unfold State.readCtx
  extract_lets r
  have hr : Inv r.1 := h.readLine
  exact .ite hr (.ite (.ite hr.ctxTimeout hr) hr.parts)

theorem readContexts (h : Inv s) : Inv s.readContexts := .foldl (fun _ h => h.readCtx) h

theorem excuse {g : Nat} {subs : List Nat} (h : Inv s) : Inv (s.excuse g subs) := h.modRg

theorem beginPass {tok : Token} (h : Inv s) : Inv (s.beginPass tok) := h.readContexts.parts

theorem startToken {g : Nat} (h : Inv s) : Inv (s.startToken g) := by
  unfold State.startToken
  extract_lets _ _ s₁ _ _ _ s₂
  have hs₁ : Inv s₁ := h.modRg
  have hs₂ : Inv s₂ := .ite hs₁.excuse.bump hs₁
  exact .ite h (.ite hs₁ (.ite hs₁.excuse (.ite hs₂.parts hs₂.beginPass)))

theorem nextToken {t : Nat} (h : Inv s) : Inv (s.nextToken t) := by
  unfold State.nextToken
  split
  · exact h
  · exact .ite h.parts h.parts.beginPass

/-! ### What a pass reads (R112, R273 to R275) -/

theorem substitute {tile a : Nat} (h : Inv s) : Inv (s.substitute tile a) := .ite h.bump h.substEvt.parts

theorem passLost {tile a : Nat} (h : Inv s) : Inv (s.passLost tile a).1 := by
  unfold State.passLost
  extract_lets s₁
  have hs₁ : Inv s₁ := h.substitute
  split
  · exact hs₁.readLine
  · exact hs₁

theorem passReads {ps : Pass} (h : Inv s) : Inv (s.passReads ps).1 :=
  .foldlFst (fun _ h => .iteFst h.readLine h.readLine.passLost) h

/-! ### A pass completes -/

theorem passProfile {g ctrl : Nat} {l : List Staged} (h : Inv s) : Inv (s.passProfile g ctrl l) := h.modProfile

theorem passCodes {ps : Pass} {hh : Half2} {second : Bool} {q : Option Nat} {l : List Staged} (h : Inv s) :
    Inv (s.passCodes ps hh second q l).1 := by
  unfold State.passCodes
  extract_lets _ _ _ _ _ _ _ _ _ _ r
  have hr : Inv r.1 := by unfold r; split; exacts [h, h.runningCheck]
  exact hr.bump.modTile

theorem recordSlack {t slotClk : Nat} (h : Inv s) : Inv (s.recordSlack t slotClk) := h.modTile

theorem readyFirst {ps : Pass} {l : List Staged} (h : Inv s) : Inv (s.readyFirst ps l).1 :=
  .iteFst h.passCodes.modRg h

theorem readySecond {ps : Pass} {q : Option Nat} {l : List Staged} (h : Inv s) : Inv (s.readySecond ps q l) :=
  .ite h.passCodes.modRg h

theorem passDone {t : Nat} {ps : Pass} (h : Inv s) : Inv (s.passDone t ps) := by
  unfold State.passDone
  extract_lets _ _ _ _ _ _ _ s₂
  have hs₂ : Inv s₂ := h.passReads.parts
  exact .parts (.readySecond (.readyFirst (.recordSlack (.ite hs₂.passProfile (.ite hs₂.passProfile hs₂)))))

/-! ### The limp loader and held tiles (R116, R117, R18) -/

theorem pipeResetEnd (h : Inv s) : Inv s.pipeResetEnd := .ite h.clearCauses h

theorem limpDone (h : Inv s) : Inv s.limpDone := .ite h.evt.parts.pipeResetEnd h

theorem limpFail {t : Nat} (h : Inv s) : Inv (s.limpFail t) := .ite h h.latchFault.evt.parts.limpDone

theorem limpTile {t : Nat} (h : Inv s) : Inv (s.limpTile t) := .ite h h.limpRequest.parts

/-! ### Scan faults and Spur (R244, R297, R298) -/

theorem spurMove {n : SpurState} {why : Nat} (h : Inv s) : Inv (s.spurMove n why) := h.parts.evt

theorem setLoader {t : Nat} {l : Loader} (h : Inv s) : Inv (s.setLoader t l) := h.modTile

theorem markTest {type target bit : Nat} (h : Inv s) : Inv (s.markTest type target bit) := h.mark.modTest

theorem freshLoads {t : Nat} (h : Inv s) : Inv (s.freshLoads t) := .foldl (fun _ h => h.modRg) h

theorem spurTakes {t g : Nat} (h : Inv s) : Inv (s.spurTakes t g) :=
  h.markTest.latchFault.freshLoads.setLoader.evt.spurMove.degrade

theorem holdTile {t g : Nat} (h : Inv s) : Inv (s.holdTile t g) :=
  h.markTest.latchFault.freshLoads.setLoader.evt.addCause.limpTile

theorem ownFault {t g : Nat} (h : Inv s) : Inv (s.ownFault t g) := by
  unfold State.ownFault
  split
  · exact h.spurTakes
  · exact h.abortSlice.spurTakes
  · exact h.abortSlice.setLoader.freshLoads.spurTakes
  · exact h.holdTile

theorem spurFault {t g : Nat} (h : Inv s) : Inv (s.spurFault t g) := by
  unfold State.spurFault
  extract_lets _ _ s₂
  have hs₂ : Inv s₂ := h.abortSlice.markTest.latchFault.spurMove
  exact .ite hs₂.setLoader.freshLoads hs₂.holdTile

theorem scanFault {t g : Nat} (h : Inv s) : Inv (s.scanFault t g) := by
  unfold State.scanFault
  split
  · exact h.ownFault
  · exact h.spurFault
  · exact h

/-! ### The load deadline (R22, R70, R234) -/

theorem loadPending {g : Nat} {l : Ready} {parityBad : Bool} (h : Inv s) : Inv (s.loadPending g l parityBad) := by
  unfold State.loadPending
  extract_lets s₁ s₂
  have hs₁ : Inv s₁ := h.modRg
  have hs₂ : Inv s₂ := hs₁.modRg.uncommit.commitRepeat
  exact .ite (.ite hs₂.scanFault hs₂) hs₁.modRg

theorem abandon {g sub : Nat} (h : Inv s) : Inv (s.abandon g sub) := by
  unfold State.abandon
  extract_lets _ _ _ s₁
  have hs₁ : Inv s₁ := h.parts
  exact .ite hs₁.nextToken hs₁

theorem late {g sub : Nat} (h : Inv s) : Inv (s.late g sub) := by
  unfold State.late
  extract_lets _ _ _ s₁
  have hs₁ : Inv s₁ := h.bump.modTile
  exact .ite hs₁.evt hs₁

theorem limpPending {g sub : Nat} (h : Inv s) : Inv (s.limpPending g sub) := h.modRg

theorem deadline {g : Nat} {parityBad : Bool} (h : Inv s) : Inv (s.deadline g parityBad) := by
  unfold State.deadline
  extract_lets _ _ s₁
  have hs₁ : Inv s₁ := h.abandon
  split
  · exact .ite h.limpFail h.limpPending
  · split
    · exact h.commitDark
    · split
      · exact h.abandon
      · split
        · exact .ite h.uncommit.commitRepeat h.loadPending
        · exact .ite hs₁.commitRepeat hs₁.late.commitRepeat

/-! ### The slot start (R67, R70, R73) -/

theorem transfer {g : Nat} {l : Ready} (h : Inv s) : Inv (s.transfer g l) := by
  unfold State.transfer
  extract_lets _ s₁ _ _ s₂
  have hs₁ : Inv s₁ := h.modRg
  have hs₂ : Inv s₂ := .ite hs₁.parts hs₁
  exact .ite hs₂.parts hs₂

theorem limpTransfer {g : Nat} {l : Ready} (h : Inv s) : Inv (s.limpTransfer g l) := h.modRg.parts.limpDone

theorem restart {g : Nat} (h : Inv s) : Inv (s.restart g) := h.modRg

theorem slotStart {g : Nat} (h : Inv s) : Inv (s.slotStart g) := by
  unfold State.slotStart
  extract_lets s₁ _ s₂
  have hs₁ : Inv s₁ := h.restart
  have hs₂ : Inv s₂ := .ite hs₁.modRg hs₁
  split
  · exact hs₁.modRg
  · split
    · split
      · exact .ite hs₂.limpTransfer hs₂
      · exact hs₂
    · split
      · exact hs₂
      · split
        · exact .ite hs₂.transfer hs₂.modRg
        · exact .ite hs₂.modRg hs₂

/-! ### The notch end (R75, R80 to R82, R95, R152, R338) -/

theorem compliance (h : Inv s) : Inv s.compliance := by
  unfold State.compliance
  extract_lets _ _ _ _ _ _ _ _ _ s₃
  have hs₃ : Inv s₃ := .parts (.foldl (fun _ h => h.modTile) h.bump)
  exact .ite hs₃.evt hs₃

theorem vfbLoop {f : Nat} (h : Inv s) : Inv (s.vfbLoop f) := .ite h.parts (.ite h.parts h.parts)

theorem vfbTick (h : Inv s) : Inv s.vfbTick := .ite h.parts.vfbRelease (.ite h.vfbLoop h)

theorem stressTick {measured : List Nat} (h : Inv s) : Inv (s.stressTick measured) := h.parts

theorem nextSub (h : Inv s) : Inv s.nextSub := h.parts

theorem notchEnd {measured : List Nat} (h : Inv s) : Inv (s.notchEnd measured) :=
  .ite h.nextPlan.nextSub h.compliance.vfbTick.stressTick.kUpdate.nextPlan.bendTick.nextSub

/-! ### TILE_REF_SET -/

theorem tileRefSetDef_keeps : tileRefSetDef.Keeps := fun h => .okOut h.writeEntries

/-! ### DRIVE_STATUS -/

theorem driveStatusDef_keeps : driveStatusDef.Keeps := fun h => .okOut h.allTiles

end Inv

end Sys2Proof.Machine
end

section
/-! PROOFS. The invariant is kept by Machine/Link.lean: the Plokam Link above its blocks. -/

namespace Sys2Proof.Machine

namespace Inv
variable {s t : State}

/-! ### Lanes -/

theorem retrainEvt {l : Lane} {kind what : Nat} (h : Inv s) : Inv (s.retrainEvt l kind what) := h.evt

theorem linkCut (h : Inv s) : Inv s.linkCut := by
  unfold State.linkCut
  extract_lets s₁
  have hs₁ : Inv s₁ := .ite h.bump h
  exact .parts (.ite hs₁.bump hs₁)

theorem laneDown {l : Lane} {cause : Nat} (h : Inv s) : Inv (s.laneDown l cause) := by
  unfold State.laneDown
  extract_lets _ s₁ s₂ s₃
  have hs₁ : Inv s₁ := .ite h.retrainEvt h
  have hs₂ : Inv s₂ := .ite hs₁ hs₁.retrainEvt
  have hs₃ : Inv s₃ := .ite hs₂.retrainEvt hs₂
  exact .evt (.setLane (.ite hs₃.linkCut hs₃))

theorem startTrain {l : Lane} (h : Inv s) : Inv (s.startTrain l) := by
  unfold State.startTrain
  exact h.abortSlice.modLane

theorem tryTrain {l : Lane} (h : Inv s) : Inv (s.tryTrain l) := .ite h.startTrain h

theorem leaveTrain {l : Lane} (h : Inv s) : Inv (s.leaveTrain l) := .ite h.setLane h

/-! ### ACTIVE -/

theorem laneActive {l : Lane} (h : Inv s) : Inv (s.laneActive l) := by
  unfold State.laneActive
  extract_lets _ _ s₂
  have hs₂ : Inv s₂ := h.setLane.joinReturn
  exact .ite hs₂.retrainEvt hs₂.evt

theorem capsIn {l : Lane} {b : List Byte} (h : Inv s) : Inv (s.capsIn l b) := by
  unfold State.capsIn
  extract_lets _ _ _ _ s₁
  have hs₁ : Inv s₁ := h.setLane
  exact .ite hs₁.laneActive hs₁

theorem locked {l : Lane} (h : Inv s) : Inv (s.locked l) := .ite h.laneActive h.setLane

/-! ### Adaptation and eyes (R176 to R179) -/

theorem eyeLowEvt {l : Lane} {sev k : Nat} (h : Inv s) : Inv (s.eyeLowEvt l sev k) := .ite h.setLane.evt h

theorem askRetrain {l : Lane} (h : Inv s) : Inv (s.askRetrain l) := .ite h h.modLane.retrainEvt

theorem eyeAction {l : Lane} {k : Nat} (h : Inv s) : Inv (s.eyeAction l k) :=
  .ite h.askRetrain (.ite (.ite h (.ite h.setLane.eyeLowEvt h.setLane)) h.eyeLowEvt)

/-! ### Control blocks on the forward direction (R165, R167, R178 to R180) -/

theorem returnTrained {l : Lane} (h : Inv s) : Inv (s.returnTrained l) := by
  unfold State.returnTrained
  extract_lets _ _ s₁
  have hs₁ : Inv s₁ := h.setLane.joinReturn
  exact .ite (.ite hs₁.retrainEvt hs₁) h

theorem retrainReturn {l : Lane} (h : Inv s) : Inv (s.retrainReturn l) := .ite h h.modLane.retrainEvt

theorem idleIn {l : Lane} {code : Nat} (h : Inv s) : Inv (s.idleIn l code) := by
  unfold State.idleIn
  split
  · exact h.modLane
  · exact h.modLane
  · exact h.returnTrained
  · exact h.retrainReturn
  · exact h

theorem trainActive {l : Lane} {b : List Byte} (h : Inv s) : Inv (s.trainActive l b) := by
  unfold State.trainActive
  extract_lets _ s₁ s₂
  have hs₁ : Inv s₁ := h.bump.setLane
  have hs₂ : Inv s₂ := .ite h.setLane.retrainEvt h
  exact .ite (.ite hs₁ hs₁.linkCut) (.ite (.ite hs₂.bump.modLane.retrainEvt hs₂.modLane) (.ite h.setLane h))

theorem trainIn {l : Lane} {b : List Byte} (h : Inv s) : Inv (s.trainIn l b) := by
  unfold State.trainIn
  dsimp only
  split
  · exact h
  · exact h.setLane.leaveTrain
  · exact h.trainActive
  · exact .ite h.setLane h

/-! ### LINK_STATUS -/

theorem linkStatusDef_keeps : linkStatusDef.Keeps := fun h => .okOut h

/-! ### LINK_RETRAIN -/

theorem linkRetrain {l : Lane} {kind : Nat} (h : Inv s) : Inv (s.linkRetrain l kind) := by
  unfold State.linkRetrain
  extract_lets _ s₂
  have hs₂ : Inv s₂ := h.modLane.abortSlice
  split
  · exact hs₂.askRetrain
  · exact .ite hs₂.laneDown hs₂
  · exact hs₂.retrainReturn

theorem linkRetrainDef_keeps : linkRetrainDef.Keeps := fun h => ⟨h, fun h => h.replyLeaves.linkRetrain⟩

/-! ### LANE_MODE (R174) -/

theorem laneUnder {was : Bool} {l : Lane} (h : Inv s) : Inv (s.laneUnder was l) :=
  .ite h.setLane (.ite h.setLane.abortSlice h)

theorem laneMode {m : Nat} (h : Inv s) : Inv (s.laneMode m) := by
  unfold State.laneMode
  extract_lets _ _ _ _ s₂
  have hs₂ : Inv s₂ := h.setLive.laneUnder.laneUnder
  exact .ite hs₂.linkCut hs₂.parts

theorem laneModeDef_keeps : laneModeDef.Keeps := fun h => ⟨h, fun h => h.replyLeaves.laneMode⟩

/-! ### EYE_READ -/

theorem eyeReadDef_keeps : eyeReadDef.Keeps := fun h => .okOut h

end Inv

end Sys2Proof.Machine
end

section
/-! PROOFS. The invariant is kept by Machine/Strings.lean: string channels and Crest. -/

namespace Sys2Proof.Machine

namespace Inv
variable {s t : State}

/-! ### Faults (R218 to R220, R228) -/

theorem strFault {n pos kind mv : Nat} (h : Inv s) : Inv (s.strFault n pos kind mv) := h.latchFault.bump.evt

theorem posFault {n p kind mv : Nat} (h : Inv s) : Inv (s.posFault n p kind mv) := .ite h h.modChan.strFault

theorem openCheck {n mv : Nat} (h : Inv s) : Inv (s.openCheck n mv) := by
  unfold State.openCheck
  extract_lets _ s₁
  have hs₁ : Inv s₁ := h.modChan
  exact .ite h (.ite hs₁ hs₁.strFault)

theorem markOpen {n p mv : Nat} (h : Inv s) : Inv (s.markOpen n p mv) := h.modChan.posFault.openCheck

theorem samplePos {n p : Nat} {v : StrSample} (h : Inv s) : Inv (s.samplePos n p v) := by
  unfold State.samplePos
  extract_lets _ _ _ s₁ _ s₂
  have hs₁ : Inv s₁ := h.modChan
  have hs₂ : Inv s₂ := .ite hs₁.modChan.posFault hs₁
  exact .ite hs₂.modChan.posFault hs₂

theorem sampleAll {l : List StrSample} (h : Inv s) : Inv (s.sampleAll l) :=
  .foldl (fun _ h => .ite (.foldl (fun _ h => h.samplePos) h) h) h

/-! ### Levels and edges (R214 to R217) -/

theorem chanPeriod {n : Nat} (h : Inv s) : Inv (s.chanPeriod n) := by
  unfold State.chanPeriod
  extract_lets s₁ s₂
  have hs₁ : Inv s₁ := h.modChan
  have hs₂ : Inv s₂ := .ite hs₁.openCheck hs₁
  exact .ite hs₂.modChan.bump hs₂.modChan

/-! ### STR_CONFIG -/

theorem strConfigDef_keeps : strConfigDef.Keeps := fun h => .okOut h.modChan

/-! ### STR_LEVEL -/

theorem strLevelDef_keeps : strLevelDef.Keeps := fun h => .okOut h.modChan

theorem seamLevels (h : Inv s) : Inv s.seamLevels := .foldl (fun _ h => .ite h h.modChan) h

/-! ### STR_STATUS -/

theorem strStatusDef_keeps : strStatusDef.Keeps := fun h => .okOut h

/-! ### Crest programs (R224, R225) -/

theorem crestRun {i : Nat} (h : Inv s) : Inv (s.crestRun i) := by
  unfold State.crestRun
  dsimp only
  split
  · exact h.modCrest
  · exact h.modCrest.evt
  · exact h.modCrest.evt

theorem crestTick {i : Nat} (h : Inv s) : Inv (s.crestTick i) := by
  unfold State.crestTick
  extract_lets _ _ s₁
  have hs₁ : Inv s₁ := h.modCrest
  exact .ite (.ite hs₁.crestRun hs₁) h

theorem crestSeam (h : Inv s) : Inv s.crestSeam := .foldl (fun _ h => .ite h.modCrest h) h

/-! ### CREST_LOAD -/

theorem crestLoadDef_keeps : crestLoadDef.Keeps := fun h => .okOut h.modCrest

/-! ### CREST_CONTROL -/

theorem crestAct {a : CrestAct} {i : Nat} (h : Inv s) : Inv (s.crestAct a i) := by
  unfold State.crestAct
  dsimp only
  split
  · exact h.modCrest
  · exact .ite h.modCrest h.modCrest.crestRun
  · exact .ite h (.ite h.modCrest h.modCrest)
  · exact h.modCrest

theorem crestControl {a : CrestAct} (h : Inv s) : Inv (s.crestControl a) := .foldl (fun _ h => h.crestAct) h

theorem crestSeamActs (h : Inv s) : Inv s.crestSeamActs := .foldl (fun _ h => h.crestControl) h.parts

theorem crestControlDef_keeps : crestControlDef.Keeps := fun h =>
  .ite (.okOut h.parts) (.okOut h.crestControl)

end Inv

end Sys2Proof.Machine
end

section
/-! PROOFS. The invariant is kept by Machine/SelfTest.lean: self-test in service. -/

namespace Sys2Proof.Machine

namespace Inv
variable {s t : State}

/-! ### Slices begin (R290, R292, R294, R297) -/

theorem beginSlice {type target : Nat} (h : Inv s) : Inv (s.beginSlice type target) := by
  unfold State.beginSlice
  extract_lets s₁ _ _ _ s₃
  have hs₁ : Inv s₁ := h.bump.modTest
  have hs₃ : Inv s₃ := .parts (.ite hs₁.setLane hs₁)
  exact .ite hs₃.parts hs₃

theorem startOn {type target : Nat} (h : Inv s) : Inv (s.startOn type target) :=
  .ite (.ite h h.parts) (.ite (.ite h h.parts) h.beginSlice)

theorem rotate (h : Inv s) : Inv s.rotate := by
  unfold State.rotate
  dsimp only
  split
  · exact h.turnTo.startOn
  · exact h

theorem sliceDue (h : Inv s) : Inv s.sliceDue := by
  unfold State.sliceDue
  split
  · exact h
  · split
    · exact h.beginSlice
    · split
      · exact h
      · split
        · exact .ite h.startOn h
        · exact .ite h.rotate h

/-! ### Bank migration (R294, R295) -/

theorem migrated {l : Nat} (h : Inv s) : Inv (s.migrated l) := by
  unfold State.migrated
  extract_lets s₁
  have hs₁ : Inv s₁ := h.readSpan
  split
  · exact hs₁
  · exact .ite hs₁ hs₁.nvmParts.evt

/-! ### Marks and returns (R298 to R302) -/

theorem sectorFails {n : Nat} (h : Inv s) : Inv (s.sectorFails n) := by
  unfold State.sectorFails
  dsimp only
  split
  · exact h.nvmParts
  · split
    · exact h.freeW.remapSector
    · exact h

theorem blockFails {type target unit : Nat} (h : Inv s) : Inv (s.blockFails type target unit) := by
  unfold State.blockFails
  split
  · exact h.holdStored.nvmParts
  · exact h.sectorFails
  · exact .ite h (.ite h.mark.latchFault.parts h.mark.latchFault.freeW.evt.parts.degrade)
  · exact .ite h h.mark
  · exact h.mark.modLane
  · exact h.mark
  · exact h

theorem unmark {b : Nat} (h : Inv s) : Inv (s.unmark b) := h.holdStored.nvmParts

theorem restored {type target : Nat} (h : Inv s) : Inv (s.restored type target) := by
  unfold State.restored
  extract_lets s₁ _ _ s₃
  have hs₁ : Inv s₁ := h.evt
  have hs₃ : Inv s₃ := hs₁.unmark
  split
  · exact hs₁.holdStored.nvmParts
  · exact .ite hs₃.parts (.ite hs₃.parts (.ite hs₃.setLoader.freshLoads hs₃))
  · exact hs₁.unmark.unmark
  · exact hs₁.unmark.modLane
  · exact hs₁.unmark
  · exact hs₁

/-! ### Slices end (R291, R300) -/

theorem sliceFails {type target unit : Nat} {r : SegResult} (h : Inv s) : Inv (s.sliceFails type target unit r) := by
  unfold State.sliceFails
  extract_lets _ _ _ _ s₅
  have hs₅ : Inv s₅ := h.bump.modTest.turnOver.blockFails.evt
  split
  · exact hs₅.endJob
  · exact hs₅

theorem testLeaves {type target : Nat} (h : Inv s) : Inv (s.testLeaves type target) := by
  unfold State.testLeaves
  split
  · exact h.parts
  · exact .ite h.parts h
  · exact h

theorem testPasses {type target : Nat} (h : Inv s) : Inv (s.testPasses type target) := by
  unfold State.testPasses
  extract_lets _ s₂
  have hs₂ : Inv s₂ := h.modTest.turnOver.testLeaves
  split
  · exact .endJob (.ite hs₂.restored hs₂)
  · exact hs₂

theorem segEnds {type target : Nat} {r : SegResult} (h : Inv s) : Inv (s.segEnds type target r).1 := by
  unfold State.segEnds
  extract_lets s₁ s₂ s₃
  have hs₁ : Inv s₁ := h.modTest
  have hs₂ : Inv s₂ := hs₁.modTest
  have hs₃ : Inv s₃ := by unfold s₃; split; exacts [hs₂.jobStep, hs₂]
  exact .iteFst hs₁.sliceAborted.abortLeaves (.iteFst hs₁.sliceFails (.iteFst hs₃.testPasses hs₃))

theorem segsEnd {type target : Nat} {l : List SegResult} (h : Inv s) : Inv (s.segsEnd type target l) := by
  induction l generalizing s with
  | nil => exact h
  | cons r l ih => exact .ite (ih h.segEnds) h.segEnds

theorem govFails {unit : Nat} {r : SegResult} (h : Inv s) : Inv (s.govFails unit r) := h.modTest.sliceFails

theorem govEnds {a b : SegResult} (h : Inv s) : Inv (s.govEnds a b) := by
  unfold State.govEnds
  extract_lets _ s₁
  have hs₁ : Inv s₁ := h.parts
  split
  · exact hs₁.segEnds
  · split
    · exact hs₁.segEnds
    · exact hs₁.govFails
    · exact hs₁.govFails
    · exact hs₁.govFails

theorem sliceOver (h : Inv s) : Inv s.sliceOver := by
  unfold State.sliceOver
  extract_lets s₁ _ s₂
  have hs₁ : Inv s₁ := by unfold s₁; split; exacts [h.laneTested, h]
  have hs₂ : Inv s₂ := hs₁.parts
  split
  · exact hs₂.parts
  · exact hs₂

/-! ### TRAIN_TAP_MISMATCH (R301) -/

theorem tapFails {l : Lane} (h : Inv s) : Inv (s.tapFails l) := h.freeW.freeW.sliceFails

/-! ### Spur at a seam (R297, SPUR_ASSIGN) -/

theorem leftBySpur {t : Nat} (h : Inv s) : Inv (s.leftBySpur t) :=
  .ite h.setLoader.freshLoads.latchFault.addCause.limpTile h.setLoader.freshLoads

theorem spurSeam (h : Inv s) : Inv s.spurSeam := by
  unfold State.spurSeam
  split
  · exact h
  · split
    · exact h
    · extract_lets _ s₁
      have hs₁ : Inv s₁ := h.spurMove
      exact .freshLoads (.setLoader (.ite hs₁.leftBySpur hs₁))
    · extract_lets _ s₁
      have hs₁ : Inv s₁ := h.spurMove
      exact .ite hs₁.leftBySpur hs₁

theorem assignMarked (h : Inv s) : Inv s.assignMarked :=
  .foldl (fun _ h => .ite h (.ite h.setLoader.spurMove h.setLoader.latchFault.addCause.limpTile)) (.ite h.parts h)

/-! ### BIST_CONFIG -/

theorem bistConfigDef_keeps : bistConfigDef.Keeps := fun h => .okOut h.setLive.setLive

/-! ### BIST_RUN -/

theorem bistRunDef_keeps : bistRunDef.Keeps := fun h => h.modTest.startJob

/-! ### BIST_RESULT -/

theorem resultSig {ty tg : Nat} (h : Inv s) : Inv (s.resultSig ty tg).1 := .iteFst h.freeW h

theorem bistResultDef_keeps : bistResultDef.Keeps := fun h => .okOut h.resultSig

/-! ### SPUR_ASSIGN -/

theorem spurAssignDef_keeps : spurAssignDef.Keeps := fun h => .okOut h.abortSlice.parts

end Inv

end Sys2Proof.Machine
end

section
/-! PROOFS. The invariant is kept by Machine/Thermal.lean: temperature and throttling. -/

namespace Sys2Proof.Machine

namespace Inv
variable {s t : State}

/-! ### Sensors (R306, R310) -/

theorem modSensor {n : Nat} {f : Sensor → Sensor} (h : Inv s) : Inv (s.modSensor n f) := h.parts

/-! ### Values in use (R307, R311) -/

theorem formTemps {vled : List Nat} (h : Inv s) : Inv (s.formTemps vled) :=
  .foldl (fun _ h => .ite h.modSensor.parts h.modSensor) h

/-! ### Events of sensors (R310, R312, R319) -/

theorem sensorEvt {n what : Nat} (h : Inv s) : Inv (s.sensorEvt n what) := .ite h h.evt

theorem manyFailed {last : Nat} (h : Inv s) : Inv (s.manyFailed last) := by
  unfold State.manyFailed
  extract_lets _ _ _ s₁
  have hs₁ : Inv s₁ := h.parts
  exact .ite hs₁.latchFault.evt hs₁

/-! ### Levels (R313, R314) -/

theorem shutdown (h : Inv s) : Inv s.shutdown := by
  unfold State.shutdown
  exact .addCause (.shutStrings (.bump (.parts (.foldl (fun _ h => h.stopStore) h))))

theorem stopRun {u : Nat} (h : Inv s) : Inv (s.stopRun u) := by
  unfold State.stopRun
  split
  · exact h.freeW.freeW.endRun
  · exact h

theorem critical (h : Inv s) : Inv s.critical := .foldl (fun _ h => h.stopRun) h.parts.abortSlice

theorem setLevel {n : Nat} (h : Inv s) : Inv (s.setLevel n) := .ite h h.parts.evt

theorem checkLevels {e : ℤ} (h : Inv s) : Inv (s.checkLevels e) := by
  unfold State.checkLevels
  extract_lets _ _ s₁ _ _ s₂ s₃
  have hs₁ : Inv s₁ := h.parts
  have hs₂ : Inv s₂ := hs₁.setLevel
  have hs₃ : Inv s₃ := .ite hs₂.shutdown hs₂
  exact .ite (.ite hs₃.critical hs₃) hs₁.setLevel

/-! ### The update (R307 to R309) -/

theorem throttle (h : Inv s) : Inv s.throttle := by
  unfold State.throttle
  extract_lets _ _ _ _ _ _ _ _ _ s₁
  have hs₁ : Inv s₁ := h.parts
  exact .checkLevels (.ite hs₁ hs₁.evt)

theorem thermalUpdate {readings : List ℤ} {vled : List Nat} (h : Inv s) : Inv (s.thermalUpdate readings vled) :=
  .throttle (.manyFailed (.foldl (fun _ h => h.sensorEvt) (.parts (.formTemps (.foldl (fun _ h => h.modSensor) h)))))

/-! ### THERMAL_RELAX and THERMAL_RESUME (R308, R313) -/

theorem refreshHeld (h : Inv s) : Inv s.refreshHeld := h.memParts.bump

theorem thermalResume (h : Inv s) : Inv s.thermalResume := h.nvmParts.refreshHeld.setLevel.clearCauses

/-! ### NTC inputs and string derating (R310, R315, R221) -/

theorem ntcInput {n code : Nat} (h : Inv s) : Inv (s.ntcInput n code) := h.modSensor.parts.sensorEvt

theorem derate {n : Nat} (h : Inv s) : Inv (s.derate n) := by
  unfold State.derate
  extract_lets _ _ _ s₁ s₂
  have hs₁ : Inv s₁ := h.modChan
  have hs₂ : Inv s₂ := .ite hs₁.evt hs₁
  exact .ite hs₂.evt hs₂

/-! ### Factory corrections (R316) and start (R317) -/

theorem thermStart (h : Inv s) : Inv s.thermStart := by
  unfold State.thermStart
  extract_lets _ n s₁ _ _ s₂
  have hn : Inv n.1 := h.readConf.readConf
  have hs₁ : Inv s₁ := by unfold s₁; split; exacts [.ite (.foldl (fun _ h => h.setLive) hn) hn, hn]
  have hs₂ : Inv s₂ := hs₁.parts
  exact .ite hs₂.freeW.evt hs₂

/-! ### THERM_STATUS -/

theorem thermStatusDef_keeps : thermStatusDef.Keeps := fun h => .okOut h

/-! ### THERM_CONFIG -/

theorem thermConfigDef_keeps : thermConfigDef.Keeps := by
  intro j p s h
  dsimp -zeta only [thermConfigDef]
  extract_lets _ _ s₁ _ _ s₂ _ _ _ s₃
  have hs₁ : Inv s₁ := .iteFst h.storeConf h
  have hs₂ : Inv s₂ := .foldl (fun _ h => h.setLive) hs₁
  have hs₃ : Inv s₃ := hs₁.parts
  exact .ite ⟨hs₁, id⟩ (.ite (.okOut (.ite hs₂.nvmParts hs₂)) (.okOut (.ite hs₃.nvmParts hs₃)))

end Inv

end Sys2Proof.Machine
end

section
/-! PROOFS. The invariant is kept by Machine/Recovery.lean: Cairn, recovery, firmware and sessions. -/

namespace Sys2Proof.Machine

namespace Inv
variable {s t : State}

/-! ### Journal lines (R347, R348, R314) -/

theorem lineFails {l : JLine} (h : Inv s) : Inv (s.lineFails l) := by
  unfold State.lineFails
  dsimp only
  split
  · exact h.dropLine.bump
  · split
    · exact h.remapSector.jrnParts
    · exact h.dropLine.writeFails

theorem journalWritten {verified : Bool} (h : Inv s) : Inv (s.journalWritten verified) := by
  unfold State.journalWritten
  split
  · exact h
  · extract_lets s₁
    have hs₁ : Inv s₁ := h.abortMram
    exact .ite hs₁.jStore (.ite hs₁.jrnParts hs₁.lineFails)

theorem closeWindow {w : Window} (h : Inv s) : Inv (s.closeWindow w) := h.jrnParts.jSet

/-! ### The scan at start-up (R349, R350) -/

theorem journalScan (h : Inv s) : Inv s.journalScan := by
  unfold State.journalScan
  extract_lets s₁ n _ s₂ cache
  have hs₁ : Inv s₁ := h.readSpan
  have hs₂ : Inv s₂ := hs₁.setCache (Nat.zero_le _) hs₁.scanNewest_used nofun
  have hcache : cache.length ≤ 2048 ∧ ∀ e ∈ cache, e.jseq ≠ 0xFFFFFFFF := by
    dsimp only [cache]
    clear_value n
    split
    · exact ⟨Nat.zero_le _, nofun⟩
    · refine ⟨(List.length_filterMap_le _ _).trans List.length_range.le, fun e he => ?_⟩
      obtain ⟨k, -, hk⟩ := List.mem_filterMap.mp he
      exact hs₂.jEntry_used hk
  exact hs₂.setCache hcache.1 hs₂.newest hcache.2

/-! ### The recovery pass (R354) -/

theorem convert {rolled : Bool} {j : Word} (h : Inv s) : Inv (s.convert rolled j) := by
  unfold State.convert
  extract_lets st s₁
  have hs₁ : Inv s₁ := h.jSet (hf := fun e => by split <;> rfl)
  split
  · exact hs₁
  · exact hs₁.parts.cmdDone

theorem trialRolls (h : Inv s) : Inv s.trialRolls := .foldl (fun _ h => .ite h.setSlot.jRecord.evt h) h

theorem resetRecord (h : Inv s) : Inv s.resetRecord := by
  unfold State.resetRecord
  extract_lets x
  have hx : Inv x.1 := h.jRecord
  exact .ite h.jRecord (.ite hx hx.evt)

theorem recoveryPass (h : Inv s) : Inv s.recoveryPass := by
  unfold State.recoveryPass
  extract_lets s₁
  have hs₁ : Inv s₁ := h.resetRecord
  exact .jrnParts (.jRecord (.foldl (fun _ h => h.convert) (.ite hs₁.trialRolls hs₁)))

/-! ### Restarts (R17, R353) -/

theorem fetchFault {line : Nat} (h : Inv s) : Inv (s.fetchFault line) := .restartDue (.ite h.lineLost h)

theorem pipeReinit (h : Inv s) : Inv s.pipeReinit := .pipeResetEnd (.foldl (fun _ h => h.modRg) h.jrnParts)

/-! ### JRNL_READ (R351) -/

theorem jLook {j : Word} (h : Inv s) : Inv (s.jLook j).1 := by
  unfold State.jLook
  extract_lets r
  have hr : Inv r.1 := h.abortMram.readLine
  split
  · exact h
  · exact .iteFst hr hr

theorem jScan {fuel n : Nat} {j : Word} (h : Inv s) : Inv (s.jScan fuel n j).1 := by
  induction fuel generalizing s n j with
  | zero => exact h
  | succ fuel ih =>
    refine .iteFst h ?_
    dsimp only
    split
    · exact ih h.jLook
    · exact ih h.jLook

theorem jrnlReadDef_keeps : jrnlReadDef.Keeps := by
  intro j p s h
  dsimp -zeta only [jrnlReadDef]
  extract_lets _ _ r
  have hr : Inv r.1 := h.jScan
  exact .ite (.okOut h.freeW) (.okOut (.ite hr hr.bump))

/-! ### JRNL_MARK -/

theorem jrnlMarkDef_keeps : jrnlMarkDef.Keeps := by
  intro j p s h
  dsimp -zeta only [jrnlMarkDef]
  extract_lets x
  have hx : Inv x.1 := h.jAdd
  exact ⟨.ite hx.jDurable hx, id⟩

/-! ### STATE_DIGEST -/

theorem stateDigestDef_keeps : stateDigestDef.Keeps := by
  intro j p s h
  dsimp -zeta only [stateDigestDef]
  extract_lets r
  have hr : Inv r.1 := h.readSpan
  exact .ite ⟨hr, id⟩ (.okOut hr)

/-! ### FW_STAGE (R356, R357) -/

theorem stageBegin_inv {p : Pkt} {k : Nat} (h : Inv s) : Out.Keeps (stageBegin p k s) :=
  .ite ⟨h, id⟩ (.okOut h.setSlot.nvmParts)

theorem stageData_inv {p : Pkt} {k : Nat} (h : Inv s) : Out.Keeps (stageData p k s) := by
  unfold stageData
  extract_lets _ _ r v s₁
  have hr : Inv r.1 := h.readParts
  have hv : Inv v.1 := hr.abortMrams.verifyLines
  have hs₁ : Inv s₁ := hv.writeMram
  exact .ite ⟨hr, id⟩ (.ite ⟨hv, id⟩ (.okOut (.ite hs₁.nvmParts hs₁)))

theorem stageFinish_inv {k : Nat} {hh : List Byte} (h : Inv s) : Out.Keeps (stageFinish k hh s) := by
  unfold stageFinish
  extract_lets _ _ _ _ s₂ v
  have hs₂ : Inv s₂ := h.abortMrams.readSpan
  have hv : Inv v.1 := hs₂.verifyLines
  exact .ite ⟨hs₂, id⟩ (.ite ⟨hv, id⟩ (.okOut hv.writeMram.setSlot.nvmParts))

theorem stageRun_inv {p : Pkt} (h : Inv s) : Out.Keeps (stageRun p s) := by
  unfold stageRun
  split
  · exact stageBegin_inv h
  · exact stageData_inv h
  · exact stageFinish_inv h
  · exact .okOut h

theorem fwStageDef_keeps : fwStageDef.Keeps := fun h => stageRun_inv h

/-! ### FW_ACTIVATE (R358) -/

theorem makeActive {k : Nat} (h : Inv s) : Inv (s.makeActive k) := .setSlot (.ite h.setSlot h)

theorem fwActivateDef_keeps : fwActivateDef.Keeps := by
  intro j p s h
  dsimp -zeta only [fwActivateDef]
  split
  · split
    · exact .okOut h.makeActive
    · exact .okOut h
  · split
    · extract_lets v
      have hv : Inv v.1 := h.verifySlot
      exact .ite hv.startJob ⟨hv, id⟩
    · exact .okOut h

theorem selfCheckFails (h : Inv s) : Inv s.selfCheckFails := by
  unfold State.selfCheckFails
  extract_lets bad prev _ s₁ a s₂
  have hs₂ : Inv s₂ := h.parts.rollBack.setSlot.setSlot
  clear_value a
  split
  · exact hs₂.endJob
  · exact hs₂

theorem activateAtLatch (h : Inv s) : Inv s.activateAtLatch := by
  unfold State.activateAtLatch
  split
  · extract_lets _ s₁ s₂ _ _ s₃ s₄
    have hs₁ : Inv s₁ := h.jSet
    have hs₂ : Inv s₂ := .ite hs₁.makeActive hs₁.setSlot
    have hs₄ : Inv s₄ := hs₂.nvmParts.seqRestart
    exact .ite h (.ite hs₄.selfCheckFails hs₄)
  · exact h

theorem selfCheckPassed (h : Inv s) : Inv s.selfCheckPassed := by
  unfold State.selfCheckPassed
  extract_lets _ _ _ _ s₁
  have hs₁ : Inv s₁ := h.parts
  split
  · exact hs₁.endJob.jRecord.evt
  · exact hs₁

/-! ### Sessions (R359 to R361) -/

theorem authOpenRun_inv {p : Pkt} {key : List Byte} (h : Inv s) : Out.Keeps (authOpenRun p key s) :=
  .okOut h.freeW.freeW.setSession

theorem authLoadRun_inv {p : Pkt} (h : Inv s) : Out.Keeps (authLoadRun p s) := by
  unfold authLoadRun
  extract_lets _ _ _ s₁
  have hs₁ : Inv s₁ := h.storeConf
  exact .ite ⟨hs₁, id⟩ (.okOut hs₁.nvmParts)

theorem authOpenDef_keeps : authOpenDef.Keeps := by
  intro j p s h
  dsimp -zeta only [authOpenDef]
  split
  · split
    · exact authOpenRun_inv h
    · exact .okOut h
  · exact authLoadRun_inv h

theorem authCloseDef_keeps : authCloseDef.Keeps := by
  intro j p s h
  dsimp -zeta only [authCloseDef]
  extract_lets x
  have hx : Inv x.1 := by unfold x; split; exacts [by split; exacts [h, h.freeW], h.freeW]
  exact .okOut hx.setSession

end Inv

end Sys2Proof.Machine
end

section
/-! PROOFS. The invariant is kept by Machine/Power.lean: supplies, power states and time. -/

namespace Sys2Proof.Machine

namespace Inv
variable {s t : State}

/-! ### The internal generators (R322) -/

theorem setGens {g : Gens} (h : Inv s) : Inv (s.setGens g) := h.parts

/-! ### What holds the engine in reset (R324, R325, R401) -/

theorem letGo (h : Inv s) : Inv s.letGo := .ite h.parts h

/-! ### DEVTIME across DORMANT (R337) -/

theorem estimate {ticks exit old : Nat} (h : Inv s) : Inv (s.estimate ticks exit old) := h.parts

theorem exitMeasured {period : Nat} (h : Inv s) : Inv (s.exitMeasured period) := by
  unfold State.exitMeasured
  split
  · exact .ite (.parts (.ite h.estimate h)) h
  · exact h

/-! ### The reference oscillator (R29, R335, R239) -/

theorem clockBack {ticks : Nat} (h : Inv s) : Inv (s.clockBack ticks) := h.parts.evt.clearCauses

/-! ### Entering ACTIVE (R334, R340) -/

theorem powerEntered {new : Power} {wake : Nat} (h : Inv s) : Inv (s.powerEntered new wake) := h.parts.evt

theorem enterActive {wake : Nat} (h : Inv s) : Inv (s.enterActive wake) :=
  h.powerEntered.parts.crestAll.releaseHeld.addCause.parts

/-! ### Start-up (R31, R325, R326) -/

theorem sceneCheck {base : Nat} {e : SceneEntry} (h : Inv s) : Inv (s.sceneCheck base e).1 := h.readSpan

theorem sceneCopy {n base : Nat} (h : Inv s) : Inv (s.sceneCopy n base) := h.setSram

theorem sceneInvalid {n slot crc : Nat} {e : SceneEntry} (h : Inv s) : Inv (s.sceneInvalid n slot crc e) := h.evt

theorem loadSceneZero (h : Inv s) : Inv s.loadSceneZero := by
  unfold State.loadSceneZero
  extract_lets one first second
  have hone {u : State} {q : Bool} (hu : Inv u) : Inv (one u q).1 :=
    .iteFst hu.sceneCheck.sceneCopy.nvmParts hu.sceneCheck.sceneInvalid
  have hsecond : Inv second.1 := hone (hone h)
  exact .ite (hone h) (.ite hsecond hsecond.nvmParts.latchFault)

theorem loadScene {n : Nat} (h : Inv s) : Inv (s.loadScene n) := by
  unfold State.loadScene
  extract_lets _ _ c
  have hc : Inv c.1 := h.sceneCheck
  exact .ite hc.sceneCopy hc.sceneInvalid.nvmParts

theorem loadScenes (h : Inv s) : Inv s.loadScenes := .foldl (fun _ h => h.loadScene) h.loadSceneZero

theorem bootSlot (h : Inv s) : Inv s.bootSlot := h.nvmParts

theorem upEvents (h : Inv s) : Inv s.upEvents := by
  unfold State.upEvents
  extract_lets _ _ s₂ _ s₃
  have hs₂ : Inv s₂ := .parts (.ite h.evt h)
  have hs₃ : Inv s₃ := .ite hs₂.parts.evt hs₂
  split
  · exact hs₃.parts.evt
  · exact hs₃

theorem startUp (h : Inv s) : Inv s.startUp := h.takeImage.loadScenes.journalScan.setDacs.jrnParts

theorem logicReady (h : Inv s) : Inv s.logicReady := by
  unfold State.logicReady
  extract_lets _ _ _ s₁ s₂
  have hs₁ : Inv s₁ := h.bootSlot.same
  have hs₂ : Inv s₂ := hs₁.upEvents.thermStart.releaseHeld.copyImage
  exact .ite hs₂.parts hs₂.startUp

theorem oscReady (h : Inv s) : Inv s.oscReady := by
  unfold State.oscReady
  extract_lets _ s₁
  have hs₁ : Inv s₁ := h.parts
  exact .ite hs₁.estimate hs₁

theorem stageReady (h : Inv s) : Inv s.stageReady := by
  unfold State.stageReady
  extract_lets _ s₁
  have hs₁ : Inv s₁ := h.parts
  split
  · exact hs₁.setGens.parts
  · exact hs₁.oscReady
  · exact hs₁.parts
  · exact hs₁.logicReady
  · exact hs₁

theorem trimsDone {dac : List Nat} {cmp : List (List Nat)} (h : Inv s) : Inv (s.trimsDone dac cmp) := by
  unfold State.trimsDone
  extract_lets _ _ _ s₃
  have hs₃ : Inv s₃ := .parts (.applyTrims (.ite h.startUp h))
  exact .ite hs₃.writeAllTrims.memParts.vfbRelease.assignMarked hs₃

/-! ### DORMANT (R320, R325, R342) -/

theorem toDormant {armed : Nat} {burst : Bool} {timer : Word} {act : Bool} (h : Inv s) :
    Inv (s.toDormant armed burst timer act) :=
  h.fullReset.nvmParts

theorem powerupFails {detail : Nat} (h : Inv s) : Inv (s.powerupFails detail) := h.parts.toDormant

theorem stageTimeout {detail : Nat} (h : Inv s) : Inv (s.stageTimeout detail) := .ite h.parts h.powerupFails

theorem wakeDormant {cause ticks : Nat} (h : Inv s) : Inv (s.wakeDormant cause ticks) := h.parts.letGo

/-! ### STANDBY and IDLE (R320, R327, R328, R342) -/

theorem releaseContexts (h : Inv s) : Inv s.releaseContexts := h.releaseAll.clearForce

theorem toIdle (h : Inv s) : Inv s.toIdle := h.releaseContexts.spoilSweeps.powerEntered

theorem toStandby {n : Nego} (h : Inv s) : Inv (s.toStandby n) :=
  h.linesKept.releaseContexts.spoilSweeps.setGens.edgeTimeouts.crestAll.crestAll.setLane.setLane.nvmParts.powerEntered

theorem wakeStandby {cause : Nat} (h : Inv s) : Inv (s.wakeStandby cause) := by
  unfold State.wakeStandby
  extract_lets _ _ _ _ _ _ s₃
  have hs₃ : Inv s₃ := h.setGens.memParts.powerEntered
  exact .ite hs₃.enterActive hs₃

/-! ### Sleep negotiation (R330 to R333) -/

theorem storeStress (h : Inv s) : Inv s.storeStress := .ite h h.nvmParts

theorem forceBlock {n : Nego} {b : Nat} (h : Inv s) : Inv (s.forceBlock n b) := by
  unfold State.forceBlock
  split
  · exact .foldl (fun _ h => h.endJob) h
  · exact .foldl (fun _ h => by split; exacts [h.freeW.freeW.endRun, h]) h
  · exact .foldl (fun _ h => h.stopStore) h
  · exact .foldl (fun _ h => .ite (.setLane (.ite (.retrainEvt (.ite (.retrainEvt (.ite h h.retrainEvt))
      (.ite h h.retrainEvt))) (.ite (.retrainEvt (.ite h h.retrainEvt)) (.ite h h.retrainEvt)))) h) h
  · exact h

theorem quiesce {b : Nat} (h : Inv s) : Inv (s.quiesce b) := by
  unfold State.quiesce
  split
  · exact h.storeStress
  · exact h.parts
  · exact h.parts.setDacs
  · exact h.parts.shutStrings.crestAll
  · exact h

theorem stopSlices {n : Nego} (h : Inv s) : Inv (s.stopSlices n) := by
  unfold State.stopSlices
  extract_lets s₁
  have hs₁ : Inv s₁ := h.abortSlice
  exact .ite hs₁.parts hs₁

theorem negoGo {n : Nego} {l : List Nat} (h : Inv s) : Inv (s.negoGo n l) := by
  induction l generalizing s n with
  | nil => exact h.parts
  | cons b r ih =>
    unfold State.negoGo
    extract_lets _ s₁ _ s₂
    have hs₁ : Inv s₁ := .ite h.forceBlock h
    have hs₂ : Inv s₂ := .ite hs₁.stopSlices hs₁
    exact .ite hs₁.parts (.ite (ih hs₂.quiesce) hs₂.parts)

theorem negoAdvance (h : Inv s) : Inv s.negoAdvance := by
  unfold State.negoAdvance
  split
  · exact .ite h h.negoGo
  · exact h

theorem negoTick (h : Inv s) : Inv s.negoTick := by
  unfold State.negoTick
  extract_lets s₁
  have hs₁ : Inv s₁ := h.negoAdvance
  split
  · exact h
  · split
    · exact .ite hs₁.negoReply hs₁
    · exact hs₁

theorem negoFails {n : Nego} {status : Nat} (h : Inv s) : Inv (s.negoFails n status) :=
  h.negoRollback.parts.negoReply

theorem quiesceTimeout {stuck : Bool} (h : Inv s) : Inv (s.quiesceTimeout stuck) := by
  unfold State.quiesceTimeout
  extract_lets t
  have ht : Inv t := h.negoTick
  split
  · exact h
  · split
    · exact h
    · split
      · exact h.negoFails
      · split
        · exact h.negoFails
        · split
          · exact .ite ht.negoFails ht
          · exact ht

theorem enterSleep {n : Nego} (h : Inv s) : Inv (s.enterSleep n) := by
  unfold State.enterSleep
  extract_lets _ s₁
  have hs₁ : Inv s₁ := h.parts
  split
  · exact hs₁.toIdle
  · exact hs₁.toStandby
  · exact hs₁.toDormant

/-! ### Wakes (R327 to R329, R333) -/

theorem wakeUp {bit cause : Nat} (h : Inv s) : Inv (s.wakeUp bit cause) := by
  unfold State.wakeUp
  extract_lets s₁
  have hs₁ : Inv s₁ := by unfold s₁; split; exacts [.ite h.enterSleep h, h]
  split
  · exact hs₁
  · split
    · exact hs₁.wakeStandby
    · exact hs₁.wakeDormant
    · split
      · exact .ite hs₁.parts hs₁
      · exact hs₁

/-! ### SET_TIME (R343) -/

theorem setTimeDef_keeps : setTimeDef.Keeps := by
  intro j p s h
  dsimp -zeta only [setTimeDef]
  dsimp only
  split
  · exact .okOut h.timeStep
  · split
    · exact .okOut h.timeStep
    · exact ⟨h.parts, id⟩

/-! ### TIME_STATUS -/

theorem timeStatusDef_keeps : timeStatusDef.Keeps := fun h => .okOut h

/-! ### PWR_STATE (R342) -/

theorem pwrLower_inv {j : Word} {p : Pkt} (h : Inv s) : Out.Keeps (pwrLower j p s) := by
  unfold pwrLower
  extract_lets _ s₁
  have hs₁ : Inv s₁ := h.negoGo
  split
  · exact .ite (.okOut hs₁) ⟨hs₁, id⟩
  · exact ⟨hs₁, id⟩

theorem pwrActive_inv {j : Word} {p : Pkt} (h : Inv s) : Out.Keeps (pwrActive j p s) := ⟨h.enterActive.parts, id⟩

theorem pwrStateDef_keeps : pwrStateDef.Keeps := fun h =>
  .ite (.okOut h) (.ite (pwrActive_inv h) (pwrLower_inv h))

/-! ### PWR_STATUS -/

theorem pwrStatusDef_keeps : pwrStatusDef.Keeps := fun h => .okOut (.ite h.parts h)

end Inv

end Sys2Proof.Machine
end

section
/-! PROOFS. The invariant is kept by Machine/Groups.lean: groups of engines and the timed queue. -/

namespace Sys2Proof.Machine

namespace Inv
variable {s t : State}

/-! ### NODE_SET and GROUP_SET (R364, R365) -/

theorem nodeSetDef_keeps : nodeSetDef.Keeps := by
  intro j p s h
  dsimp -zeta only [nodeSetDef]
  extract_lets _ _ s₁
  have hs₁ : Inv s₁ := .iteFst h.storeConf h
  exact .ite ⟨hs₁, id⟩ (.okOut hs₁.same)

theorem groupSetDef_keeps : groupSetDef.Keeps := by
  intro j p s h
  dsimp -zeta only [groupSetDef]
  extract_lets _ _ s₁
  have hs₁ : Inv s₁ := .iteFst h.storeConf h
  exact .ite ⟨hs₁, id⟩ (.okOut hs₁.same)

/-! ### GROUP_STATUS -/

theorem groupStatusDef_keeps : groupStatusDef.Keeps := fun h => .okOut h

/-! ### The opcodes (R414), by number -/

/-- Every row of the opcode table keeps the invariant. -/
theorem opDefs_keep : ∀ x ∈ opDefs, x.2.Keeps := by
  unfold opDefs
  refine List.forall_mem_append.mpr ⟨?_, ?_⟩
  · simp only [List.forall_mem_cons]
    exact ⟨pingDef_keeps, identifyDef_keeps, resetDef_keeps, paramGetDef_keeps, paramSetDef_keeps, statusGetDef_keeps,
      eventAckDef_keeps, ringConfigDef_keeps, setTimeDef_keeps, timeStatusDef_keeps, objUpdateDef_keeps,
      objReleaseDef_keeps, objClearAllDef_keeps, forceLevelDef_keeps, fallbackEnterDef_keeps, fallbackExitDef_keeps,
      bendSetDef_keeps, frameCommitDef_keeps, scanSelectDef_keeps, timingStatusDef_keeps, freezeStatusDef_keeps,
      videoConfigDef_keeps, sceneWriteDef_keeps, sceneStoreDef_keeps, sceneMixDef_keeps, symbolWriteDef_keeps,
      ovlSetDef_keeps, ovlClearDef_keeps, lutWriteDef_keeps, windowSetDef_keeps, tileRefSetDef_keeps,
      driveStatusDef_keeps, budgetSetDef_keeps, saddleStatusDef_keeps, strConfigDef_keeps, strLevelDef_keeps,
      strStatusDef_keeps, crestLoadDef_keeps, crestControlDef_keeps, nofun⟩
  · simp only [List.forall_mem_cons]
    exact ⟨diagStatusDef_keeps, diagMapReadDef_keeps, pixelMaskDef_keeps, faultClearDef_keeps, faultConfigDef_keeps,
      calSweepDef_keeps, calCommitDef_keeps, calStatusDef_keeps, calAbortDef_keeps, fluxWriteDef_keeps,
      memReadDef_keeps, memWriteDef_keeps, cvuConfigDef_keeps, cvuRunDef_keeps, errlogReadDef_keeps,
      scrubStatusDef_keeps, bistConfigDef_keeps, bistRunDef_keeps, bistResultDef_keeps, spurAssignDef_keeps,
      thermStatusDef_keeps, thermConfigDef_keeps, pwrStateDef_keeps, pwrStatusDef_keeps, jrnlReadDef_keeps,
      jrnlMarkDef_keeps, stateDigestDef_keeps, fwStageDef_keeps, fwActivateDef_keeps, authOpenDef_keeps,
      authCloseDef_keeps, linkStatusDef_keeps, linkRetrainDef_keeps, laneModeDef_keeps, eyeReadDef_keeps,
      nodeSetDef_keeps, groupSetDef_keeps, groupStatusDef_keeps, nofun⟩

theorem opDef_keeps {op : Nat} {d : OpDef} (hd : opDef op = some d) : d.Keeps := by
  obtain ⟨l, r, hl, -⟩ := List.lookup_eq_some_iff.mp hd
  exact opDefs_keep (op, d) (hl ▸ List.mem_append_right _ List.mem_cons_self)

/-! ### TIMED_EXEC SCHEDULE (R368) -/

theorem schedule_inv {p q : Pkt} {gap : Bool} (h : Inv s) : Inv (schedule p q gap s) := by
  unfold schedule
  dsimp only
  split
  · exact h.reject
  · split
    · exact h.reject
    · split
      · exact h.reject
      · split
        · exact h.reject
        · split
          · exact h.reject
          · split
            · exact h.reject
            · split
              · exact h.reject
              · split
                · exact h.reject
                · next hb => exact h.enqueue (room_of_timedBad hb)

theorem serveSchedule_inv {p : Pkt} {gap : Bool} (h : Inv s) : Inv (serveSchedule p gap s) := by
  unfold serveSchedule
  extract_lets a
  have ha : Inv a.1 := h.authenticate
  split
  · exact h.putBack
  · split
    · exact h.reject
    · split
      · exact ha.reject
      · exact .ite ha.reject (schedule_inv ha)

/-! ### TIMED_EXEC CANCEL and LIST -/

theorem cancelEntry {t : Timed} (h : Inv s) : Inv (s.cancelEntry t) := h.jEnd.cmdDone

/-- The timed queue with fewer entries, or as many. -/
theorem setTimed {g : Grp} (h : Inv s) (hg : g.queue.length ≤ s.grp.queue.length) : Inv { s with grp := g } :=
  { h with timed := hg.trans h.timed }

theorem timedExecDef_keeps : timedExecDef.Keeps := fun h =>
  .ite (.okOut (.foldl (fun _ h => h.cancelEntry) (h.setTimed (List.length_filter_le _ _)))) (.okOut h)

/-! ### Releases (R369 to R371) -/

theorem timedLateEvt {t : Timed} (h : Inv s) : Inv (s.timedLateEvt t) := h.bump.evt

theorem timedOut {t : Timed} (h : Inv s) : Inv (s.timedOut t) :=
  (h.setTimed (List.length_filter_le _ _)).jEnd.cmdDone

theorem modTimed {j : Word} {f : Timed → Timed} (h : Inv s) : Inv (s.modTimed j f) :=
  h.setTimed (List.length_map _).le

theorem releaseOne {t : Timed} (h : Inv s) : Inv (s.releaseOne t) :=
  .ite h.timedOut (.modTimed (.ite h.timedLateEvt h))

theorem releaseTimed (h : Inv s) : Inv s.releaseTimed := .ite h (.foldl (fun _ h => h.releaseOne) h)

theorem timedCutoff (h : Inv s) : Inv s.timedCutoff :=
  .foldl (fun _ h => .ite h.timedOut h.timedLateEvt.modTimed) h

end Inv

end Sys2Proof.Machine
end

section
/-! PROOFS. The invariant is kept by Machine/Seam.lean: the frame seam. -/

namespace Sys2Proof.Machine

namespace Inv
variable {s t : State}

/-! ### The commit cutoff (R191, R193) -/

theorem seamRepeat {g : Nat} {subs : List Nat} (h : Inv s) : Inv (s.seamRepeat g subs) := h.excuse.bump.parts

theorem cutPass {t : Nat} {p : Pass} (h : Inv s) : Inv (s.cutPass t p) := by
  unfold State.cutPass
  extract_lets _ _ _ _ _ s₁
  have hs₁ : Inv s₁ := h.parts
  exact .ite hs₁.seamRepeat hs₁

theorem cutReady {g : Nat} (h : Inv s) : Inv (s.cutReady g) := by
  unfold State.cutReady
  extract_lets _ old s₁
  have hs₁ : Inv s₁ := h.modRg
  clear_value old
  split
  · exact hs₁
  · exact hs₁.uncommit.commitRepeat.seamRepeat

theorem armCommitHolds (h : Inv s) : Inv s.armCommitHolds := h.parts

theorem formSeam (h : Inv s) : Inv s.formSeam :=
  .timedCutoff (.foldl (fun _ h => h.cutReady) (.foldl (fun _ h => h.cutPass) (.parts (.ite h.armCommitHolds h))))

/-! ### The freeze check (R206, R207) -/

theorem freezeCheck (h : Inv s) : Inv s.freezeCheck := by
  unfold State.freezeCheck
  extract_lets _ _ newly _ _ s₁
  have hs₁ : Inv s₁ := h.parts
  clear_value newly
  split
  · exact hs₁
  · exact hs₁.bump.evt.addCause

/-! ### What goes live (R191, R203, R92, R107, R96) -/

theorem lutExchange {set : Tab Half} (h : Inv s) : Inv (s.lutExchange set) := h.parts

theorem ovlGoLive {l : Tab Overlay} (h : Inv s) : Inv (s.ovlGoLive l) := h.parts

theorem takeCommit {l : SeamSet} (h : Inv s) : Inv (s.takeCommit l) :=
  .parts (.ovlGoLive (.lutExchange (.foldl (fun _ h => h.setLive) h)))

theorem takeScan {l : SeamSet} {wasFixed : Bool} {base : Nat} (h : Inv s) : Inv (s.takeScan l wasFixed base) := by
  unfold State.takeScan
  extract_lets _ s₁ _ _ s₃
  have hs₁ : Inv s₁ := h.setLive
  have hs₃ : Inv s₃ := .ite hs₁.bump.parts hs₁
  split
  · exact hs₃.bump.parts
  · exact hs₃

theorem takeMix {restarted : Bool} (h : Inv s) : Inv (s.takeMix restarted) := by
  unfold State.takeMix
  extract_lets _ _ _ _ s₁
  have hs₁ : Inv s₁ := h.parts
  exact .ite hs₁.parts.evt hs₁

theorem settlePasses (h : Inv s) : Inv s.settlePasses := h.parts

theorem takeSet {l : SeamSet} (h : Inv s) : Inv (s.takeSet l) :=
  .settlePasses (.takeMix (.takeScan (.ite h.takeCommit h)))

/-! ### The light (R31, R208, R241, R334) -/

theorem relimpHeld (h : Inv s) : Inv s.relimpHeld := .foldl (fun _ h => .ite h.limpTile h) h

theorem leaveDark (h : Inv s) : Inv s.leaveDark := .ite h.setDacs h.setDacs.setSafe.relimpHeld

theorem endSeamHolds (h : Inv s) : Inv s.endSeamHolds := .foldl (fun _ h => by split; exacts [h.endHeld, h]) h

theorem lightAgain (h : Inv s) : Inv s.lightAgain := by
  unfold State.lightAgain
  extract_lets _ s₁ s₂
  have hs₁ : Inv s₁ := h.parts
  have hs₂ : Inv s₂ := hs₁.setDacs
  exact .endSeamHolds (.ite hs₁ (.ite hs₂.limpRequest hs₂.relimpHeld.parts))

theorem firstSeam (h : Inv s) : Inv s.firstSeam := h.parts.leaveDark

theorem takeFrame (h : Inv s) : Inv s.takeFrame := by
  unfold State.takeFrame
  extract_lets _ s₁
  have hs₁ : Inv s₁ := h.parts
  exact .ite (.ite h.firstSeam h) (.ite hs₁.lightAgain hs₁)

/-! ### Returns (R140, R241) -/

theorem takeReturn {l : SeamSet} (h : Inv s) : Inv (s.takeReturn l) := by
  unfold State.takeReturn
  extract_lets _ s₁
  have hs₁ : Inv s₁ := h.parts
  split
  · split
    · split
      · exact hs₁.setSafe
      · exact hs₁.setSafe
      · exact hs₁.leaveDark
    · exact h
  · exact h

theorem takeRecovered (h : Inv s) : Inv s.takeRecovered := by
  unfold State.takeRecovered
  extract_lets _ _ s₁
  have hs₁ : Inv s₁ := h.parts
  exact .ite hs₁.setSafe hs₁

theorem takeTrip (h : Inv s) : Inv s.takeTrip := .ite (.foldl (fun _ h => h.modTile) h.parts) h

/-! ### Timing changes (R195 to R197, R26, R144) -/

theorem cadence {toPaired : Bool} (h : Inv s) : Inv (s.cadence toPaired) :=
  .foldl (fun _ h => .ite h.excuse.bump h) h

theorem newTiming {next : Timing} {c : Change} (h : Inv s) : Inv (s.newTiming next c) := by
  unfold State.newTiming
  extract_lets _ _ s₁ s₂
  have hs₁ : Inv s₁ := h.parts
  have hs₂ : Inv s₂ := .ite hs₁.cadence hs₁
  exact .setSync (.evt (.ite hs₂.parts hs₂))

theorem takeTiming {next : Option Timing} {bridge : Option Change} (h : Inv s) : Inv (s.takeTiming next bridge) := by
  unfold State.takeTiming
  split
  · exact h.newTiming
  · exact h.parts
  · exact h

/-! ### The latch instant (R190) -/

theorem endCommitHolds (h : Inv s) : Inv s.endCommitHolds :=
  .foldl (fun _ h => by split; exacts [.ite h.endHeld h, h]) h

theorem tookCommit {l : SeamSet} (h : Inv s) : Inv (s.tookCommit l) := .ite h.parts.endCommitHolds h

theorem takeGrid (h : Inv s) : Inv s.takeGrid := h.parts

theorem freshFrame (h : Inv s) : Inv s.freshFrame := h.parts

theorem latch {l : SeamSet} (h : Inv s) : Inv (s.latch l) := by
  unfold State.latch
  exact h.freezeCheck.freshFrame.takeSet.takeFrame.tookCommit.takeReturn.takeRecovered.takeTrip.seamLevels.crestSeam
    |>.crestSeamActs.spurSeam.takeTiming.takeGrid.activateAtLatch

end Inv

end Sys2Proof.Machine
end

section
/-! PROOFS. The invariant is kept by Machine/Transport.lean: how packets come and records go. -/

namespace Sys2Proof.Machine

namespace Inv
variable {s t : State}

/-! ### Arrival (R39 to R42, R46, R49 to R52, R58) -/

theorem crcDrop {port : Port} (h : Inv s) : Inv (s.crcDrop port) := by
  unfold State.crcDrop
  split
  · exact h.bump
  · exact h.bump

theorem expectNext {p : Pkt} (h : Inv s) : Inv (s.expectNext p) := h.parts

theorem takeIn {op : Nat} {p : Pkt} {gap : Bool} (h : Inv s) : Inv (s.takeIn op p gap) := h.parts

theorem duplicate {op : Nat} {p : Pkt} {e : Word} (h : Inv s) : Inv (s.duplicate op p e) := by
  unfold State.duplicate
  split
  · exact h.postReply
  · exact h.postReply

theorem sequence {op : Nat} {p : Pkt} (h : Inv s) : Inv (s.sequence op p) := by
  unfold State.sequence
  split
  · exact h.takeIn
  · split
    · exact h.expectNext.takeIn
    · exact .ite h.expectNext.takeIn (.ite (.ite h.expectNext.takeIn h.reply) h.duplicate)

theorem countC0 {l : C0Pkt} (h : Inv s) : Inv (s.countC0 l) := h.bump.parts

theorem accountC0 {p : Pkt} (h : Inv s) : Inv (s.accountC0 p) :=
  .ite h (.foldl (fun _ h => h.countC0) h.parts)

theorem arrive {op : Nat} {p : Pkt} (h : Inv s) : Inv (s.arrive op p) := by
  unfold State.arrive
  extract_lets s₁
  have hs₁ : Inv s₁ := h.packetInput.accountC0
  exact .ite h.reply (.ite hs₁.parts.reply hs₁.sequence)

theorem packetIn {port : Port} {l : List Byte} (h : Inv s) : Inv (s.packetIn port l) :=
  .ite h.crcDrop (.ite h.bump (.ite h (.ite h.bump h.arrive)))

/-! ### SPI (R44, R45, R47) -/

theorem drive {l : Option (List Byte)} (h : Inv s) : Inv (s.drive l) := h.parts

theorem pktWrite {sdi : List Byte} (h : Inv s) : Inv (s.pktWrite sdi) := .ite h.drive.packetIn h.drive

theorem ringRead {sel : Byte} {clocked : Nat} (h : Inv s) : Inv (s.ringRead sel clocked) := by
  unfold State.ringRead
  split
  · exact h.drive
  · split
    · exact h.drive
    · extract_lets h₁
      have hh₁ : Inv h₁.1 := h.outHead
      split
      · exact hh₁.drive
      · extract_lets s₁
        have hs₁ : Inv s₁ := hh₁.drive
        exact .ite hs₁.popOut.negoTick hs₁

theorem statusPoll (h : Inv s) : Inv s.statusPoll := .ite h.drive.parts h.drive

/-! ### Class 0 (R58, R418) -/

theorem c0Overload (h : Inv s) : Inv s.c0Overload := by
  unfold State.c0Overload
  split
  · exact h
  · exact h.parts.evt

theorem unqueue {w : Waiting} (h : Inv s) : Inv (s.unqueue w) := h.headOn.parts

theorem serveTaken_inv {w : Waiting} (h : Inv s) : Inv (serveTaken w s) := by
  unfold serveTaken
  split
  · exact .ite (serveSchedule_inv h) (serveOp_inv timedExecDef_keeps h)
  · split
    · exact serveLut_inv h
    · split
      · next d hd => exact serveOp_inv (opDef_keeps hd) h
      · exact h.reject

theorem serveHead_inv {w : Waiting} (h : Inv s) : Inv (serveHead w s) := by
  unfold serveHead
  extract_lets _ _ t t₁
  have ht : Inv t := h.ringsWritten.readEach.unqueue
  have ht₁ : Inv t₁ := ht.bump
  exact .ite (serveTaken_inv ht) (.ite ht₁ ht₁.reject)

theorem contextWrite (h : Inv s) : Inv s.contextWrite := by
  unfold State.contextWrite
  split
  · exact h
  · split
    · exact serveHead_inv h
    · exact h

/-! ### The sequencer's picks (R58, R52, R369) -/

theorem takeTimed {t : Timed} (h : Inv s) : Inv (s.takeTimed t) := by
  unfold State.takeTimed
  extract_lets _ s₁ _
  have hs₁ : Inv s₁ := h.setTimed List.length_erase_le
  split
  · next d hd => exact runTimed_inv (opDef_keeps hd) hs₁
  · exact hs₁

theorem takeRing {c r : Nat} {w : Waiting} (h : Inv s) : Inv (s.takeRing c r w) := serveHead_inv h.parts

theorem sequencerTake (h : Inv s) : Inv s.sequencerTake := by
  unfold State.sequencerTake
  extract_lets _ n
  have hn : Inv n := h.parts
  split
  · exact h
  · split
    · exact h
    · split
      · exact hn.takeTimed
      · split
        · exact h
        · split
          · exact hn.takeRing
          · exact h

/-! ### Multi-step commands (R58) -/

theorem jobBegins {b : Job} (h : Inv s) : Inv (s.jobBegins b) := .ite h.jSet h

theorem runStep {b : Job} (h : Inv s) : Inv (s.runStep b) := by
  unfold State.runStep
  extract_lets s₁
  have hs₁ : Inv s₁ := h.jobBegins
  split
  · exact hs₁.sceneStep
  · exact hs₁.calSweepStep
  · exact hs₁.calCommitStep
  · exact hs₁

theorem multiStep (h : Inv s) : Inv s.multiStep := by
  unfold State.multiStep
  split
  · exact h
  · split
    · exact h.runStep.negoTick
    · exact h

/-! ### RECORD_SEND (R43, R48, R174) -/

theorem recordSend {l : Lane} (h : Inv s) : Inv (s.recordSend l) := h.linesKept.sendHead.negoTick

/-! ### Forward blocks (R163 to R166, R171 to R175) -/

theorem cutPacket (h : Inv s) : Inv s.cutPacket := .ite h.parts.crcDrop h

theorem growPacket {l : List Byte} (h : Inv s) : Inv (s.growPacket l) :=
  .ite h.parts.crcDrop (.ite h.parts.packetIn h.parts)

theorem cmdBlock {b : List Byte} {good : Bool} (h : Inv s) : Inv (s.cmdBlock b good) := by
  unfold State.cmdBlock
  extract_lets s₁
  have hs₁ : Inv s₁ := h.cutPacket
  split
  · exact .ite hs₁.growPacket hs₁.crcDrop
  · split
    · exact h.bump
    · exact .ite h.growPacket h.cutPacket

theorem cutLine (h : Inv s) : Inv s.cutLine := .ite h.parts.bump h

theorem growLine {l : List Byte} (h : Inv s) : Inv (s.growLine l) := .ite h.parts.videoLine h.parts

theorem videoBlock {b : List Byte} {good : Bool} (h : Inv s) : Inv (s.videoBlock b good) := by
  unfold State.videoBlock
  extract_lets s₁
  have hs₁ : Inv s₁ := h.cutLine
  split
  · exact .ite hs₁.growLine hs₁.bump
  · split
    · exact h
    · exact .ite h.growLine h.cutLine

theorem deliver {b : List Byte} {good : Bool} (h : Inv s) : Inv (s.deliver b good) := by
  unfold State.deliver
  split
  · exact h.cmdBlock
  · exact h.videoBlock
  · exact h

/-! ### The deskew buffer (R174) -/

theorem setRecent {l : List Copy} (h : Inv s) : Inv (s.setRecent l) := h.parts

theorem ageCopies (h : Inv s) : Inv s.ageCopies := h.setRecent

theorem lateCopy {l : Lane} {b : List Byte} {c : Copy} (h : Inv s) : Inv (s.lateCopy l b c) := by
  unfold State.lateCopy
  extract_lets _ s₁ s₂ s₃
  have hs₁ : Inv s₁ := h.modLane
  have hs₂ : Inv s₂ := .ite hs₁.bump hs₁
  have hs₃ : Inv s₃ := .ite hs₂.setRecent hs₂
  exact .ite hs₃.laneDown hs₃

theorem putCopy {l : Lane} {c : Option (List Byte)} (h : Inv s) : Inv (s.putCopy l c) := by
  unfold State.putCopy
  split
  · exact h
  · split
    · exact h.lateCopy
    · exact h.modLane.setRecent

theorem takeCopy {c : Copy} (h : Inv s) : Inv (s.takeCopy c) := h.setRecent.parts.deliver

theorem skipBseq {n : Nat} (h : Inv s) : Inv (s.skipBseq n) := h.cutPacket.cutLine.parts

theorem drain {alone : Bool} {n : Nat} (h : Inv s) : Inv (s.drain alone n) := by
  induction n generalizing s with
  | zero => exact h
  | succ n ih =>
    unfold State.drain
    dsimp only
    split
    · exact h
    · split
      · exact .ite (ih h.takeCopy) h
      · exact .ite (ih h.skipBseq.takeCopy) (.ite (ih h.skipBseq) h)

/-! ### BLOCK_RECEIVED -/

theorem headerBad {l : Lane} (h : Inv s) : Inv (s.headerBad l) := by
  unfold State.headerBad
  extract_lets s₁
  have hs₁ : Inv s₁ := h.bump
  exact .ite hs₁.laneDown hs₁

theorem headerNone {l : Lane} {came : Bool} (h : Inv s) : Inv (s.headerNone l came) :=
  .headerBad (.setLane (.ite h.cutPacket.cutLine h))

theorem blockValid {l : Lane} {b : List Byte} (h : Inv s) : Inv (s.blockValid l b).1 := by
  unfold State.blockValid
  dsimp only
  split
  · exact .ite h.locked h
  · exact .ite h.capsIn h
  · exact .ite h.idleIn h
  · exact h

theorem blockIn {l : Lane} {syms : List Nat} (h : Inv s) : Inv (s.blockIn l syms).1 := by
  unfold State.blockIn
  extract_lets _ s₁ s₂
  have hs₁ : Inv s₁ := h.setLane
  have hs₂ : Inv s₂ := .ite hs₁ hs₁.bump
  exact .iteFst hs₂.setLane.blockValid hs₂.headerNone

theorem trainBlock {l : Lane} {b : List Byte} (h : Inv s) : Inv (s.trainBlock l b).1 := by
  unfold State.trainBlock
  extract_lets _ s₁ _ _ s₂
  have hs₁ : Inv s₁ := h.setLane
  have hs₂ : Inv s₂ := .ite hs₁ (.ite hs₁.setLane hs₁.headerNone)
  exact .trainIn (.ite hs₂.parts hs₂)

theorem emptyTime {l : Lane} (h : Inv s) : Inv (s.emptyTime l) := by
  unfold State.emptyTime
  extract_lets s₁
  have hs₁ : Inv s₁ := .ite h h.modLane
  exact .ite hs₁.headerNone hs₁

theorem laneIn {l : Lane} {syms : Option (List Nat)} (h : Inv s) : Inv (s.laneIn l syms).1 := by
  unfold State.laneIn
  dsimp only
  split
  · exact h
  · split
    · exact h.emptyTime
    · exact .iteFst h.trainBlock (.iteFst h.blockIn h.modLane)

theorem blockReceived {copyA copyB : Option (List Nat)} (h : Inv s) : Inv (s.blockReceived copyA copyB) :=
  h.linesKept.ageCopies.laneIn.laneIn.putCopy.putCopy.drain.negoTick

end Inv

end Sys2Proof.Machine
end

section
/-! PROOFS. The invariant is kept by Machine/Dispatch.lean: every command. -/

namespace Sys2Proof.Machine

namespace Inv
variable {s t : State}

theorem execPassComplete_keeps {dt : Nat} {t : Fin 16} {ups : Upsets} (h : Inv s) :
    NextKeeps (execPassComplete dt t ups s) := by
  unfold execPassComplete
  dsimp only
  split
  · exact .next h.elapse.arise
  · exact .next h.elapse.arise.passDone.nextToken

theorem execLatchInstant_keeps {dt : Nat} (h : Inv s) : NextKeeps (execLatchInstant dt s) := by
  unfold execLatchInstant
  dsimp only
  split
  · exact .next h.elapse
  · split
    · exact .next (.negoTick (.latch (.ite h.elapse h.elapse.formSeam)))
    · exact .next (.ite h.elapse h.elapse.formSeam)

theorem execHostStale_keeps {dt : Nat} (h : Inv s) : NextKeeps (execHostStale dt s) := by
  unfold execHostStale
  dsimp only
  split
  · exact .next (.ite h.elapse.hostStale h.elapse)
  · exact .next h.elapse

theorem execPtbLock_keeps {dt : Nat} {gridOffset : Nat} (h : Inv s) :
    NextKeeps (execPtbLock dt gridOffset s) := by
  unfold execPtbLock
  dsimp only
  split
  · exact .next (.ite h.elapse.parts h.elapse)
  · exact .next h.elapse

theorem execFrameReady_keeps {dt : Nat} (h : Inv s) : NextKeeps (execFrameReady dt s) := by
  unfold execFrameReady
  dsimp only
  split
  · exact .next h.elapse.frameReady
  · exact .next h.elapse

theorem execEyeScanDone_keeps {dt : Nat} {lane : Lane} {eye : EyeScan} (h : Inv s) :
    NextKeeps (execEyeScanDone dt lane eye s) := by
  unfold execEyeScanDone
  dsimp only
  split
  · split
    · exact .next h.elapse.linesKept.setLane.eyeAction
    · exact .next h.elapse.linesKept.setLane
  · exact .next h.elapse.linesKept

theorem execReturnResume_keeps {dt : Nat} {lane : Lane} (h : Inv s) :
    NextKeeps (execReturnResume dt lane s) := by
  unfold execReturnResume
  dsimp only
  split
  · split
    · exact .next h.elapse.linesKept
    · exact .next h.elapse.linesKept.setLane.joinReturn
    · exact .next h.elapse.linesKept.setLane
  · exact .next h.elapse.linesKept

theorem execCoalesceWindowClose_keeps {dt : Nat} {port : Port} {ring : Fin 8} (h : Inv s) :
    NextKeeps (execCoalesceWindowClose dt port ring s) := by
  unfold execCoalesceWindowClose
  dsimp only
  split
  · exact .next (.ite h.elapse.closeWindow h.elapse)
  · exact .next h.elapse

theorem execSliceEnd_keeps {dt : Nat} {segs : List SegResult} (h : Inv s) :
    NextKeeps (execSliceEnd dt segs s) := by
  unfold execSliceEnd
  dsimp only
  split
  · exact .next (.ite h.elapse.sliceOver.govEnds h.elapse.sliceOver.segsEnd)
  · exact .next h.elapse

theorem execBankMigrated_keeps {dt : Nat} (h : Inv s) : NextKeeps (execBankMigrated dt s) := by
  unfold execBankMigrated
  dsimp only
  split
  · exact .next h.elapse.migrated
  · exact .next h.elapse

theorem execSleepEntry_keeps {dt : Nat} (h : Inv s) : NextKeeps (execSleepEntry dt s) := by
  unfold execSleepEntry
  dsimp only
  split
  · exact .next (.ite h.elapse.enterSleep h.elapse.negoTick)
  · exact .next h.elapse

theorem execSupplyMonitorRecovery_keeps {dt : Nat} (h : Inv s) :
    NextKeeps (execSupplyMonitorRecovery dt s) := by
  unfold execSupplyMonitorRecovery
  dsimp only
  split
  · exact .next (.ite h.elapse.parts.letGo h.elapse)
  · exact .next h.elapse

/-- Every command keeps the invariant. -/
theorem exec_keeps (h : Inv s) : ∀ c : Instr, NextKeeps (exec c s)
  | .blockReceived .. => .next h.elapse.blockReceived
  | .c0Overload .. => .next h.elapse.c0Overload
  | .contextWrite .. => .next h.elapse.contextWrite
  | .sequencerTake .. => .next h.elapse.arise.sequencerTake
  | .multiStepResume .. => .next h.elapse.arise.multiStep
  | .recordSend .. => .next h.elapse.recordSend
  | .pktWrite .. => .next h.elapse.pktWrite
  | .ringRead .. => .next h.elapse.ringRead
  | .statusPoll .. => .next h.elapse.statusPoll
  | .ping .. => .next (serveOp_inv pingDef_keeps h)
  | .identify .. => .next (serveOp_inv identifyDef_keeps h)
  | .sequencerRestart .. => .next (serveOp_inv resetDef_keeps h)
  | .pipelineSoftReset .. => .next (serveOp_inv resetDef_keeps h)
  | .fullReset .. => .next (serveOp_inv resetDef_keeps h)
  | .paramGet .. => .next (serveOp_inv paramGetDef_keeps h)
  | .paramSet .. => .next (serveOp_inv paramSetDef_keeps h)
  | .statusGet .. => .next (serveOp_inv statusGetDef_keeps h)
  | .eventAck .. => .next (serveOp_inv eventAckDef_keeps h)
  | .ringConfig .. => .next (serveOp_inv ringConfigDef_keeps h)
  | .setTime .. => .next (serveOp_inv setTimeDef_keeps h)
  | .timeStatus .. => .next (serveOp_inv timeStatusDef_keeps h)
  | .objUpdate .. => .next (serveOp_inv objUpdateDef_keeps h)
  | .objRelease .. => .next (serveOp_inv objReleaseDef_keeps h)
  | .objClearAll .. => .next (serveOp_inv objClearAllDef_keeps h)
  | .forceLevel .. => .next (serveOp_inv forceLevelDef_keeps h)
  | .fallbackEnter .. => .next (serveOp_inv fallbackEnterDef_keeps h)
  | .fallbackExit .. => .next (serveOp_inv fallbackExitDef_keeps h)
  | .bendSet .. => .next (serveOp_inv bendSetDef_keeps h)
  | .frameCommit .. => .next (serveOp_inv frameCommitDef_keeps h)
  | .scanSelect .. => .next (serveOp_inv scanSelectDef_keeps h)
  | .timingStatus .. => .next (serveOp_inv timingStatusDef_keeps h)
  | .freezeStatus .. => .next (serveOp_inv freezeStatusDef_keeps h)
  | .videoConfig .. => .next (serveOp_inv videoConfigDef_keeps h)
  | .sceneWrite .. => .next (serveOp_inv sceneWriteDef_keeps h)
  | .sceneStore .. => .next (serveOp_inv sceneStoreDef_keeps h)
  | .sceneMix .. => .next (serveOp_inv sceneMixDef_keeps h)
  | .symbolWrite .. => .next (serveOp_inv symbolWriteDef_keeps h)
  | .ovlSet .. => .next (serveOp_inv ovlSetDef_keeps h)
  | .ovlClear .. => .next (serveOp_inv ovlClearDef_keeps h)
  | .lutWrite .. => .next (serveLut_inv h)
  | .windowSet .. => .next (serveOp_inv windowSetDef_keeps h)
  | .tileRefSet .. => .next (serveOp_inv tileRefSetDef_keeps h)
  | .driveStatus .. => .next (serveOp_inv driveStatusDef_keeps h)
  | .budgetSet .. => .next (serveOp_inv budgetSetDef_keeps h)
  | .saddleStatus .. => .next (serveOp_inv saddleStatusDef_keeps h)
  | .strConfig .. => .next (serveOp_inv strConfigDef_keeps h)
  | .strLevel .. => .next (serveOp_inv strLevelDef_keeps h)
  | .strStatus .. => .next (serveOp_inv strStatusDef_keeps h)
  | .crestLoad .. => .next (serveOp_inv crestLoadDef_keeps h)
  | .crestStop .. => .next (serveOp_inv crestControlDef_keeps h)
  | .crestStart .. => .next (serveOp_inv crestControlDef_keeps h)
  | .crestResume .. => .next (serveOp_inv crestControlDef_keeps h)
  | .crestStopAndSet .. => .next (serveOp_inv crestControlDef_keeps h)
  | .diagStatus .. => .next (serveOp_inv diagStatusDef_keeps h)
  | .diagMapRead .. => .next (serveOp_inv diagMapReadDef_keeps h)
  | .pixelMask .. => .next (serveOp_inv pixelMaskDef_keeps h)
  | .faultClear .. => .next (serveOp_inv faultClearDef_keeps h)
  | .faultConfig .. => .next (serveOp_inv faultConfigDef_keeps h)
  | .calSweep .. => .next (serveCal_inv calSweepDef_keeps h)
  | .calCommit .. => .next (serveOp_inv calCommitDef_keeps h)
  | .calStatus .. => .next (serveOp_inv calStatusDef_keeps h)
  | .calAbort .. => .next (serveCal_inv calAbortDef_keeps h)
  | .fluxWrite .. => .next (serveOp_inv fluxWriteDef_keeps h)
  | .memRead .. => .next (serveOp_inv memReadDef_keeps h.arise)
  | .memWrite .. => .next (serveOp_inv memWriteDef_keeps h)
  | .cvuConfig .. => .next (serveOp_inv cvuConfigDef_keeps h)
  | .cvuRun .. => .next (serveOp_inv cvuRunDef_keeps h)
  | .cvuDone .. => .next h.elapse.arise.cvuDone.negoTick
  | .errlogRead .. => .next (serveOp_inv errlogReadDef_keeps h)
  | .scrubStatus .. => .next (serveOp_inv scrubStatusDef_keeps h)
  | .bistConfig .. => .next (serveOp_inv bistConfigDef_keeps h)
  | .bistRun .. => .next (serveOp_inv bistRunDef_keeps h)
  | .bistResult .. => .next (serveOp_inv bistResultDef_keeps h)
  | .spurAssign .. => .next (serveOp_inv spurAssignDef_keeps h)
  | .thermStatus .. => .next (serveOp_inv thermStatusDef_keeps h)
  | .thermConfig .. => .next (serveOp_inv thermConfigDef_keeps h)
  | .pwrState .. => .next (serveOp_inv pwrStateDef_keeps h)
  | .pwrStatus .. => .next (serveOp_inv pwrStatusDef_keeps h)
  | .jrnlRead .. => .next (serveOp_inv jrnlReadDef_keeps h)
  | .jrnlMark .. => .next (serveOp_inv jrnlMarkDef_keeps h)
  | .stateDigest .. => .next (serveOp_inv stateDigestDef_keeps h)
  | .fwStageBegin .. => .next (serveOp_inv fwStageDef_keeps h)
  | .fwStageData .. => .next (serveOp_inv fwStageDef_keeps h)
  | .fwStageFinish .. => .next (serveOp_inv fwStageDef_keeps h)
  | .fwStageQuery .. => .next (serveOp_inv fwStageDef_keeps h)
  | .fwActivate .. => .next (serveOp_inv fwActivateDef_keeps h)
  | .fwConfirm .. => .next (serveOp_inv fwActivateDef_keeps h)
  | .fwSelfCheckTimeout .. => .next (.ite h.elapse.selfCheckFails h.elapse)
  | .authOpen .. => .next (serveOp_inv authOpenDef_keeps h)
  | .authLoadKey .. => .next (serveOp_inv authOpenDef_keeps h)
  | .authClose .. => .next (serveOp_inv authCloseDef_keeps h)
  | .linkStatus .. => .next (serveOp_inv linkStatusDef_keeps h)
  | .linkRetrain .. => .next (serveOp_inv linkRetrainDef_keeps h)
  | .laneMode .. => .next (serveOp_inv laneModeDef_keeps h)
  | .eyeRead .. => .next (serveOp_inv eyeReadDef_keeps h)
  | .nodeSet .. => .next (.ite (serveOp_inv nodeSetDef_keeps h) h)
  | .groupSet .. => .next (serveOp_inv groupSetDef_keeps h)
  | .schedule .. => .next (serveSchedule_inv h)
  | .cancel .. => .next (serveOp_inv timedExecDef_keeps h)
  | .list .. => .next (serveOp_inv timedExecDef_keeps h)
  | .groupStatus .. => .next (serveOp_inv groupStatusDef_keeps h)
  | .timedRelease .. => .next h.elapse.releaseTimed
  | .startToken .. => .next h.elapse.arise.startToken
  | .passComplete .. => execPassComplete_keeps h
  | .loadDeadline .. => .next (.ite h.elapse.deadline h.elapse)
  | .slotStart .. => .next (.ite h.elapse.slotStart h.elapse)
  | .notchRowAccess .. => .next (.ite h.elapse.notchAccess h.elapse)
  | .notchEnd .. => .next (.ite h.elapse (.ite h.elapse.notchEnd h.elapse))
  | .planInstant .. => .next (.ite (.govCompare (.makePlan (.abortSlice (.ite h.elapse.parts h.elapse)))) h.elapse)
  | .commitCutoff .. => .next (.ite h.elapse.formSeam h.elapse)
  | .latchInstant .. => execLatchInstant_keeps h
  | .timeoutScanRound .. => .next (.ite h.elapse.scanRound h.elapse)
  | .hardTrip .. => .next (.ite h.elapse.hardTrip h.elapse)
  | .hostStale .. => execHostStale_keeps h
  | .fallbackCheck .. => .next (.ite (.ite h.elapse.parts.reevaluate h.elapse.parts.evt.addCause) h.elapse)
  | .limpCodesReady .. => .next (.ite h.elapse.arise.limpFormed h.elapse)
  | .syncInEdge .. => .next (.ite h.elapse.syncEdge h.elapse)
  | .syncEdgeMissed .. => .next (.ite h.elapse.loseLock h.elapse)
  | .ptbLock .. => execPtbLock_keeps h
  | .frameReady .. => execFrameReady_keeps h
  | .detectPoll .. =>
    .next (.ite (.tryTrain (.modLane (.ite h.elapse.linesKept.abortSlice h.elapse.linesKept))) h.elapse.linesKept)
  | .backoffExpiry .. => .next h.elapse.linesKept.modLane.tryTrain
  | .rxReady .. =>
    .next (.ite (.ite h.elapse.linesKept.setLane.leaveTrain
      (.ite h.elapse.linesKept.setLane h.elapse.linesKept)) h.elapse.linesKept)
  | .trainTimeout .. => .next (.ite h.elapse.linesKept.laneDown h.elapse.linesKept)
  | .lockTimeout .. => .next (.ite h.elapse.linesKept.laneDown h.elapse.linesKept)
  | .capsTimeout .. => .next (.ite (.ite h.elapse.linesKept.laneDown h.elapse.linesKept.setLane) h.elapse.linesKept)
  | .lossOfSignal .. => .next (.ite h.elapse.linesKept.laneDown h.elapse.linesKept)
  | .terminationLost .. => .next (.ite h.elapse.linesKept.laneDown h.elapse.linesKept)
  | .adaptWindowEnd .. =>
    .next (.ite (.ite h.elapse.linesKept.setLane h.elapse.linesKept.bump.setLane) h.elapse.linesKept)
  | .eyeScanDone .. => execEyeScanDone_keeps h
  | .l2Resume .. => .next (.ite h.elapse.linesKept.setLane h.elapse.linesKept)
  | .returnIdleTimeout .. => .next (.ite h.elapse.linesKept.setLane h.elapse.linesKept)
  | .returnResume .. => execReturnResume_keeps h
  | .retReadyTimeout .. => .next (.ite h.elapse.linesKept.laneDown h.elapse.linesKept)
  | .stringPeriodStart .. => .next (.ite (.foldl (fun _ h => h.chanPeriod) h.elapse.sampleAll.parts) h.elapse)
  | .openDetected .. => .next (.ite h.elapse.markOpen h.elapse)
  | .crestTick .. => .next (.foldl (fun _ h => h.crestTick) h.elapse)
  | .ntcUpdate .. =>
    .next (.ite h.elapse (.foldl (fun _ h => h.derate) (.ite (.ntcInput (.ite h.elapse.ntcInput h.elapse))
      (.ite h.elapse.ntcInput h.elapse))))
  | .thermalUpdate .. => .next (.ite h.elapse.thermalUpdate h.elapse)
  | .thermalResume .. => .next (.ite h.elapse.thermalResume h.elapse)
  | .thermalRelax .. => .next (.ite h.elapse.parts h.elapse)
  | .factoryCorrection .. => .next (.ite h.elapse h.elapse.parts)
  | .talusRead .. =>
    .next (.ite h.elapse (.ite (.ite h.elapse.talusMram h.elapse) (.ite h.elapse.talusSram h.elapse)))
  | .repaired .. => .next (.ite h.elapse.repairFront h.elapse)
  | .mramLineWrite .. => .next h.elapse.lineWritten.negoTick
  | .journalLineWrite .. => .next (.negoTick (.ite h.elapse h.elapse.journalWritten))
  | .coalesceWindowClose .. => execCoalesceWindowClose_keeps h
  | .bistSliceStart .. => .next h.elapse.sliceDue
  | .sliceEnd .. => execSliceEnd_keeps h
  | .bankMigrated .. => execBankMigrated_keeps h
  | .supplyTrip .. => .next (.ite h.elapse (.parts (.ite h.elapse h.elapse.fullReset)))
  | .vaonPowerOn .. => .next h.elapse.fullReset.parts
  | .resetnAssert .. => .next h.elapse.fullReset.parts
  | .resetnRelease .. => .next h.elapse.parts.letGo
  | .powerupStageReady .. => .next (.ite h.elapse h.elapse.stageReady)
  | .powerupStageTimeout .. => .next (.ite h.elapse h.elapse.stageTimeout)
  | .referenceLoss .. => .next (.ite h.elapse h.elapse.parts.evt.addCause)
  | .clockRestored .. => .next (.ite h.elapse.clockBack h.elapse)
  | .wakeLand .. => .next h.elapse.wakeUp
  | .laneWake .. => .next (.ite h.elapse.wakeUp h.elapse)
  | .sleepTimerWake .. => .next h.elapse.wakeUp
  | .quiesceTimeout .. => .next h.elapse.quiesceTimeout
  | .sleepEntry .. => execSleepEntry_keeps h
  | .stressStore .. => .next (.ite h.elapse.storeStress h.elapse)
  | .watchdogExpiry .. => .next (.ite h.elapse.restartDue h.elapse)
  | .lockstepMismatch .. => .next (.ite h.elapse.restartDue h.elapse)
  | .instructionFetchFault .. => .next (.ite h.elapse.fetchFault h.elapse)
  | .restartHoldExpiry .. => .next (.ite h.elapse.seqRestart h.elapse)
  | .recoveryPass .. => .next (.ite h.elapse.recoveryPass h.elapse)
  | .jtagInstructionUpdate .. => .next (.ite (.parts (.ite h.elapse h.elapse.fullReset)) h.elapse.parts)
  | .testLogicReset .. => .next (.ite h.elapse.fullReset.parts.letGo h.elapse.parts)
  | .supplyMonitorRecovery .. => execSupplyMonitorRecovery_keeps h
  | .setTimeEdgeTimeout .. => .next h.elapse.edgeTimeouts
  | .lutBankCopyDone .. =>
    .next (.ite (.foldl (fun _ h => serveOp_inv lutWriteDef_keeps h) h.elapse.parts) h.elapse)
  | .pipelineReinitDone .. => .next (.ite h.elapse.pipeReinit h.elapse)
  | .fwSelfCheckPassed .. => .next (.ite h.elapse.selfCheckPassed h.elapse)
  | .stepTrimsDone .. => .next (.ite h.elapse.trimsDone h.elapse)
  | .trainTapMismatch .. => .next (.ite h.elapse.linesKept.tapFails h.elapse.linesKept)
  | .tExitMeasured .. => .next h.elapse.exitMeasured
  | .tickPeriodMeasured .. => .next (.ite h.elapse h.elapse.parts)

end Inv

/-- Settles O5: an engine steps by the meaning of the command at the front of its queue, which keeps the invariant. -/
theorem invKept : Obligations.InvKept := by
  unfold Obligations.InvKept
  intro s t h hstep
  unfold step at hstep
  split at hstep
  · cases hstep
    exact h
  · next c rest _ =>
    have hnext : NextKeeps (exec c { s with pending := rest }) := h.parts.exec_keeps c
    rwa [hstep] at hnext

end Sys2Proof.Machine
end
